-- ==== Sys2Proof/Word.lean ====
section
/-!
DEFINITION. The word types of the register port and of the tables in system memory (R15, R479), and the type of a
sparse table.
-/

namespace Sys2Proof

/-- One byte of a ticket, a record or a table in system memory (R15). -/
abbrev Byte := BitVec 8

/-- One register access: an aligned 32-bit word (R480). -/
abbrev Word := BitVec 32

/-- A sparse table: keys strictly rising (see `Machine.Tbl.sorted`). -/
abbrev Tbl (α : Type) := List (Nat × α)

end Sys2Proof
end

