-- ==== Sys2Proof/Machine/Operands.lean ====
section
/-!
DEFINITION. The operands of the commands: how a register access arrives, and what a command brings from outside the block
(dies, SRAM readings, decoders, frames, the boot's surroundings).
-/

namespace Sys2Proof.Machine

/-- A register access: its domain and its security attribute (R479, R481). -/
structure Acc where
  dom : Fin 16 := 0
  ns : Bool := false
deriving DecidableEq, Repr, Inhabited

/-- What SECDED and the page repair find in the SRAM words that an event reads (R359), with the index of a word in its region
and its syndrome: nothing in words that hold no damage the model knows of (`clean`), nothing beyond that damage in a word it
names (`word`), or a corrected, repaired or uncorrectable word. `memFinds` is the outcome. -/
inductive Mem
  | clean
  | word (word : Nat)
  | corrected (word synd : Nat)
  | repaired (word synd : Nat)
  | uncorr (word synd : Nat)
deriving DecidableEq, Repr, Inhabited

/-- A write of a 64-bit SRAM word (R363): its index in the region, the bytes it covers, the word's 8 bytes as the write leaves
them, and what a narrow write finds in the old word. A clean, corrected or repaired old word gives the bytes not covered
itself; of an uncorrectable one they are those of `val`, as read. -/
structure MemWr where
  word : Nat
  ben : Nat := 0xFF
  val : Nat := 0
  old : Mem := .clean
deriving DecidableEq, Repr, Inhabited

/-- The end of a die's busy time: how long its array was busy, in µs, and what the fetch of the microword that follows meets
when it lies in the patch store (R102, R254). -/
structure ReadyIn where
  busy : Nat
  m : Mem := .clean
deriving DecidableEq, Repr, Inhabited

/-- A record being written: its ticket's latency (R64), and what the read of its words in the admission staging meets (R365). -/
structure RecordIn where
  lat : Nat
  m : Mem := .clean
deriving DecidableEq, Repr, Inhabited

/-- A fragment as it arrives: its FCRC (R439), what the read of the accumulator's words meets (R217), and the words written
(R364). -/
structure FragIn where
  fcrc : Nat
  m : Mem := .clean
  ws : List MemWr := []
deriving DecidableEq, Repr, Inhabited

/-- What a command meets in the internal memories: the reading of a word, and the words it writes (R363, R365). -/
structure MemUse where
  m : Mem := .clean
  ws : List MemWr := []
deriving DecidableEq, Repr, Inhabited

/-- What the work that waited for a map line reads when it goes on, each list in the order of the readings: the cached lines
of a seed (R186), the cached line of each run (R175, R180), and the words each run fetches first from its patch store (R102).
A list that has run out reads clean. -/
structure MapReads where
  seed : List Mem := []
  run : List Mem := []
  word : List Mem := []
deriving DecidableEq, Repr, Inhabited

/-- The end of a fabric request (R293): its response code; what waited for a map line that it brings reads `m`, and its data
are written into the words `ws`. -/
structure Resp where
  code : Nat
  m : MapReads := {}
  ws : List MemWr := []
deriving DecidableEq, Repr, Inhabited

/-- A tag whose request has no answer (R295), with the readings of what waits. -/
structure TagRead where
  tag : Fin 256
  m : MapReads := {}
deriving DecidableEq, Repr, Inhabited

/-- A map line that arrives or has been written, and the readings of what waited (R176, R180). -/
structure LineRead where
  line : Nat
  m : MapReads := {}
deriving DecidableEq, Repr, Inhabited

/-- LM_SCMD as a seed's GO writes it, and the seed's readings of its cached lines (R180, R186). -/
structure SeedWrite where
  v : Word
  m : List Mem := []
deriving DecidableEq, Repr, Inhabited

/-- The channel of a selection; `same` says that its request falls in the CCLK cycle of the last ones (R132). -/
structure Selection where
  ch : Fin 32
  same : Bool := false
deriving DecidableEq, Repr, Inhabited

/-- What a decoder found (R148, R149, R158): the decode is not a function of the spec's text, which gives no LDPC code. -/
structure DecodeFound where
  ok : Bool
  iters : Nat
  corrected : Nat
  user : List Byte
  mdata : List Byte
  /-- Corrected bits whose decoded value is 1 and 0 (R182). -/
  n1 : Nat
  n0 : Nat
  /-- It ends in the CCLK cycle of the decode that ended last (R240). -/
  same : Bool := false
deriving DecidableEq, Repr, Inhabited

/-- The measurements a training routine brings back: per DQ bit the delay positions that match, the VREF codes that pass,
strobe delays, and the detector's duty codes. They come from the die and the on-chip detector. -/
structure CalMeas where
  bits : List Nat := []
  vmask : Nat := 0
  rdqs : Nat := 0
  wdqs : Nat := 0
  re : Nat := 0
  dqs : Nat := 0
deriving DecidableEq, Repr, Inhabited

/-- What the end of a nanoword sees from outside: the bytes the die drove, readings of the stores, and what a training
routine measured. -/
structure NanoIn where
  data : List Byte := []
  /-- The reading of the words fetched next from the patch store. -/
  fetch : Mem := .clean
  /-- The reading of the staging words of a DIN. -/
  staging : Mem := .clean
  /-- The reading of the context from the local store. -/
  local_ : Mem := .clean
  /-- The staging words a DOUT writes. -/
  writes : List MemWr := []
  meas : CalMeas := {}
deriving DecidableEq, Repr, Inhabited

/-- A word of the retention store found uncorrectable at a wake (R365, region 6): what it holds, its index and its syndrome. -/
inductive RetLoss
  | trims (c : Fin 32) (w s : Nat)
  | counter (r : Fin 12) (w s : Nat)
  | context (w s : Nat)
deriving DecidableEq, Repr, Inhabited

/-- One reading of one sensor (R376): the sensor, its count for the 10 µs, and the raw 10-bit temperature. -/
structure Reading where
  sensor : Fin 40
  cnt : Nat
  temp : Nat
deriving DecidableEq, Repr, Inhabited

/-- A record to be written: of a cell, or of the rejected ticket of a submission ring (0xFF for the direct path). -/
inductive Rec
  | cell (c : Nat)
  | reject (sq : Nat)
deriving DecidableEq, Repr

/-- A ring frame (R439). -/
structure Frame where
  dst : Nat
  src : Nat
  ty : Nat
  hops : Nat := 0
  flags : Nat := 0
  epoch : Nat := 0
  seq : Nat := 0
  arg : Nat := 0
  payload : List Byte := []
deriving DecidableEq, Repr, Inhabited

/-- One fuse item that FUSEPGM programs (R476). -/
inductive Fuse
  | hkey (i : Nat) (v : List Byte)
  | digest (i : Nat) (v : List Byte)
  | uid (v : List Byte)
  | trim (key v : Nat)
  | repair (mac row spare : Nat)
  | lock
deriving DecidableEq, Repr

/-- What an access of the register port may bring from outside the block: the reading of the SRAM word it reads, the readings
of a seed's cached lines (R186), whether the
NOR takes the checkpoint record of a sealed command (R430), VEC_ACK as a write of INT_GCTL meets it (R322), and what a
loopback's checker has counted when RUN is cleared (R468). -/
structure PortEnv where
  mem : Mem := .clean
  lines : List Mem := []
  ck : Bool := true
  ack : Nat := 0
  bytes : Nat := 0
  bits : Nat := 0
deriving DecidableEq, Repr, Inhabited

/-- An access of the register port (R479). -/
structure Access where
  wr : Bool
  off : Nat
  data : Nat := 0
  acc : Acc := {}
  env : PortEnv := {}
deriving DecidableEq, Repr, Inhabited

/-- What may stop a boot (R402): a recognised power fail, or a window of sensor readings (a sensor, its count and its
temperature), among them one that trips. -/
inductive BootEvent
  | powerFail
  | readings (rs : List (Nat × Nat × Nat))
deriving DecidableEq, Repr, Inhabited

/-- What the boot meets outside the block (R270, R400, R402–R404, R424, R474): TEST_MODE at the release of PORST_N, the bytes
the SFDP read returns from address 0 on, the codes at which each cluster's impedance search ends, whether the NOR takes
a boot-pointer record, what the patch stores read as during the eight loads two slots take, the µs the boot took,
whether the microcode ROM's CRC matches, and an event with the phase it meets. -/
structure BootEnv where
  testMode : Bool := false
  sfdp : List Byte := []
  pzq : List (Nat × Nat) := []
  bpOk : Bool := true
  loads : List Mem := []
  us : Nat := 0
  romOk : Bool := true
  stop : Option (Nat × BootEvent) := none
deriving DecidableEq, Repr, Inhabited

end Sys2Proof.Machine
end

