-- ==== Sys2Proof/Syntax.lean ====
section
/-!
DEFINITION. The commands of the block: one constructor for each row of spec/opcode_table.json, in the table's order. A
register access carries its domain and security attribute (`Acc`), a write its data word; an event carries what comes from
outside the block.
-/

namespace Sys2Proof

open Sys2Proof.Machine

/-- A command. -/
inductive Instr
  | clockLoss (k : Fin 6)
  | aonclkWatch
  | sqDoorbell (k : Fin 64) (v : Word) (a : Acc)
  | sqEnable (k : Fin 64) (v : Word) (a : Acc)
  | ticketFetch
  | ticketAdmit (m8 : Mem) (m10 : MemUse)
  | tktGo (a : Acc)
  | admEnable (v : Word) (a : Acc)
  | pfmArm
  | pfmRegionReadEnd
  | thlBaseWrite (hi : Bool) (v : Word) (a : Acc)
  | cellWritebackResponse (k : Fin 1048576)
  | cellFetchReturn (k : Fin 1048576)
  | thlSweepStart (v : Word) (a : Acc)
  | thlSweepEnd
  | cqEnable (j : Fin 64) (v : Word) (a : Acc)
  | cqHeadWrite (j : Fin 64) (v : Word) (a : Acc)
  | completionRecordWrite (r : Rec) (lat : RecordIn)
  | completionWriteResponse (j : Fin 64)
  | tqPop (q : Fin 16) (a : Acc) (m : Mem)
  | pfailNFall
  | powerFailRecognised
  | pfmWaitExpiry
  | manifestWrite (lat : Nat)
  | manifestHeaderWrite (span : Nat)
  | nanowordEnd (c : Fin 32) (n : NanoIn)
  | rbNRise (c : Fin 32) (g : Fin 2) (busy : ReadyIn)
  | waitrdyRetest (x : Fin 1024) (status : Nat) (ns : Nat) (busy : ReadyIn)
  | waitrdyTimeout (x : Fin 1024)
  | linkCrcError (c : Fin 32)
  | restartGapEnd (c : Fin 32) (m : Mem)
  | patLoad (a : Acc)
  | patClear (a : Acc)
  | patchDrainEnd (cl : Fin 4)
  | patchReadEnd (cl : Fin 4) (m : Mem)
  | patMinverWrite (v : Word) (a : Acc)
  | slalomSelect (c : Selection) (m : Mem) (fm : Mem) (tm : Mem)
  | stagingReserve (k : Fin 1048576)
  | liftGrant (gapA : Nat) (gapI : Nat) (wait : Nat) (m : Mem) (fm : Mem) (lm : Mem)
  | liftAgeExpiry (c : Fin 32) (wake : Bool)
  | liftWakeholdExpiry (c : Fin 32)
  | arrayTokenTimeout (c : Fin 32) (id : Nat)
  | liftWaitRead (a : Acc)
  | stagedCodewordDispatch (cl : Fin 4) (m : Mem)
  | hardDecodeEnd (cl : Fin 4) (n : Fin 10) (f : DecodeFound) (m : Mem)
  | softDecoderGrant
  | softDecodeEnd (n : Fin 8) (f : DecodeFound) (m : Mem)
  | lmLineFetchReturn (line : LineRead)
  | trackerResult (cl : Fin 4) (m : Mem)
  | lmLineWriteResponse (line : LineRead)
  | lmCtlWrite (v : Word) (a : Acc)
  | lmCacheInvalidate
  | lmSeedGo (v : SeedWrite) (a : Acc)
  | lmSeedEnd
  | lmSweepGo (v : Word) (a : Acc)
  | lmSweepUnit
  | lmSweepStop (v : Word) (a : Acc)
  | lmSweepEnd
  | wrHoldrel (v : Word) (a : Acc)
  | accOpen (a : Acc)
  | accForce (a : Acc)
  | accAbort (a : Acc)
  | accSpill (a : Acc)
  | accRestore (a : Acc)
  | accRelease (a : Acc)
  | accTakeEnd (n : Fin 64) (member : Nat) (m : MemUse)
  | accEmitEnd (n : Fin 64) (m : Mem)
  | accMoveEnd (n : Fin 64) (m : Mem)
  | traverseStreamTake (k : Fin 1048576)
  | bitmapReadReturn (k : Fin 1048576)
  | copyEncodeEnd (k : Fin 1048576)
  | bitmapRecheckReturn (k : Fin 1048576)
  | chEnumGo (v : Word) (a : Acc)
  | recoveryPoll (x : Fin 1024) (status : Nat) (ns : Nat)
  | recoveryTimeout (x : Fin 1024)
  | dieFence (a : Acc)
  | dieAdmit (a : Acc)
  | dieToclr (a : Acc)
  | rbFallbackEntry (c : Fin 32) (g : Fin 2)
  | rbFallbackQuiet (c : Fin 32) (g : Fin 2)
  | chRbExit (v : Word) (a : Acc)
  | pzqGo (a : Acc)
  | pzqSearchEnd (cl : Fin 4) (pu : Fin 64) (pd : Fin 64)
  | pzqBackoffEnd (cl : Fin 4)
  | calGo (a : Acc)
  | calForce (a : Acc)
  | calRetry (a : Acc)
  | calPolWrite (v : Word) (a : Acc)
  | calPeriodExpiry (c : Fin 32)
  | calGapTimeout (c : Fin 32)
  | calForceTimeout (c : Fin 32)
  | calBackoffEnd (c : Fin 32)
  | glideTimer (c : Fin 32)
  | fabricReadData (p : Fin 4) (tag : Fin 256) (bytes : List Byte) (last : Bool) (resp : Resp)
  | fabricWriteResponse (p : Fin 4) (tag : Fin 256) (resp : Resp)
  | fabricTimeout (p : Fin 4) (write : Bool) (tag : TagRead)
  | fpUnquar (a : Acc)
  | fabricRequestGrant (p : Fin 4) (write : Bool) (tag : Fin 256)
  | dmaStart (c : Fin 16) (a : Acc)
  | dmaStop (c : Fin 16) (a : Acc)
  | dmaClr (c : Fin 16) (a : Acc)
  | dmaBurstIssue (m : Mem)
  | intPresent (ack : Nat)
  | vectorAccept (t : Fin 16)
  | intClaim (t : Fin 16) (a : Acc)
  | intComplete (t : Fin 16) (v : Word) (a : Acc)
  | intPendWrite (n : Fin 8) (v : Word) (a : Acc)
  | intGctlWrite (v : Word) (a : Acc) (ack : Nat)
  | modHoldoffExpiry (g : Fin 32)
  | tgtIdleChange (t : Fin 16) (up : Bool)
  | sporeDeliver
  | lutFire (t : Fin 16)
  | spiInEdge (n : Fin 4)
  | safeInEdge (n : Fin 4) (up : Bool)
  | sprSwtrig (v : Word) (a : Acc)
  | sprChWrite (c : Fin 48) (v : Word) (a : Acc)
  | sprLutWrite (t : Fin 16) (v : Word) (a : Acc)
  | loopWindowEnd
  | ledgerSwap
  | lgSnap (v : Word) (a : Acc)
  | ledgerExportEnd
  | capIntervalBoundary
  | lgTimeWrite (v : Word) (a : Acc)
  | scrubRead (r : Fin 12) (m : Mem) (diff : Nat) (ctl : Bool)
  | lapAlarm
  | mpFillGo (v : Word) (a : Acc)
  | mpFillEnd
  | mpLogpop (a : Acc)
  | mpUelogRearm (a : Acc)
  | sensorReading (rs : List Reading)
  | thermalLogProgrammed (ok : Bool)
  | thermalTripTimeout
  | thReinst (hi : Bool) (v : Word) (a : Acc)
  | thPolWrite (v : Word) (a : Acc)
  | phyIdleSleep (c : Fin 32)
  | phyWakeDone (c : Fin 32)
  | pmNapRequest (a : Acc)
  | pmHibernateRequest (a : Acc)
  | pmCancel (a : Acc)
  | powerStateEntry
  | pmEntryTimeout
  | wakeInEdge
  | wakeCompleted (us : Nat) (loss : List RetLoss)
  | supplyWarning
  | porstNAssert
  | srstNAssert
  | resetReleased (e : BootEnv)
  | bootPfailWaitEnd (e : BootEnv)
  | bootEnumEnded (ms : Nat)
  | thermalLogEraseEnd
  | commit (v : Word) (a : Acc)
  | commitApplied (g : Fin 9) (n : Fin 4096) (part : Fin 2)
  | updOpen (v : Word) (a : Acc)
  | updEraseEnd (ok : Bool)
  | updData (v : Word) (a : Acc)
  | updOffWrite (v : Word) (a : Acc)
  | updFlush (v : Word) (a : Acc)
  | intakeProgramEnd (ok : Bool)
  | updVerify (v : Word) (a : Acc)
  | updVerifyEnd
  | updAbort (v : Word) (a : Acc)
  | scImageActivate (a : Acc) (ck : Bool)
  | scImageConfirm (a : Acc) (ck : Bool)
  | scRecoveryEntry (a : Acc) (ck : Bool)
  | scSanitise (a : Acc) (ck : Bool)
  | sanitiseEnd
  | scFuseProgram (a : Acc) (ck : Bool)
  | scKeyRotation (a : Acc) (ck : Bool)
  | scTenantLedgerReset (a : Acc) (ck : Bool)
  | scThermalOverride (a : Acc) (ck : Bool)
  | scDieUnfence (a : Acc) (ck : Bool)
  | scRingRejoin (a : Acc) (ck : Bool)
  | scDebugUnlock (a : Acc) (ck : Bool)
  | scLockoutEnd
  | heartbeatSend
  | heartbeatRx (f : Frame) (fcrc : Nat) (rtt : Nat)
  | epochRx (f : Frame) (fcrc : Nat)
  | joinRx (f : Frame) (fcrc : Nat)
  | driftRx (f : Frame) (fcrc : Nat)
  | fragRx (f : Frame) (fcrc : FragIn)
  | fragackRx (f : Frame) (fcrc : Nat)
  | heartbeatLoss
  | ringReturnTimeout (late : Bool)
  | driftSend
  | fragTimeout (n : Fin 64)
  | rgCtlWrite (v : Word) (a : Acc)
  | fsCleared
  | fsDieidle
  | fsExit (a : Acc)
  | fsFlush (a : Acc)
  | tstLbDepth (v : Word) (a : Acc) (bytes : Nat) (bits : Nat)
  | tstLbRun (v : Word) (a : Acc) (bytes : Nat) (bits : Nat)
  | tstRinglbEn (v : Word) (a : Acc)
  | echoHang (v : Word) (a : Acc)
  | tstInjArm (v : Word) (a : Acc)
  | tstInjLinkerr (v : Word) (a : Acc)
  | wsBypass (bits : List Bool)
  | wsExtest (bits : List Bool) (cap : List Bool)
  | wsIntest (bits : List Bool) (cap : List Bool)
  | scan (bits : List Bool)
  | mbist (res : List (Bool × List Nat))
  | fuserd
  | fusepgm (items : List Fuse)
  | observe (off : Nat) (lo : Nat) (inst : Nat)
  | deposit (off : Nat) (lo : Nat) (inst : Nat) (val : Nat)
  | registerWrite (off : Nat) (v : Word) (a : Acc) (e : PortEnv)
  | registerRead (off : Nat) (a : Acc) (m : Mem)
  | rbNFall (c : Fin 32) (g : Fin 2)
  | ringLinkClockLoss
  | ringLinkClockReturn
  | cfgclkReturn
  | echoBusyEnded (x : Fin 1024) (busy : ReadyIn)
  | sealedCommandEnd
  | suspendMinrunExpiry (c : Fin 32) (id : Nat)
deriving DecidableEq, Repr

end Sys2Proof
end

