-- ==== Sys2Proof/Machine/Fields.lean ====
section
/-!
DEFINITION. Every register field of the part: its offset, place, width, type (R17), reset value and allowed range, each
from the field table of the rule its docstring cites. `Machine/RegMap.lean` lists the registers (R492).
-/

namespace Sys2Proof.Machine

/-- The register field types of R17. -/
inductive FTy
  | rw | ro | wo | w1c | w1s | rwc | rwi
deriving DecidableEq, Repr

/-- One field: `off` the byte offset of its register, `lo` its lowest bit, `w` its width; an array of registers has a
`stride`; a register that packs several like fields holds `per` of them, `bstep` bits apart. `rst` is the reset value,
`rstv` the reset values of an array whose elements differ; a write outside [vmin, vmax] is dropped with cause 2. -/
structure Fld where
  off : Nat
  lo : Nat
  w : Nat
  ty : FTy
  stride : Nat := 0
  per : Nat := 1
  bstep : Nat := 0
  rst : Nat := 0
  rstv : List Nat := []
  vmin : Nat := 0
  vmax : Option Nat := none
deriving DecidableEq, Repr

/-- Element `k` of an array of fields. -/
def Fld.ix (f : Fld) (k : Nat) : Fld :=
  { f with
    off := f.off + f.stride * (k / f.per)
    lo := f.lo + f.bstep * (k % f.per)
    rst := f.rstv.getD k f.rst
    rstv := [] }

/-- The key of a field instance in the register file: address, place, instance (R487). -/
def Fld.key (f : Fld) (inst : Nat) : Nat := (f.off * 32 + f.lo) * 4096 + inst

/-- R76. -/
def F.ADM_CTL_EN : Fld := { off := 0xE000, lo := 0, w := 1, ty := .rw }
def F.ADM_CTL_PFMEN : Fld := { off := 0xE000, lo := 1, w := 1, ty := .rwi }
/-- R76. -/
def F.ADM_STAT_IDLE : Fld := { off := 0xE004, lo := 0, w := 1, ty := .ro, rst := 1 }
def F.ADM_STAT_STALL : Fld := { off := 0xE004, lo := 1, w := 1, ty := .ro }
def F.ADM_STAT_FLBROKEN : Fld := { off := 0xE004, lo := 2, w := 1, ty := .ro }
/-- R76. -/
def F.ADM_ERR_LASTDET : Fld := { off := 0xE008, lo := 0, w := 8, ty := .ro }
def F.ADM_ERR_LASTSQ : Fld := { off := 0xE008, lo := 8, w := 8, ty := .ro }
def F.ADM_ERR_CNT : Fld := { off := 0xE008, lo := 16, w := 16, ty := .ro }
/-- R76. -/
def F.TKT_GO_GO : Fld := { off := 0xE080, lo := 0, w := 1, ty := .wo }
/-- R76. -/
def F.TKT_STAT_BUSY : Fld := { off := 0xE084, lo := 0, w := 1, ty := .ro }
def F.TKT_STAT_DROP : Fld := { off := 0xE084, lo := 8, w := 8, ty := .ro }
/-- R76. -/
def F.THL_FREE_FREE : Fld := { off := 0xE018, lo := 0, w := 21, ty := .ro, rst := 0x100000 }
/-- R76. -/
def F.THL_RSV_RSV : Fld := { off := 0xE01C, lo := 0, w := 20, ty := .rwi, rst := 0x1000 }
/-- R76. -/
def F.THL_CECNT_CE : Fld := { off := 0xE020, lo := 0, w := 16, ty := .ro }
def F.THL_CECNT_CRCF : Fld := { off := 0xE020, lo := 16, w := 16, ty := .ro }
/-- R76. -/
def F.THL_SWEEP_START : Fld := { off := 0xE024, lo := 0, w := 1, ty := .w1s }
def F.THL_SWEEP_REBUILD : Fld := { off := 0xE024, lo := 1, w := 1, ty := .rw }
def F.THL_SWEEP_LOST : Fld := { off := 0xE024, lo := 8, w := 8, ty := .ro }
/-- R76. -/
def F.PFM_STAT_ARMED : Fld := { off := 0xE030, lo := 0, w := 1, ty := .ro }
def F.PFM_STAT_LASTHALF : Fld := { off := 0xE030, lo := 1, w := 1, ty := .ro, rst := 1 }
def F.PFM_STAT_LASTSEQ : Fld := { off := 0xE030, lo := 16, w := 16, ty := .ro }
/-- R76. -/
def F.LOT_EN : Fld := { off := 0xE100, lo := 0, w := 1, ty := .rwc, stride := 0x4, rstv := [0, 1, 1, 1, 1, 1, 1, 1, 1, 1, 1, 1, 1, 0, 0, 0] }
def F.LOT_DIRECT : Fld := { off := 0xE100, lo := 1, w := 1, ty := .rwc, stride := 0x4, rstv := [0, 1, 1, 1, 1, 1, 1, 1, 1, 1, 1, 1, 1, 0, 0, 0] }
def F.LOT_STRIPE : Fld := { off := 0xE100, lo := 2, w := 1, ty := .rwc, stride := 0x4, rstv := [0, 0, 1, 0, 1, 0, 0, 0, 0, 0, 0, 0, 0, 0, 0, 0] }
def F.LOT_CLASSES : Fld := { off := 0xE100, lo := 4, w := 4, ty := .rwc, stride := 0x4, rstv := [0, 15, 15, 15, 15, 15, 15, 15, 15, 15, 15, 15, 15, 0, 0, 0] }
/-- R76. -/
def F.SQ_CFG_EN : Fld := { off := 0xE408, lo := 0, w := 1, ty := .rw, stride := 0x10 }
def F.SQ_CFG_CRC : Fld := { off := 0xE408, lo := 1, w := 1, ty := .rwi, stride := 0x10 }
def F.SQ_CFG_SIZE : Fld := { off := 0xE408, lo := 2, w := 5, ty := .rwi, stride := 0x10, rst := 4, vmin := 4, vmax := some 16 }
def F.SQ_CFG_WEIGHT : Fld := { off := 0xE408, lo := 8, w := 4, ty := .rwi, stride := 0x10, rst := 1 }
def F.SQ_CFG_ERRCQ : Fld := { off := 0xE408, lo := 16, w := 6, ty := .rwi, stride := 0x10 }
/-- R76. -/
def F.SQ_DB_TAIL : Fld := { off := 0xE40C, lo := 0, w := 16, ty := .rw, stride := 0x10 }
def F.SQ_DB_HEAD : Fld := { off := 0xE40C, lo := 16, w := 16, ty := .ro, stride := 0x10 }
/-- R76. -/
def F.CQ_CFG_EN : Fld := { off := 0xE808, lo := 0, w := 1, ty := .rwi, stride := 0x10 }
def F.CQ_CFG_IRQALL : Fld := { off := 0xE808, lo := 1, w := 1, ty := .rwi, stride := 0x10 }
def F.CQ_CFG_SIZE : Fld := { off := 0xE808, lo := 2, w := 5, ty := .rwi, stride := 0x10, rst := 4, vmin := 4, vmax := some 16 }
def F.CQ_CFG_FERR : Fld := { off := 0xE808, lo := 7, w := 1, ty := .w1c, stride := 0x10 }
/-- R76. -/
def F.CQ_DB_HEAD : Fld := { off := 0xE80C, lo := 0, w := 16, ty := .rw, stride := 0x10 }
def F.CQ_DB_TAIL : Fld := { off := 0xE80C, lo := 16, w := 16, ty := .ro, stride := 0x10 }
/-- R76. -/
def F.TQ_CFG_EN : Fld := { off := 0xEC00, lo := 0, w := 1, ty := .rw, stride := 0x40 }
def F.TQ_CFG_TYPES : Fld := { off := 0xEC00, lo := 1, w := 15, ty := .rw, stride := 0x40 }
def F.TQ_CFG_WM : Fld := { off := 0xEC00, lo := 16, w := 6, ty := .rw, stride := 0x40, rst := 32 }
/-- R76. -/
def F.TQ_STAT_WORDS : Fld := { off := 0xEC04, lo := 0, w := 7, ty := .ro, stride := 0x40 }
def F.TQ_STAT_OPEN : Fld := { off := 0xEC04, lo := 7, w := 1, ty := .ro, stride := 0x40 }
/-- R76. -/
def F.TQ_LOST_LOST : Fld := { off := 0xEC08, lo := 0, w := 32, ty := .ro, stride := 0x40 }
/-- R76. -/
def F.TQ_POP_POP : Fld := { off := 0xEC0C, lo := 0, w := 1, ty := .wo, stride := 0x40 }
/-- R76. -/
def F.TQ_WTAG_VALID : Fld := { off := 0xEC10, lo := 0, w := 6, ty := .ro, stride := 0x40 }
def F.TQ_WTAG_SEQ : Fld := { off := 0xEC10, lo := 16, w := 16, ty := .ro, stride := 0x40 }
/-- R76. -/
def F.DQ_STAT_COUNT : Fld := { off := 0x3100, lo := 0, w := 20, ty := .ro, stride := 0x4 }
def F.DQ_STAT_BROKEN : Fld := { off := 0x3100, lo := 20, w := 1, ty := .ro, stride := 0x4 }
def F.DQ_STAT_HEADBLK : Fld := { off := 0x3100, lo := 21, w := 1, ty := .ro, stride := 0x4 }
/-- R76. -/
def F.DQ_BADCELL_CELL : Fld := { off := 0x3110, lo := 0, w := 20, ty := .ro }
/-- R111. -/
def F.SEQ_CFG_TDIV : Fld := { off := 0x1200, lo := 0, w := 3, ty := .rwc, rst := 2, vmax := some 4 }
def F.SEQ_CFG_RSTMAX : Fld := { off := 0x1200, lo := 4, w := 4, ty := .rwc, rst := 3 }
def F.SEQ_CFG_RSTGAP : Fld := { off := 0x1200, lo := 8, w := 8, ty := .rwc, rst := 8 }
def F.SEQ_CFG_TRACE : Fld := { off := 0x1200, lo := 16, w := 1, ty := .rw }
/-- R111. -/
def F.SEQ_STAT_STATE : Fld := { off := 0x1204, lo := 0, w := 3, ty := .ro }
def F.SEQ_STAT_COMMITTED : Fld := { off := 0x1204, lo := 3, w := 1, ty := .ro }
def F.SEQ_STAT_MWADDR : Fld := { off := 0x1204, lo := 4, w := 15, ty := .ro }
def F.SEQ_STAT_RIDX : Fld := { off := 0x1204, lo := 19, w := 9, ty := .ro }
/-- R111. -/
def F.SEQ_CTX_DIX : Fld := { off := 0x1208, lo := 0, w := 10, ty := .ro }
def F.SEQ_CTX_PARKED : Fld := { off := 0x1208, lo := 16, w := 7, ty := .ro }
/-- R111. -/
def F.SEQ_RSTCNT_RESTARTS : Fld := { off := 0x120C, lo := 0, w := 16, ty := .ro }
def F.SEQ_RSTCNT_LINKERR : Fld := { off := 0x120C, lo := 16, w := 16, ty := .ro }
/-- R111. -/
def F.SEQ_FAULT_TRAP : Fld := { off := 0x1210, lo := 0, w := 1, ty := .w1c }
def F.SEQ_FAULT_ILLEGAL : Fld := { off := 0x1210, lo := 1, w := 1, ty := .w1c }
def F.SEQ_FAULT_RSTLIM : Fld := { off := 0x1210, lo := 2, w := 1, ty := .w1c }
def F.SEQ_FAULT_LATERST : Fld := { off := 0x1210, lo := 3, w := 1, ty := .w1c }
/-- R111. -/
def F.SEQ_FADDR_ADDR : Fld := { off := 0x1214, lo := 0, w := 15, ty := .ro }
/-- R111. -/
def F.SEQ_TRPTR_PTR : Fld := { off := 0x1218, lo := 0, w := 10, ty := .ro }
/-- R111. -/
def F.PAT_CTL_LOAD : Fld := { off := 0xF000, lo := 0, w := 1, ty := .w1s }
def F.PAT_CTL_CLEAR : Fld := { off := 0xF000, lo := 1, w := 1, ty := .w1s }
/-- R111. -/
def F.PAT_STAT_BUSY : Fld := { off := 0xF004, lo := 0, w := 1, ty := .ro }
def F.PAT_STAT_ACTIVE : Fld := { off := 0xF004, lo := 1, w := 1, ty := .ro }
def F.PAT_STAT_PHASE : Fld := { off := 0xF004, lo := 2, w := 2, ty := .ro }
def F.PAT_STAT_ERR : Fld := { off := 0xF004, lo := 4, w := 4, ty := .ro }
def F.PAT_STAT_DROP : Fld := { off := 0xF004, lo := 8, w := 8, ty := .ro }
/-- R111. -/
def F.PAT_SRC_LO_ADDR : Fld := { off := 0xF008, lo := 6, w := 26, ty := .rwi }
/-- R111. -/
def F.PAT_SRC_HI_ADDR : Fld := { off := 0xF00C, lo := 0, w := 32, ty := .rwi }
/-- R111. -/
def F.PAT_LEN_LEN : Fld := { off := 0xF010, lo := 0, w := 14, ty := .rwi }
/-- R111. -/
def F.PAT_VER_VERSION : Fld := { off := 0xF014, lo := 0, w := 32, ty := .ro }
/-- R111. -/
def F.PAT_MINVER_MINVER : Fld := { off := 0xF018, lo := 0, w := 32, ty := .rw }
/-- R111. -/
def F.PAT_ERRPOS_POS : Fld := { off := 0xF01C, lo := 0, w := 14, ty := .ro }
/-- R111. -/
def F.RIX_SEL_INDEX : Fld := { off := 0xF020, lo := 0, w := 9, ty := .rw }
/-- R111. -/
def F.RIX_ENT_ENTRY : Fld := { off := 0xF024, lo := 0, w := 15, ty := .ro }
def F.RIX_ENT_COMMIT : Fld := { off := 0xF024, lo := 15, w := 15, ty := .ro }
def F.RIX_ENT_DEF : Fld := { off := 0xF024, lo := 31, w := 1, ty := .ro }
/-- R111. -/
def F.ST_ADDR_ADDR : Fld := { off := 0xF030, lo := 0, w := 15, ty := .rw }
def F.ST_ADDR_SPACE : Fld := { off := 0xF030, lo := 16, w := 2, ty := .rw }
/-- R111. -/
def F.ST_DATA_DATA : Fld := { off := 0xF034, lo := 0, w := 32, ty := .ro, stride := 0x4 }
/-- R111. -/
def F.MATCH_ROMADDR : Fld := { off := 0xF100, lo := 0, w := 14, ty := .ro, stride := 0x4 }
def F.MATCH_PADDR : Fld := { off := 0xF100, lo := 16, w := 10, ty := .ro, stride := 0x4 }
def F.MATCH_V : Fld := { off := 0xF100, lo := 31, w := 1, ty := .ro, stride := 0x4 }
/-- R138. -/
def F.SLM_CFG_CACHE : Fld := { off := 0x1100, lo := 0, w := 1, ty := .rwc, rst := 1 }
def F.SLM_CFG_MPL : Fld := { off := 0x1100, lo := 1, w := 1, ty := .rwc, rst := 1 }
def F.SLM_CFG_MPWIN : Fld := { off := 0x1100, lo := 2, w := 3, ty := .rwc, rst := 3 }
def F.SLM_CFG_STARVE : Fld := { off := 0x1100, lo := 8, w := 8, ty := .rwc, rst := 32 }
def F.SLM_CFG_SLICE : Fld := { off := 0x1100, lo := 16, w := 8, ty := .rwc }
def F.SLM_CFG_PREEMPT : Fld := { off := 0x1100, lo := 24, w := 4, ty := .rwc, rst := 1 }
/-- R138. -/
def F.SLM_SUSP_PMAX : Fld := { off := 0x1104, lo := 0, w := 4, ty := .rwc, rst := 4 }
def F.SLM_SUSP_EMAX : Fld := { off := 0x1104, lo := 4, w := 4, ty := .rwc, rst := 8 }
def F.SLM_SUSP_RBURST : Fld := { off := 0x1104, lo := 8, w := 4, ty := .rwc, rst := 4 }
def F.SLM_SUSP_MINRUN : Fld := { off := 0x1104, lo := 16, w := 8, ty := .rwc, rst := 5 }
/-- R138. -/
def F.SLM_QUANT_QUANT : Fld := { off := 0x1108, lo := 0, w := 16, ty := .rwc, rst := 100, vmin := 1 }
/-- R138. -/
def F.SLM_GWT_W : Fld := { off := 0x1110, lo := 0, w := 8, ty := .rwc, stride := 0x4, per := 4, bstep := 8, rst := 1 }
/-- R138. -/
def F.SLM_STAT_LASTDIX : Fld := { off := 0x1120, lo := 0, w := 10, ty := .ro }
def F.SLM_STAT_LASTCLASS : Fld := { off := 0x1120, lo := 10, w := 2, ty := .ro }
def F.SLM_STAT_LASTGRP : Fld := { off := 0x1120, lo := 12, w := 4, ty := .ro }
def F.SLM_STAT_WAITLIFT : Fld := { off := 0x1120, lo := 16, w := 1, ty := .ro }
def F.SLM_STAT_WAITWAKE : Fld := { off := 0x1120, lo := 17, w := 1, ty := .ro }
def F.SLM_STAT_SUSPOPEN : Fld := { off := 0x1120, lo := 18, w := 1, ty := .ro }
/-- R138. -/
def F.SLM_CNT_SUSPENDS : Fld := { off := 0x1124, lo := 0, w := 16, ty := .ro }
def F.SLM_CNT_LAPSED : Fld := { off := 0x1124, lo := 16, w := 8, ty := .ro }
def F.SLM_CNT_STARVED : Fld := { off := 0x1124, lo := 24, w := 8, ty := .ro }
/-- R138. -/
def F.SLM_CNT2_CAPHOLD : Fld := { off := 0x1128, lo := 0, w := 16, ty := .ro }
def F.SLM_CNT2_WITHDRAWN : Fld := { off := 0x1128, lo := 16, w := 16, ty := .ro }
/-- R138. -/
def F.SLM_DEF_DEFICIT : Fld := { off := 0x1140, lo := 0, w := 32, ty := .ro, stride := 0x4 }
/-- R138. -/
def F.LIFT_CFG_BYPASS : Fld := { off := 0x9800, lo := 0, w := 1, ty := .rwc }
def F.LIFT_CFG_AGE : Fld := { off := 0x9800, lo := 8, w := 8, ty := .rwc, rst := 20, vmin := 1 }
/-- R138. -/
def F.LIFT_BUDGET_ARRAY : Fld := { off := 0x9804, lo := 0, w := 12, ty := .rwc, rst := 0x400 }
def F.LIFT_BUDGET_IO : Fld := { off := 0x9804, lo := 16, w := 12, ty := .rwc, rst := 0x100 }
/-- R138. -/
def F.LIFT_SPACE_ARRAY : Fld := { off := 0x9808, lo := 0, w := 8, ty := .rwc, rst := 10 }
def F.LIFT_SPACE_IO : Fld := { off := 0x9808, lo := 8, w := 8, ty := .rwc, rst := 25 }
/-- R138. -/
def F.LIFT_WAKEHOLD_HOLD : Fld := { off := 0x980C, lo := 0, w := 12, ty := .rwc, rst := 200 }
/-- R138. -/
def F.LIFT_COST_ARRAY : Fld := { off := 0x9810, lo := 0, w := 8, ty := .rwc, stride := 0x4, rstv := [4, 8, 6, 0, 0, 0, 0, 8] }
def F.LIFT_COST_IO : Fld := { off := 0x9810, lo := 8, w := 8, ty := .rwc, stride := 0x4, rstv := [0, 3, 1, 3, 16, 8, 0, 3] }
def F.LIFT_COST_SPACE : Fld := { off := 0x9810, lo := 16, w := 1, ty := .rwc, stride := 0x4, rstv := [1, 1, 1, 0, 1, 1, 0, 1] }
/-- R138. -/
def F.LIFT_USE_ARRAY : Fld := { off := 0x9830, lo := 0, w := 12, ty := .ro }
def F.LIFT_USE_IO : Fld := { off := 0x9830, lo := 16, w := 12, ty := .ro }
/-- R138. -/
def F.LIFT_STAT_PEND : Fld := { off := 0x9834, lo := 0, w := 7, ty := .ro }
def F.LIFT_STAT_RESV : Fld := { off := 0x9834, lo := 7, w := 1, ty := .ro }
def F.LIFT_STAT_PGMS : Fld := { off := 0x9834, lo := 8, w := 8, ty := .ro }
def F.LIFT_STAT_PGMLIM : Fld := { off := 0x9834, lo := 16, w := 8, ty := .ro, rst := 255 }
/-- R138. -/
def F.LIFT_FLAG_OVERCOST : Fld := { off := 0x9838, lo := 0, w := 1, ty := .w1c }
def F.LIFT_FLAG_AGED : Fld := { off := 0x9838, lo := 1, w := 1, ty := .w1c }
/-- R138. -/
def F.LIFT_WAIT_MAXWAIT : Fld := { off := 0x983C, lo := 0, w := 16, ty := .ro }
def F.LIFT_WAIT_DELAYED : Fld := { off := 0x983C, lo := 16, w := 16, ty := .ro }
/-- R165. -/
def F.CP_CFG_PARITY : Fld := { off := 0xD000, lo := 0, w := 4, ty := .rwc, stride := 0x10, rst := 4, vmax := some 9 }
def F.CP_CFG_CWPP : Fld := { off := 0xD000, lo := 4, w := 3, ty := .rwc, stride := 0x10, rst := 3 }
def F.CP_CFG_RAND : Fld := { off := 0xD000, lo := 7, w := 1, ty := .rwc, stride := 0x10, rst := 1 }
def F.CP_CFG_RAW : Fld := { off := 0xD000, lo := 8, w := 1, ty := .rwc, stride := 0x10 }
def F.CP_CFG_HITER : Fld := { off := 0xD000, lo := 9, w := 5, ty := .rwc, stride := 0x10, rst := 20, vmin := 1, vmax := some 20 }
def F.CP_CFG_VALID : Fld := { off := 0xD000, lo := 15, w := 1, ty := .rwc, stride := 0x10, rstv := [1, 0, 0, 0, 0, 0, 0, 0] }
/-- R165. -/
def F.CP_RTY_RTBASE : Fld := { off := 0xD004, lo := 0, w := 8, ty := .rwc, stride := 0x10 }
def F.CP_RTY_RTYN : Fld := { off := 0xD004, lo := 8, w := 6, ty := .rwc, stride := 0x10, vmax := some 32 }
/-- R165. -/
def F.CP_SOFT_SOFTD : Fld := { off := 0xD008, lo := 0, w := 2, ty := .rwc, stride := 0x10 }
def F.CP_SOFT_SSTEP : Fld := { off := 0xD008, lo := 2, w := 5, ty := .rwc, stride := 0x10, rst := 4, vmin := 1 }
def F.CP_SOFT_SCENTRE : Fld := { off := 0xD008, lo := 8, w := 7, ty := .rwc, stride := 0x10, vmax := some 32 }
def F.CP_SOFT_SITER : Fld := { off := 0xD008, lo := 16, w := 6, ty := .rwc, stride := 0x10, rst := 30, vmin := 1, vmax := some 40 }
/-- R165. -/
def F.CP_ERAS_ERTHR : Fld := { off := 0xD00C, lo := 0, w := 13, ty := .rwc, stride := 0x10, rst := 128 }
def F.CP_ERAS_ERFILL : Fld := { off := 0xD00C, lo := 16, w := 1, ty := .rwc, stride := 0x10, rst := 1 }
/-- R165. -/
def F.RTY_SEL_STEP : Fld := { off := 0xD080, lo := 0, w := 8, ty := .rw }
/-- R165. -/
def F.RTY_DLO_D : Fld := { off := 0xD084, lo := 0, w := 8, ty := .rwc, per := 4, bstep := 8 }
/-- R165. -/
def F.RTY_DHI_D : Fld := { off := 0xD088, lo := 0, w := 8, ty := .rwc, per := 4, bstep := 8 }
/-- R165. -/
def F.SDP_CFG_CLMAX : Fld := { off := 0xD090, lo := 0, w := 4, ty := .rwc, rst := 4, vmin := 1, vmax := some 8 }
/-- R165. -/
def F.SDP_STAT_BUSY : Fld := { off := 0xD094, lo := 0, w := 4, ty := .ro }
def F.SDP_STAT_WAIT : Fld := { off := 0xD094, lo := 8, w := 8, ty := .ro }
/-- R165. -/
def F.HD_OKCNT_CNT : Fld := { off := 0xD0A0, lo := 0, w := 32, ty := .ro }
/-- R165. -/
def F.HD_FAILCNT_CNT : Fld := { off := 0xD0A4, lo := 0, w := 32, ty := .ro }
/-- R165. -/
def F.ERCNT_CNT : Fld := { off := 0xD0A8, lo := 0, w := 32, ty := .ro }
/-- R165. -/
def F.RTYCNT_CNT : Fld := { off := 0xD0AC, lo := 0, w := 32, ty := .ro }
/-- R165. -/
def F.SD_OKCNT_CNT : Fld := { off := 0xD0B0, lo := 0, w := 32, ty := .ro }
/-- R165. -/
def F.SD_FAILCNT_CNT : Fld := { off := 0xD0B4, lo := 0, w := 32, ty := .ro }
/-- R165. -/
def F.RD_UECNT_STAGE : Fld := { off := 0xD0B8, lo := 0, w := 16, ty := .ro }
def F.RD_UECNT_DECBUF : Fld := { off := 0xD0B8, lo := 16, w := 16, ty := .ro }
/-- R165. -/
def F.HDP_STAT_BUSY : Fld := { off := 0xD0C0, lo := 0, w := 4, ty := .ro }
def F.HDP_STAT_QUEUED : Fld := { off := 0xD0C0, lo := 8, w := 8, ty := .ro }
/-- R194. -/
def F.LM_CTL_EN : Fld := { off := 0xD100, lo := 0, w := 1, ty := .rw }
def F.LM_CTL_TRKEN : Fld := { off := 0xD100, lo := 1, w := 1, ty := .rw }
def F.LM_CTL_PREF : Fld := { off := 0xD100, lo := 2, w := 1, ty := .rw, rst := 1 }
/-- R194. -/
def F.LM_STAT_IDLE : Fld := { off := 0xD104, lo := 0, w := 1, ty := .ro, rst := 1 }
def F.LM_STAT_WFAIL : Fld := { off := 0xD104, lo := 1, w := 1, ty := .w1c }
def F.LM_STAT_SEEDBUSY : Fld := { off := 0xD104, lo := 2, w := 1, ty := .ro }
def F.LM_STAT_SWPBUSY : Fld := { off := 0xD104, lo := 3, w := 1, ty := .ro }
def F.LM_STAT_SWPDONE : Fld := { off := 0xD104, lo := 4, w := 1, ty := .w1c }
/-- R194. -/
def F.LM_BASE_LO_ADDR : Fld := { off := 0xD108, lo := 16, w := 16, ty := .rwi }
/-- R194. -/
def F.LM_BASE_HI_ADDR : Fld := { off := 0xD10C, lo := 0, w := 32, ty := .rwi }
/-- R194. -/
def F.LM_CHIT_CNT : Fld := { off := 0xD110, lo := 0, w := 32, ty := .ro }
/-- R194. -/
def F.LM_CMISS_CNT : Fld := { off := 0xD114, lo := 0, w := 32, ty := .ro }
/-- R194. -/
def F.LM_ERR_FETCH : Fld := { off := 0xD118, lo := 0, w := 16, ty := .ro }
def F.LM_ERR_WRITE : Fld := { off := 0xD118, lo := 16, w := 8, ty := .ro }
def F.LM_ERR_UE : Fld := { off := 0xD118, lo := 24, w := 8, ty := .ro }
/-- R194. -/
def F.LM_TRK_THR : Fld := { off := 0xD120, lo := 0, w := 16, ty := .rwc, rst := 0x200, vmin := 1 }
def F.LM_TRK_MSTEP : Fld := { off := 0xD120, lo := 16, w := 4, ty := .rwc, rst := 2, vmin := 1 }
def F.LM_TRK_PULL : Fld := { off := 0xD120, lo := 20, w := 8, ty := .rwc, rst := 8 }
/-- R194. -/
def F.LM_TRK2_WIN : Fld := { off := 0xD124, lo := 0, w := 8, ty := .rwc, rst := 64 }
def F.LM_TRK2_OMIN : Fld := { off := 0xD124, lo := 8, w := 8, ty := .rwc, rst := 192 }
def F.LM_TRK2_OMAX : Fld := { off := 0xD124, lo := 16, w := 8, ty := .rwc, rst := 63 }
/-- R194. -/
def F.LM_TCNT_MOVES : Fld := { off := 0xD128, lo := 0, w := 16, ty := .ro }
def F.LM_TCNT_PULLS : Fld := { off := 0xD128, lo := 16, w := 16, ty := .ro }
/-- R194. -/
def F.LM_TCNT2_STALE : Fld := { off := 0xD12C, lo := 0, w := 16, ty := .ro }
def F.LM_TCNT2_EVICT : Fld := { off := 0xD12C, lo := 16, w := 16, ty := .ro }
/-- R194. -/
def F.LM_TCNT3_DROP : Fld := { off := 0xD130, lo := 0, w := 16, ty := .ro }
def F.LM_TCNT3_QUIET : Fld := { off := 0xD130, lo := 16, w := 16, ty := .ro }
/-- R194. -/
def F.LM_ZONET0_ZB1 : Fld := { off := 0xD140, lo := 0, w := 14, ty := .rwc, rst := 64 }
def F.LM_ZONET0_ZB2 : Fld := { off := 0xD140, lo := 16, w := 14, ty := .rwc, rst := 0x100 }
/-- R194. -/
def F.LM_ZONET1_ZB3 : Fld := { off := 0xD144, lo := 0, w := 14, ty := .rwc, rst := 0x1C0 }
/-- R194. -/
def F.LM_ZONEQ_ZB : Fld := { off := 0xD148, lo := 0, w := 14, ty := .rwc, rst := 0x100 }
/-- R194. -/
def F.LM_LVLT_T0 : Fld := { off := 0xD14C, lo := 0, w := 7, ty := .rwc, rst := 17 }
def F.LM_LVLT_T1 : Fld := { off := 0xD14C, lo := 8, w := 7, ty := .rwc, rst := 42 }
def F.LM_LVLT_T2 : Fld := { off := 0xD14C, lo := 16, w := 7, ty := .rwc, rst := 68 }
/-- R194. -/
def F.LM_LVLQ0_T0 : Fld := { off := 0xD150, lo := 0, w := 15, ty := .rwc, rst := 0x541 }
def F.LM_LVLQ0_T1 : Fld := { off := 0xD150, lo := 16, w := 15, ty := .rwc, rst := 0x822 }
/-- R194. -/
def F.LM_LVLQ1_T2 : Fld := { off := 0xD154, lo := 0, w := 15, ty := .rwc, rst := 0x2094 }
def F.LM_LVLQ1_T3 : Fld := { off := 0xD154, lo := 16, w := 15, ty := .rwc, rst := 0x5208 }
/-- R194. -/
def F.LM_SCMD_GO : Fld := { off := 0xD160, lo := 0, w := 1, ty := .w1s }
def F.LM_SCMD_BLOCK : Fld := { off := 0xD160, lo := 1, w := 1, ty := .rw }
def F.LM_SCMD_CONF : Fld := { off := 0xD160, lo := 8, w := 4, ty := .rw }
def F.LM_SCMD_DROP : Fld := { off := 0xD160, lo := 16, w := 8, ty := .ro }
/-- R194. -/
def F.LM_SADDR_DIX : Fld := { off := 0xD164, lo := 0, w := 10, ty := .rw }
def F.LM_SADDR_BLOCK : Fld := { off := 0xD164, lo := 10, w := 13, ty := .rw }
def F.LM_SADDR_ZONE : Fld := { off := 0xD164, lo := 23, w := 2, ty := .rw }
/-- R194. -/
def F.LM_SOFF_O : Fld := { off := 0xD168, lo := 0, w := 8, ty := .rw, stride := 0x4, per := 4, bstep := 8 }
/-- R194. -/
def F.LM_SWP_CTL_GO : Fld := { off := 0xD180, lo := 0, w := 1, ty := .w1s }
def F.LM_SWP_CTL_STOP : Fld := { off := 0xD180, lo := 1, w := 1, ty := .w1s }
def F.LM_SWP_CTL_MODE : Fld := { off := 0xD180, lo := 2, w := 1, ty := .rwi }
def F.LM_SWP_CTL_CONFMAX : Fld := { off := 0xD180, lo := 8, w := 4, ty := .rwi, rst := 15 }
def F.LM_SWP_CTL_RATE : Fld := { off := 0xD180, lo := 16, w := 8, ty := .rwi, rst := 64, vmin := 1 }
/-- R194. -/
def F.LM_SWP_DIX_FIRST : Fld := { off := 0xD184, lo := 0, w := 10, ty := .rwi }
def F.LM_SWP_DIX_LAST : Fld := { off := 0xD184, lo := 16, w := 10, ty := .rwi, rst := 0x3FF }
/-- R194. -/
def F.LM_SWP_BLK_FIRST : Fld := { off := 0xD188, lo := 0, w := 13, ty := .rwi }
def F.LM_SWP_BLK_LAST : Fld := { off := 0xD188, lo := 16, w := 13, ty := .rwi, rst := 0x1FFF }
/-- R194. -/
def F.LM_SWP_POS_DIX : Fld := { off := 0xD18C, lo := 0, w := 10, ty := .ro }
def F.LM_SWP_POS_BLOCK : Fld := { off := 0xD18C, lo := 10, w := 13, ty := .ro }
/-- R194. -/
def F.LM_SDV_V : Fld := { off := 0xD190, lo := 0, w := 8, ty := .rwi, stride := 0x4, per := 4, bstep := 8 }
/-- R194. -/
def F.LM_DIE_MODE : Fld := { off := 0x3200, lo := 0, w := 1, ty := .rwi }
def F.LM_DIE_TRK : Fld := { off := 0x3200, lo := 1, w := 1, ty := .rw, rst := 1 }
/-- R194. -/
def F.LM_SUM_MOVUP : Fld := { off := 0x3204, lo := 0, w := 16, ty := .ro }
def F.LM_SUM_MOVDN : Fld := { off := 0x3204, lo := 16, w := 16, ty := .ro }
/-- R222. -/
def F.WR_CFG_HOLD : Fld := { off := 0x1300, lo := 0, w := 1, ty := .rwc, rst := 1 }
def F.WR_CFG_PPSTAT : Fld := { off := 0x1300, lo := 1, w := 1, ty := .rwc, rst := 1 }
/-- R222. -/
def F.WR_STAT_HELD : Fld := { off := 0x1304, lo := 0, w := 4, ty := .ro }
/-- R222. -/
def F.WR_HOLD_DIX : Fld := { off := 0x1308, lo := 0, w := 10, ty := .ro, stride := 0x4 }
def F.WR_HOLD_CPROF : Fld := { off := 0x1308, lo := 10, w := 3, ty := .ro, stride := 0x4 }
def F.WR_HOLD_PLANES : Fld := { off := 0x1308, lo := 13, w := 8, ty := .ro, stride := 0x4 }
def F.WR_HOLD_CWCNT : Fld := { off := 0x1308, lo := 21, w := 8, ty := .ro, stride := 0x4 }
def F.WR_HOLD_V : Fld := { off := 0x1308, lo := 31, w := 1, ty := .ro, stride := 0x4 }
/-- R222. -/
def F.WR_HOLDREL_REL : Fld := { off := 0x1318, lo := 0, w := 4, ty := .wo }
/-- R222. -/
def F.WR_CNT_PFAIL : Fld := { off := 0x131C, lo := 0, w := 16, ty := .ro }
def F.WR_CNT_EFAIL : Fld := { off := 0x131C, lo := 16, w := 16, ty := .ro }
/-- R222. -/
def F.PFM_WAIT_MAX : Fld := { off := 0xE034, lo := 0, w := 12, ty := .rw }
def F.PFM_WAIT_LAST : Fld := { off := 0xE034, lo := 16, w := 16, ty := .ro }
/-- R222. -/
def F.ACC_SEL_ACC : Fld := { off := 0xE200, lo := 0, w := 6, ty := .rw }
/-- R222. -/
def F.ACC_CFG_CPROF : Fld := { off := 0xE204, lo := 0, w := 3, ty := .rwi }
def F.ACC_CFG_CWN : Fld := { off := 0xE204, lo := 3, w := 4, ty := .rwi, rst := 1, vmin := 1, vmax := some 14 }
def F.ACC_CFG_RING : Fld := { off := 0xE204, lo := 7, w := 1, ty := .rwi }
/-- R222. -/
def F.ACC_PDST_LO_ADDR : Fld := { off := 0xE208, lo := 6, w := 26, ty := .rwi }
/-- R222. -/
def F.ACC_PDST_HI_ADDR : Fld := { off := 0xE20C, lo := 0, w := 32, ty := .rwi }
/-- R222. -/
def F.ACC_SPILL_LO_ADDR : Fld := { off := 0xE238, lo := 6, w := 26, ty := .rwi }
/-- R222. -/
def F.ACC_SPILL_HI_ADDR : Fld := { off := 0xE23C, lo := 0, w := 32, ty := .rwi }
/-- R222. -/
def F.ACC_CMD_CMD : Fld := { off := 0xE210, lo := 0, w := 3, ty := .wo }
/-- R222. -/
def F.ACC_STAT_STATE : Fld := { off := 0xE214, lo := 0, w := 3, ty := .ro }
def F.ACC_STAT_UE : Fld := { off := 0xE214, lo := 3, w := 1, ty := .ro }
def F.ACC_STAT_EMITERR : Fld := { off := 0xE214, lo := 4, w := 1, ty := .ro }
def F.ACC_STAT_MOVERR : Fld := { off := 0xE214, lo := 5, w := 1, ty := .ro }
def F.ACC_STAT_CMDERR : Fld := { off := 0xE214, lo := 6, w := 1, ty := .w1c }
def F.ACC_STAT_CLOSED : Fld := { off := 0xE214, lo := 7, w := 1, ty := .ro }
def F.ACC_STAT_LAST : Fld := { off := 0xE214, lo := 8, w := 6, ty := .ro }
def F.ACC_STAT_ABORTING : Fld := { off := 0xE214, lo := 14, w := 1, ty := .ro }
def F.ACC_STAT_SYNMASK : Fld := { off := 0xE214, lo := 16, w := 14, ty := .ro }
/-- R222. -/
def F.ACC_CLAIM_LO_MASK : Fld := { off := 0xE218, lo := 0, w := 32, ty := .ro }
/-- R222. -/
def F.ACC_CLAIM_HI_MASK : Fld := { off := 0xE21C, lo := 0, w := 32, ty := .ro }
/-- R222. -/
def F.ACC_TAKEN_LO_MASK : Fld := { off := 0xE220, lo := 0, w := 32, ty := .ro }
/-- R222. -/
def F.ACC_TAKEN_HI_MASK : Fld := { off := 0xE224, lo := 0, w := 32, ty := .ro }
/-- R222. -/
def F.ACC_DROP_LO_MASK : Fld := { off := 0xE228, lo := 0, w := 32, ty := .ro }
/-- R222. -/
def F.ACC_DROP_HI_MASK : Fld := { off := 0xE22C, lo := 0, w := 32, ty := .ro }
/-- R222. -/
def F.ACC_FAIL_LO_MASK : Fld := { off := 0xE230, lo := 0, w := 32, ty := .ro }
/-- R222. -/
def F.ACC_FAIL_HI_MASK : Fld := { off := 0xE234, lo := 0, w := 32, ty := .ro }
/-- R222. -/
def F.ACC_DONE_LO_DONE : Fld := { off := 0xE240, lo := 0, w := 32, ty := .w1c }
/-- R222. -/
def F.ACC_DONE_HI_DONE : Fld := { off := 0xE244, lo := 0, w := 32, ty := .w1c }
/-- R222. -/
def F.ACC_CNT_EMIT : Fld := { off := 0xE248, lo := 0, w := 16, ty := .ro }
def F.ACC_CNT_CMDDROP : Fld := { off := 0xE248, lo := 16, w := 16, ty := .ro }
/-- R241. -/
def F.TRV_CFG_EN : Fld := { off := 0x2200, lo := 0, w := 1, ty := .rw, rst := 1 }
def F.TRV_CFG_RECHECK : Fld := { off := 0x2200, lo := 1, w := 1, ty := .rwc }
def F.TRV_CFG_EMPTY : Fld := { off := 0x2200, lo := 2, w := 1, ty := .rwc }
def F.TRV_CFG_STREAMS : Fld := { off := 0x2200, lo := 4, w := 2, ty := .rwc, rst := 3 }
/-- R241. -/
def F.TRV_STAT_BUSY : Fld := { off := 0x2204, lo := 0, w := 4, ty := .ro }
/-- R241. -/
def F.TRV_STR_STATE : Fld := { off := 0x2210, lo := 0, w := 3, ty := .ro, stride := 0x4 }
def F.TRV_STR_XCL : Fld := { off := 0x2210, lo := 3, w := 1, ty := .ro, stride := 0x4 }
def F.TRV_STR_SRCDIX : Fld := { off := 0x2210, lo := 4, w := 10, ty := .ro, stride := 0x4 }
def F.TRV_STR_TGTDIX : Fld := { off := 0x2210, lo := 14, w := 10, ty := .ro, stride := 0x4 }
/-- R241. -/
def F.TRV_DONE_CNT : Fld := { off := 0x2220, lo := 0, w := 32, ty := .ro }
/-- R241. -/
def F.TRV_CW_CNT : Fld := { off := 0x2224, lo := 0, w := 32, ty := .ro }
/-- R241. -/
def F.TRV_SKIP_CNT : Fld := { off := 0x2228, lo := 0, w := 32, ty := .ro }
/-- R241. -/
def F.TRV_FAIL_SRC : Fld := { off := 0x222C, lo := 0, w := 16, ty := .ro }
def F.TRV_FAIL_TGT : Fld := { off := 0x222C, lo := 16, w := 16, ty := .ro }
/-- R241. -/
def F.TRV_RCHK_DROPPED : Fld := { off := 0x2230, lo := 0, w := 16, ty := .ro }
def F.TRV_RCHK_ERR : Fld := { off := 0x2230, lo := 16, w := 16, ty := .ro }
/-- R267. -/
def F.CH_OPCFG_RATE : Fld := { off := 0x1000, lo := 0, w := 6, ty := .rwc }
def F.CH_OPCFG_DDRV : Fld := { off := 0x1000, lo := 8, w := 2, ty := .rwc, rst := 1 }
def F.CH_OPCFG_DODT : Fld := { off := 0x1000, lo := 12, w := 3, ty := .rwc }
/-- R267. -/
def F.CH_PAD_DRV : Fld := { off := 0x1004, lo := 0, w := 2, ty := .rwc, rst := 1, vmax := some 2 }
def F.CH_PAD_ODT : Fld := { off := 0x1004, lo := 2, w := 3, ty := .rwc, vmax := some 4 }
def F.CH_PAD_KEEP : Fld := { off := 0x1004, lo := 5, w := 1, ty := .rw, rst := 1 }
def F.CH_PAD_RBPU : Fld := { off := 0x1004, lo := 6, w := 1, ty := .rw }
def F.CH_PAD_SLEW : Fld := { off := 0x1004, lo := 8, w := 2, ty := .rwc, rst := 1, vmax := some 2 }
/-- R267. -/
def F.CH_STAT_RATE : Fld := { off := 0x1008, lo := 0, w := 6, ty := .ro }
def F.CH_STAT_MAXOK : Fld := { off := 0x1008, lo := 6, w := 6, ty := .ro }
def F.CH_STAT_RATECLIP : Fld := { off := 0x1008, lo := 12, w := 1, ty := .w1c }
def F.CH_STAT_IF : Fld := { off := 0x1008, lo := 13, w := 2, ty := .ro }
def F.CH_STAT_ENUMBUSY : Fld := { off := 0x1008, lo := 15, w := 1, ty := .ro }
def F.CH_STAT_RECHG : Fld := { off := 0x1008, lo := 16, w := 1, ty := .ro }
/-- R267. -/
def F.CH_ENUM_GO : Fld := { off := 0x100C, lo := 0, w := 1, ty := .w1s }
def F.CH_ENUM_DROP : Fld := { off := 0x100C, lo := 8, w := 8, ty := .ro }
def F.CH_ENUM_DONE : Fld := { off := 0x100C, lo := 16, w := 1, ty := .w1c }
def F.CH_ENUM_ABORTED : Fld := { off := 0x100C, lo := 17, w := 1, ty := .w1c }
/-- R267. -/
def F.CH_RB_FB : Fld := { off := 0x1010, lo := 0, w := 2, ty := .ro }
def F.CH_RB_AUTOEXIT : Fld := { off := 0x1010, lo := 2, w := 1, ty := .rw, rst := 1 }
def F.CH_RB_EXIT : Fld := { off := 0x1010, lo := 3, w := 1, ty := .w1s }
def F.CH_RB_POLL : Fld := { off := 0x1010, lo := 8, w := 8, ty := .rwc, rst := 10, vmin := 1 }
def F.CH_RB_STUCK : Fld := { off := 0x1010, lo := 16, w := 8, ty := .rwc, rst := 10, vmin := 1 }
def F.CH_RB_QUIET : Fld := { off := 0x1010, lo := 24, w := 8, ty := .rwc, rst := 10, vmin := 1 }
/-- R267. -/
def F.CH_TO_TIME : Fld := { off := 0x1020, lo := 0, w := 16, ty := .rwc, stride := 0x4, rstv := [30, 1000, 5000, 1000, 10, 100, 50, 200], vmin := 1 }
/-- R267. -/
def F.CH_CNT_TIMEOUTS : Fld := { off := 0x1040, lo := 0, w := 16, ty := .ro }
def F.CH_CNT_FBENTRY : Fld := { off := 0x1040, lo := 16, w := 16, ty := .ro }
/-- R267. -/
def F.DIE_STAT_STATE : Fld := { off := 0x3000, lo := 0, w := 3, ty := .ro }
def F.DIE_STAT_CAPPED : Fld := { off := 0x3000, lo := 3, w := 1, ty := .ro }
def F.DIE_STAT_FCAUSE : Fld := { off := 0x3000, lo := 4, w := 3, ty := .ro }
def F.DIE_STAT_SPAREUSED : Fld := { off := 0x3000, lo := 7, w := 1, ty := .ro }
def F.DIE_STAT_TOCONS : Fld := { off := 0x3000, lo := 8, w := 8, ty := .ro }
/-- R267. -/
def F.DIE_CTL_FENCE : Fld := { off := 0x3004, lo := 0, w := 1, ty := .wo }
def F.DIE_CTL_ADMIT : Fld := { off := 0x3004, lo := 1, w := 1, ty := .wo }
def F.DIE_CTL_TOCLR : Fld := { off := 0x3004, lo := 2, w := 1, ty := .wo }
/-- R267. -/
def F.DIE_CFG_SPARE : Fld := { off := 0x3008, lo := 0, w := 1, ty := .rwc }
def F.DIE_CFG_AUTOFENCE : Fld := { off := 0x3008, lo := 1, w := 1, ty := .rwc, rst := 1 }
def F.DIE_CFG_TOLIM : Fld := { off := 0x3008, lo := 2, w := 4, ty := .rwc, rst := 3, vmin := 1 }
def F.DIE_CFG_RECT : Fld := { off := 0x3008, lo := 8, w := 8, ty := .rwc, rst := 10, vmin := 1 }
/-- R267. -/
def F.DIE_MAP_TGT : Fld := { off := 0x300C, lo := 0, w := 10, ty := .rwc }
def F.DIE_MAP_V : Fld := { off := 0x300C, lo := 15, w := 1, ty := .rwc }
/-- R267. -/
def F.DIE_GEOM0_NPL : Fld := { off := 0x3010, lo := 0, w := 3, ty := .ro }
def F.DIE_GEOM0_NBLK : Fld := { off := 0x3010, lo := 3, w := 13, ty := .ro }
def F.DIE_GEOM0_PPB : Fld := { off := 0x3010, lo := 16, w := 16, ty := .ro }
/-- R267. -/
def F.DIE_GEOM1_PGLEN : Fld := { off := 0x3014, lo := 0, w := 18, ty := .ro }
def F.DIE_GEOM1_CCYC : Fld := { off := 0x3014, lo := 18, w := 3, ty := .ro }
def F.DIE_GEOM1_RCYC : Fld := { off := 0x3014, lo := 21, w := 3, ty := .ro }
def F.DIE_GEOM1_PPSTAT : Fld := { off := 0x3014, lo := 24, w := 1, ty := .ro }
def F.DIE_GEOM1_SUSP : Fld := { off := 0x3014, lo := 25, w := 1, ty := .ro }
def F.DIE_GEOM1_CACHE : Fld := { off := 0x3014, lo := 26, w := 1, ty := .ro }
def F.DIE_GEOM1_XPT : Fld := { off := 0x3014, lo := 27, w := 3, ty := .ro }
/-- R267. -/
def F.DIE_FSTAT_RESP : Fld := { off := 0x301C, lo := 0, w := 16, ty := .ro }
/-- R267. -/
def F.DIEW_ERR_DIX : Fld := { off := 0x3020, lo := 0, w := 10, ty := .ro }
def F.DIEW_ERR_FAIL : Fld := { off := 0x3020, lo := 15, w := 1, ty := .w1c }
def F.DIEW_ERR_CODE : Fld := { off := 0x3020, lo := 16, w := 3, ty := .ro }
/-- R289. -/
def F.CAL_CFG_AUTO : Fld := { off := 0x1400, lo := 0, w := 1, ty := .rwc, rst := 1 }
def F.CAL_CFG_GLIDE : Fld := { off := 0x1400, lo := 1, w := 1, ty := .rwc, rst := 1 }
def F.CAL_CFG_ALLT : Fld := { off := 0x1400, lo := 2, w := 1, ty := .rwc }
def F.CAL_CFG_DTEMP : Fld := { off := 0x1400, lo := 3, w := 5, ty := .rwc, rst := 8, vmin := 1 }
def F.CAL_CFG_REFT : Fld := { off := 0x1400, lo := 8, w := 3, ty := .rwc }
def F.CAL_CFG_REFL : Fld := { off := 0x1400, lo := 11, w := 2, ty := .rwc }
def F.CAL_CFG_AMAX : Fld := { off := 0x1400, lo := 16, w := 4, ty := .rwc, rst := 4, vmin := 1 }
def F.CAL_CFG_FTIME : Fld := { off := 0x1400, lo := 20, w := 8, ty := .rwc, rst := 20, vmin := 1 }
def F.CAL_CFG_GSPACE : Fld := { off := 0x1400, lo := 28, w := 4, ty := .rwc, rst := 1, vmin := 1 }
/-- R289. -/
def F.CAL_CFG2_MINEYE : Fld := { off := 0x1404, lo := 0, w := 6, ty := .rwc, rst := 16 }
def F.CAL_CFG2_MINVM : Fld := { off := 0x1404, lo := 8, w := 4, ty := .rwc, rst := 4 }
def F.CAL_CFG2_BOFF : Fld := { off := 0x1404, lo := 12, w := 8, ty := .rwc, rst := 1, vmin := 1 }
def F.CAL_CFG2_MAXJUMP : Fld := { off := 0x1404, lo := 20, w := 4, ty := .rwc, rst := 12 }
def F.CAL_CFG2_PERIOD : Fld := { off := 0x1404, lo := 24, w := 8, ty := .rwc }
/-- R289. -/
def F.CAL_POL_POLICY : Fld := { off := 0x1408, lo := 0, w := 2, ty := .rwc }
/-- R289. -/
def F.CAL_CTL_GO : Fld := { off := 0x140C, lo := 0, w := 1, ty := .w1s }
def F.CAL_CTL_FORCE : Fld := { off := 0x140C, lo := 1, w := 1, ty := .w1s }
def F.CAL_CTL_RETRY : Fld := { off := 0x140C, lo := 2, w := 1, ty := .w1s }
/-- R289. -/
def F.CAL_STAT_STATE : Fld := { off := 0x1410, lo := 0, w := 3, ty := .ro }
def F.CAL_STAT_STALE : Fld := { off := 0x1410, lo := 3, w := 1, ty := .ro, rst := 1 }
def F.CAL_STAT_LASTERR : Fld := { off := 0x1410, lo := 4, w := 4, ty := .ro }
def F.CAL_STAT_ABORTS : Fld := { off := 0x1410, lo := 8, w := 4, ty := .ro }
def F.CAL_STAT_GLIDING : Fld := { off := 0x1410, lo := 12, w := 1, ty := .ro }
def F.CAL_STAT_SRC : Fld := { off := 0x1410, lo := 13, w := 2, ty := .ro }
/-- R289. -/
def F.CAL_REF_TEMP : Fld := { off := 0x1414, lo := 0, w := 8, ty := .rwc }
def F.CAL_REF_RATE : Fld := { off := 0x1414, lo := 8, w := 6, ty := .rwc }
/-- R289. -/
def F.CAL_EYE_EYE : Fld := { off := 0x1418, lo := 0, w := 8, ty := .ro, stride := 0x4, per := 4, bstep := 8 }
/-- R289. -/
def F.CAL_QUAL_EYEMIN : Fld := { off := 0x1420, lo := 0, w := 8, ty := .ro }
def F.CAL_QUAL_EYEBIT : Fld := { off := 0x1420, lo := 8, w := 3, ty := .ro }
def F.CAL_QUAL_VMARGIN : Fld := { off := 0x1420, lo := 12, w := 8, ty := .ro }
/-- R289. -/
def F.CAL_CNT_RUNS : Fld := { off := 0x1424, lo := 0, w := 16, ty := .ro }
def F.CAL_CNT_ABORTS : Fld := { off := 0x1424, lo := 16, w := 16, ty := .ro }
/-- R289. -/
def F.CAL_CNT2_FORCED : Fld := { off := 0x144C, lo := 0, w := 16, ty := .ro }
def F.CAL_CNT2_GSTEPS : Fld := { off := 0x144C, lo := 16, w := 16, ty := .ro }
/-- R289. -/
def F.CAL_RDLY_D : Fld := { off := 0x1430, lo := 0, w := 7, ty := .rwc, stride := 0x4, per := 4, bstep := 8 }
/-- R289. -/
def F.CAL_WDLY_D : Fld := { off := 0x143C, lo := 0, w := 7, ty := .rwc, stride := 0x4, per := 4, bstep := 8 }
/-- R289. -/
def F.CAL_STRB_RDQS : Fld := { off := 0x1438, lo := 0, w := 7, ty := .rwc }
def F.CAL_STRB_WDQS : Fld := { off := 0x1438, lo := 8, w := 7, ty := .rwc }
def F.CAL_STRB_VREF : Fld := { off := 0x1438, lo := 16, w := 7, ty := .rwc, vmax := some 100 }
/-- R289. -/
def F.CAL_DCC_RE : Fld := { off := 0x1444, lo := 0, w := 5, ty := .rwc }
def F.CAL_DCC_DQS : Fld := { off := 0x1444, lo := 8, w := 5, ty := .rwc }
/-- R289. -/
def F.CAL_IMP_PU : Fld := { off := 0x1448, lo := 0, w := 6, ty := .rwc }
def F.CAL_IMP_PD : Fld := { off := 0x1448, lo := 8, w := 6, ty := .rwc }
def F.CAL_IMP_ODT : Fld := { off := 0x1448, lo := 16, w := 6, ty := .rwc }
/-- R289. -/
def F.CAL_PAT_SEED : Fld := { off := 0x14A0, lo := 0, w := 16, ty := .rwc, rst := 0x5A3C }
/-- R289. -/
def F.PZQ_CTL_GO : Fld := { off := 0x2300, lo := 0, w := 1, ty := .w1s }
/-- R289. -/
def F.PZQ_STAT_PU : Fld := { off := 0x2304, lo := 0, w := 6, ty := .ro }
def F.PZQ_STAT_PD : Fld := { off := 0x2304, lo := 8, w := 6, ty := .ro }
def F.PZQ_STAT_BUSY : Fld := { off := 0x2304, lo := 16, w := 1, ty := .ro }
def F.PZQ_STAT_ERR : Fld := { off := 0x2304, lo := 17, w := 1, ty := .w1c }
def F.PZQ_STAT_ABORTS : Fld := { off := 0x2304, lo := 20, w := 4, ty := .ro }
def F.PZQ_STAT_GIVEUP : Fld := { off := 0x2304, lo := 24, w := 1, ty := .ro }
/-- R289. -/
def F.PZQ_CNT_PASS : Fld := { off := 0x2308, lo := 0, w := 16, ty := .ro }
def F.PZQ_CNT_FAIL : Fld := { off := 0x2308, lo := 16, w := 16, ty := .ro }
/-- R313. -/
def F.FP_CFG_TO : Fld := { off := 0x2400, lo := 0, w := 12, ty := .rwc, rst := 100, vmin := 1 }
def F.FP_CFG_RSVCTL : Fld := { off := 0x2400, lo := 16, w := 8, ty := .rwc, rst := 32 }
def F.FP_CFG_DMAMAX : Fld := { off := 0x2400, lo := 24, w := 8, ty := .rwc, rst := 64, vmin := 1 }
/-- R313. -/
def F.FP_ARB_WCTL : Fld := { off := 0x2404, lo := 0, w := 4, ty := .rwc, rst := 4, vmin := 1 }
def F.FP_ARB_WDATA : Fld := { off := 0x2404, lo := 4, w := 4, ty := .rwc, rst := 8, vmin := 1 }
def F.FP_ARB_WDMA : Fld := { off := 0x2404, lo := 8, w := 4, ty := .rwc, rst := 2, vmin := 1 }
/-- R313. -/
def F.FP_STAT_RDOUT : Fld := { off := 0x2408, lo := 0, w := 9, ty := .ro }
def F.FP_STAT_WROUT : Fld := { off := 0x2408, lo := 16, w := 9, ty := .ro }
/-- R313. -/
def F.FP_ERR_TERR : Fld := { off := 0x240C, lo := 0, w := 8, ty := .ro }
def F.FP_ERR_DERR : Fld := { off := 0x240C, lo := 8, w := 8, ty := .ro }
def F.FP_ERR_POISON : Fld := { off := 0x240C, lo := 16, w := 8, ty := .ro }
def F.FP_ERR_TIMEOUT : Fld := { off := 0x240C, lo := 24, w := 8, ty := .ro }
/-- R313. -/
def F.FP_STRAY_STRAY : Fld := { off := 0x2410, lo := 0, w := 16, ty := .ro }
def F.FP_STRAY_LATE : Fld := { off := 0x2410, lo := 16, w := 16, ty := .ro }
/-- R313. -/
def F.FP_QUAR_RDQ : Fld := { off := 0x2414, lo := 0, w := 9, ty := .ro }
def F.FP_QUAR_WRQ : Fld := { off := 0x2414, lo := 16, w := 9, ty := .ro }
/-- R313. -/
def F.FP_CTL_UNQUAR : Fld := { off := 0x2418, lo := 0, w := 1, ty := .w1s }
/-- R313. -/
def F.FP_ELOG_LO_ADDR : Fld := { off := 0x241C, lo := 0, w := 32, ty := .ro }
/-- R313. -/
def F.FP_ELOG_HI_ADDR : Fld := { off := 0x2420, lo := 0, w := 32, ty := .ro }
/-- R313. -/
def F.FP_ELOGK_KIND : Fld := { off := 0x2424, lo := 0, w := 2, ty := .ro }
def F.FP_ELOGK_WR : Fld := { off := 0x2424, lo := 2, w := 1, ty := .ro }
def F.FP_ELOGK_CODE : Fld := { off := 0x2424, lo := 3, w := 3, ty := .ro }
def F.FP_ELOGK_TAG : Fld := { off := 0x2424, lo := 8, w := 8, ty := .ro }
/-- R313. -/
def F.DMA_GCTL_EN : Fld := { off := 0x6000, lo := 0, w := 1, ty := .rw, rst := 1 }
/-- R313. -/
def F.DMA_GSTAT_BUSY : Fld := { off := 0x6004, lo := 0, w := 16, ty := .ro }
def F.DMA_GSTAT_HALT : Fld := { off := 0x6004, lo := 16, w := 16, ty := .ro }
/-- R313. -/
def F.DMA_GERR_HALTS : Fld := { off := 0x6008, lo := 0, w := 16, ty := .ro }
def F.DMA_GERR_RETRIES : Fld := { off := 0x6008, lo := 16, w := 16, ty := .ro }
/-- R313. -/
def F.DMA_SRC_LO_ADDR : Fld := { off := 0x6100, lo := 0, w := 32, ty := .rwi, stride := 0x80 }
/-- R313. -/
def F.DMA_SRC_HI_ADDR : Fld := { off := 0x6104, lo := 0, w := 32, ty := .rwi, stride := 0x80 }
/-- R313. -/
def F.DMA_DST_LO_ADDR : Fld := { off := 0x6108, lo := 0, w := 32, ty := .rwi, stride := 0x80 }
/-- R313. -/
def F.DMA_DST_HI_ADDR : Fld := { off := 0x610C, lo := 0, w := 32, ty := .rwi, stride := 0x80 }
/-- R313. -/
def F.DMA_NEXT_LO_ADDR : Fld := { off := 0x6128, lo := 6, w := 26, ty := .rwi, stride := 0x80 }
/-- R313. -/
def F.DMA_NEXT_HI_ADDR : Fld := { off := 0x612C, lo := 0, w := 32, ty := .rwi, stride := 0x80 }
/-- R313. -/
def F.DMA_ACNT_ACNT : Fld := { off := 0x6110, lo := 0, w := 24, ty := .rwi, stride := 0x80, rst := 1 }
/-- R313. -/
def F.DMA_BCCNT_BCNT : Fld := { off := 0x6114, lo := 0, w := 16, ty := .rwi, stride := 0x80, rst := 1 }
def F.DMA_BCCNT_CCNT : Fld := { off := 0x6114, lo := 16, w := 16, ty := .rwi, stride := 0x80, rst := 1 }
/-- R313. -/
def F.DMA_SSTEP1_STEP : Fld := { off := 0x6118, lo := 0, w := 32, ty := .rwi, stride := 0x80 }
/-- R313. -/
def F.DMA_DSTEP1_STEP : Fld := { off := 0x611C, lo := 0, w := 32, ty := .rwi, stride := 0x80 }
/-- R313. -/
def F.DMA_SSTEP2_STEP : Fld := { off := 0x6120, lo := 0, w := 32, ty := .rwi, stride := 0x80 }
/-- R313. -/
def F.DMA_DSTEP2_STEP : Fld := { off := 0x6124, lo := 0, w := 32, ty := .rwi, stride := 0x80 }
/-- R313. -/
def F.DMA_DCTL_HALFIRQ : Fld := { off := 0x6130, lo := 0, w := 1, ty := .rwi, stride := 0x80 }
def F.DMA_DCTL_FULLIRQ : Fld := { off := 0x6130, lo := 1, w := 1, ty := .rwi, stride := 0x80 }
def F.DMA_DCTL_DSTK : Fld := { off := 0x6130, lo := 2, w := 1, ty := .rwi, stride := 0x80 }
/-- R313. -/
def F.DMA_CFG_PORT : Fld := { off := 0x6140, lo := 0, w := 2, ty := .rwi, stride := 0x80 }
def F.DMA_CFG_HIPRI : Fld := { off := 0x6140, lo := 2, w := 1, ty := .rwi, stride := 0x80 }
def F.DMA_CFG_NS : Fld := { off := 0x6140, lo := 3, w := 1, ty := .rwi, stride := 0x80 }
def F.DMA_CFG_FCRC : Fld := { off := 0x6140, lo := 4, w := 1, ty := .rwi, stride := 0x80 }
def F.DMA_CFG_CYCLIC : Fld := { off := 0x6140, lo := 5, w := 1, ty := .rwi, stride := 0x80 }
def F.DMA_CFG_TRIG : Fld := { off := 0x6140, lo := 6, w := 1, ty := .rwi, stride := 0x80 }
def F.DMA_CFG_RETRY : Fld := { off := 0x6140, lo := 8, w := 3, ty := .rwi, stride := 0x80, rst := 3 }
def F.DMA_CFG_HOPMAX : Fld := { off := 0x6140, lo := 16, w := 16, ty := .rwi, stride := 0x80, rst := 0x1000 }
/-- R313. -/
def F.DMA_CTL_START : Fld := { off := 0x6144, lo := 0, w := 1, ty := .w1s, stride := 0x80 }
def F.DMA_CTL_STOP : Fld := { off := 0x6144, lo := 1, w := 1, ty := .w1s, stride := 0x80 }
def F.DMA_CTL_CLR : Fld := { off := 0x6144, lo := 2, w := 1, ty := .w1s, stride := 0x80 }
/-- R313. -/
def F.DMA_STAT_STATE : Fld := { off := 0x6148, lo := 0, w := 3, ty := .ro, stride := 0x80 }
def F.DMA_STAT_HALF : Fld := { off := 0x6148, lo := 3, w := 1, ty := .w1c, stride := 0x80 }
def F.DMA_STAT_FULL : Fld := { off := 0x6148, lo := 4, w := 1, ty := .w1c, stride := 0x80 }
def F.DMA_STAT_DONE : Fld := { off := 0x6148, lo := 5, w := 1, ty := .w1c, stride := 0x80 }
def F.DMA_STAT_ERR : Fld := { off := 0x6148, lo := 6, w := 1, ty := .w1c, stride := 0x80 }
def F.DMA_STAT_EKIND : Fld := { off := 0x6148, lo := 8, w := 4, ty := .ro, stride := 0x80 }
def F.DMA_STAT_DROP : Fld := { off := 0x6148, lo := 16, w := 8, ty := .ro, stride := 0x80 }
/-- R313. -/
def F.DMA_REMAIN_LO_BYTES : Fld := { off := 0x614C, lo := 0, w := 32, ty := .ro, stride := 0x80 }
/-- R313. -/
def F.DMA_REMAIN_HI_BYTES : Fld := { off := 0x6150, lo := 0, w := 32, ty := .ro, stride := 0x80 }
/-- R313. -/
def F.DMA_ERRADDR_LO_ADDR : Fld := { off := 0x6154, lo := 0, w := 32, ty := .ro, stride := 0x80 }
/-- R313. -/
def F.DMA_ERRADDR_HI_ADDR : Fld := { off := 0x6158, lo := 0, w := 32, ty := .ro, stride := 0x80 }
/-- R313. -/
def F.DMA_HOPS_HOPS : Fld := { off := 0x615C, lo := 0, w := 17, ty := .ro, stride := 0x80 }
/-- R339. -/
def F.INT_GCTL_EN : Fld := { off := 0x4000, lo := 0, w := 1, ty := .rw }
/-- R339. -/
def F.INT_GSTAT_PRES : Fld := { off := 0x4004, lo := 0, w := 16, ty := .ro }
def F.INT_GSTAT_WAKE : Fld := { off := 0x4004, lo := 16, w := 16, ty := .ro }
/-- R339. -/
def F.INT_STRAY_CNT : Fld := { off := 0x4008, lo := 0, w := 16, ty := .ro }
def F.INT_STRAY_LASTID : Fld := { off := 0x4008, lo := 16, w := 10, ty := .ro }
def F.INT_STRAY_LASTTGT : Fld := { off := 0x4008, lo := 26, w := 4, ty := .ro }
/-- R339. -/
def F.INT_MERGE_CNT : Fld := { off := 0x400C, lo := 0, w := 32, ty := .ro }
/-- R339. -/
def F.INT_PEND_P : Fld := { off := 0x4100, lo := 0, w := 32, ty := .w1s, stride := 0x4 }
/-- R339. -/
def F.INT_ACT_A : Fld := { off := 0x4120, lo := 0, w := 32, ty := .ro, stride := 0x4 }
/-- R339. -/
def F.INT_RAW_RAW : Fld := { off := 0x4140, lo := 0, w := 32, ty := .ro, stride := 0x4 }
/-- R339. -/
def F.INT_VBASE_LO_ADDR : Fld := { off := 0x4200, lo := 13, w := 19, ty := .rw, stride := 0x20 }
/-- R339. -/
def F.INT_VBASE_HI_ADDR : Fld := { off := 0x4204, lo := 0, w := 32, ty := .rw, stride := 0x20 }
/-- R339. -/
def F.INT_THR_THR : Fld := { off := 0x4208, lo := 0, w := 4, ty := .rw, stride := 0x20 }
/-- R339. -/
def F.INT_CLAIM_ID : Fld := { off := 0x420C, lo := 0, w := 10, ty := .ro, stride := 0x20, rst := 0x3FF }
/-- R339. -/
def F.INT_COMPL_ID : Fld := { off := 0x4210, lo := 0, w := 10, ty := .wo, stride := 0x20 }
/-- R339. -/
def F.INT_TSTAT_PRESID : Fld := { off := 0x4214, lo := 0, w := 10, ty := .ro, stride := 0x20, rst := 0x3FF }
def F.INT_TSTAT_IDLE : Fld := { off := 0x4214, lo := 16, w := 1, ty := .ro, stride := 0x20 }
def F.INT_TSTAT_WAKE : Fld := { off := 0x4214, lo := 17, w := 1, ty := .ro, stride := 0x20 }
/-- R339. -/
def F.INT_SPUR_SPUR : Fld := { off := 0x4218, lo := 0, w := 16, ty := .ro, stride := 0x20 }
def F.INT_SPUR_WDRAW : Fld := { off := 0x4218, lo := 16, w := 16, ty := .ro, stride := 0x20 }
/-- R339. -/
def F.INT_SRC_ROUTE : Fld := { off := 0x4400, lo := 0, w := 16, ty := .rw, stride := 0x4 }
def F.INT_SRC_PRI : Fld := { off := 0x4400, lo := 16, w := 4, ty := .rw, stride := 0x4 }
def F.INT_SRC_GRP : Fld := { off := 0x4400, lo := 20, w := 5, ty := .rw, stride := 0x4 }
def F.INT_SRC_MOD : Fld := { off := 0x4400, lo := 25, w := 1, ty := .rw, stride := 0x4 }
def F.INT_SRC_EN : Fld := { off := 0x4400, lo := 26, w := 1, ty := .rw, stride := 0x4 }
def F.INT_SRC_KIND : Fld := { off := 0x4400, lo := 27, w := 1, ty := .ro, stride := 0x4 }
/-- R339. -/
def F.MOD_CFG_HOLD : Fld := { off := 0x4800, lo := 0, w := 16, ty := .rw, stride := 0x8 }
def F.MOD_CFG_CNT : Fld := { off := 0x4800, lo := 16, w := 8, ty := .rw, stride := 0x8 }
/-- R339. -/
def F.MOD_STAT_HOLDOFF : Fld := { off := 0x4804, lo := 0, w := 1, ty := .ro, stride := 0x8 }
def F.MOD_STAT_EVENTS : Fld := { off := 0x4804, lo := 8, w := 8, ty := .ro, stride := 0x8 }
def F.MOD_STAT_REMAIN : Fld := { off := 0x4804, lo := 16, w := 16, ty := .ro, stride := 0x8 }
/-- R340. -/
def F.SPR_CTL_EN : Fld := { off := 0x5000, lo := 0, w := 1, ty := .rw, rst := 1 }
/-- R340. -/
def F.SPR_FLAG_OVR : Fld := { off := 0x5004, lo := 0, w := 1, ty := .w1c }
def F.SPR_FLAG_LOOPTRIP : Fld := { off := 0x5004, lo := 1, w := 1, ty := .w1c }
def F.SPR_FLAG_ACCERR : Fld := { off := 0x5004, lo := 2, w := 1, ty := .w1c }
def F.SPR_FLAG_SECDROP : Fld := { off := 0x5004, lo := 3, w := 1, ty := .w1c }
/-- R340. -/
def F.SPR_COINC_CNT : Fld := { off := 0x5008, lo := 0, w := 16, ty := .ro }
def F.SPR_COINC_LASTCONS : Fld := { off := 0x5008, lo := 16, w := 7, ty := .ro }
/-- R340. -/
def F.SPR_LGCFG_WIN : Fld := { off := 0x500C, lo := 0, w := 8, ty := .rw, rst := 10, vmin := 1 }
def F.SPR_LGCFG_MAX : Fld := { off := 0x500C, lo := 8, w := 16, ty := .rw, rst := 0x3E8, vmin := 1 }
/-- R340. -/
def F.SPR_SWTRIG_SW : Fld := { off := 0x5010, lo := 0, w := 2, ty := .w1s }
/-- R340. -/
def F.SPR_SAFEEN_EN : Fld := { off := 0x5014, lo := 0, w := 16, ty := .rw, rst := 0xFFFF }
/-- R340. -/
def F.SPR_SAFEST_ST : Fld := { off := 0x5018, lo := 0, w := 16, ty := .w1c }
/-- R340. -/
def F.SPR_ACCERR_CNT : Fld := { off := 0x501C, lo := 0, w := 16, ty := .ro }
def F.SPR_ACCERR_LASTREG : Fld := { off := 0x501C, lo := 16, w := 6, ty := .ro }
def F.SPR_ACCERR_LASTDOM : Fld := { off := 0x501C, lo := 22, w := 4, ty := .ro }
/-- R340. -/
def F.SPR_SECDROP_CNT : Fld := { off := 0x5020, lo := 0, w := 16, ty := .ro }
/-- R340. -/
def F.SPR_OVR_OVR : Fld := { off := 0x5030, lo := 0, w := 32, ty := .w1c, stride := 0x4 }
/-- R340. -/
def F.SPR_OUTNS_NS : Fld := { off := 0x5040, lo := 0, w := 16, ty := .rw }
/-- R340. -/
def F.SPR_CH_SRC : Fld := { off := 0x5100, lo := 0, w := 7, ty := .rw, stride := 0x4 }
def F.SPR_CH_DST : Fld := { off := 0x5100, lo := 8, w := 7, ty := .rw, stride := 0x4, vmax := some 95 }
def F.SPR_CH_EN : Fld := { off := 0x5100, lo := 15, w := 1, ty := .rw, stride := 0x4 }
def F.SPR_CH_OWNER : Fld := { off := 0x5100, lo := 16, w := 4, ty := .rw, stride := 0x4 }
def F.SPR_CH_NS : Fld := { off := 0x5100, lo := 20, w := 1, ty := .rw, stride := 0x4 }
def F.SPR_CH_LOOP : Fld := { off := 0x5100, lo := 21, w := 1, ty := .ro, stride := 0x4 }
def F.SPR_CH_TRIP : Fld := { off := 0x5100, lo := 22, w := 1, ty := .w1c, stride := 0x4 }
/-- R340. -/
def F.SPR_CNT_CARRIED : Fld := { off := 0x5200, lo := 0, w := 32, ty := .ro, stride := 0x4 }
/-- R340. -/
def F.SPR_LUT_TRUTH : Fld := { off := 0x5300, lo := 0, w := 8, ty := .rw, stride := 0x4 }
def F.SPR_LUT_FF : Fld := { off := 0x5300, lo := 8, w := 1, ty := .rw, stride := 0x4 }
def F.SPR_LUT_FILT : Fld := { off := 0x5300, lo := 9, w := 4, ty := .rw, stride := 0x4 }
def F.SPR_LUT_NS : Fld := { off := 0x5300, lo := 13, w := 1, ty := .rw, stride := 0x4 }
def F.SPR_LUT_OWNER : Fld := { off := 0x5300, lo := 14, w := 4, ty := .rw, stride := 0x4 }
def F.SPR_LUT_STICKY : Fld := { off := 0x5300, lo := 20, w := 3, ty := .ro, stride := 0x4 }
/-- R358. -/
def F.LG_CTL_EXPEN : Fld := { off := 0x7000, lo := 0, w := 1, ty := .rw }
def F.LG_CTL_SNAP : Fld := { off := 0x7000, lo := 1, w := 1, ty := .w1s }
/-- R358. -/
def F.LG_CFG_PERIOD : Fld := { off := 0x7004, lo := 0, w := 17, ty := .rwc, rst := 0x3E8, vmin := 100, vmax := some 60000 }
def F.LG_CFG_CAPINT : Fld := { off := 0x7004, lo := 24, w := 8, ty := .rwc, rst := 10, vmin := 1 }
/-- R358. -/
def F.LG_STAT_EXPBUSY : Fld := { off := 0x7008, lo := 0, w := 1, ty := .ro }
def F.LG_STAT_EXPERR : Fld := { off := 0x7008, lo := 1, w := 1, ty := .w1c }
def F.LG_STAT_RSTBUSY : Fld := { off := 0x7008, lo := 2, w := 1, ty := .ro }
def F.LG_STAT_LATE : Fld := { off := 0x7008, lo := 8, w := 8, ty := .ro }
def F.LG_STAT_SEQ : Fld := { off := 0x7008, lo := 16, w := 16, ty := .ro }
/-- R358. -/
def F.LG_TIME_LO_TIME : Fld := { off := 0x700C, lo := 0, w := 32, ty := .rw }
/-- R358. -/
def F.LG_TIME_HI_TIME : Fld := { off := 0x7010, lo := 0, w := 32, ty := .rw }
/-- R358. -/
def F.LG_EXP_LO_ADDR : Fld := { off := 0x7014, lo := 12, w := 20, ty := .rwi }
/-- R358. -/
def F.LG_EXP_HI_ADDR : Fld := { off := 0x7018, lo := 0, w := 32, ty := .rwi }
/-- R358. -/
def F.LG_ECOEF_C : Fld := { off := 0x7020, lo := 0, w := 16, ty := .rwc, stride := 0x4, per := 2, bstep := 16, rstv := [131, 103, 752, 23, 16, 0, 0, 0] }
/-- R358. -/
def F.LG_XCNT_EXPORTS : Fld := { off := 0x7030, lo := 0, w := 16, ty := .ro }
def F.LG_XCNT_FAILS : Fld := { off := 0x7030, lo := 16, w := 16, ty := .ro }
/-- R358. -/
def F.LG_SYSBUS_LO_NS : Fld := { off := 0x7038, lo := 0, w := 32, ty := .ro }
/-- R358. -/
def F.LG_SYSBUS_HI_NS : Fld := { off := 0x703C, lo := 0, w := 32, ty := .ro }
/-- R358. -/
def F.TN_CFG_EN : Fld := { off := 0x7100, lo := 0, w := 1, ty := .rwc }
def F.TN_CFG_GRP : Fld := { off := 0x7100, lo := 1, w := 4, ty := .rwc }
def F.TN_CFG_ACT : Fld := { off := 0x7100, lo := 5, w := 1, ty := .rwc }
def F.TN_CFG_SALT : Fld := { off := 0x7100, lo := 16, w := 16, ty := .rwc }
/-- R358. -/
def F.TN_CELLCAP_CAP : Fld := { off := 0x7104, lo := 0, w := 20, ty := .rwc }
/-- R358. -/
def F.TN_BUSCAP_CAP : Fld := { off := 0x7108, lo := 0, w := 32, ty := .rwc }
/-- R358. -/
def F.TN_USE_CELLS : Fld := { off := 0x710C, lo := 0, w := 20, ty := .ro }
def F.TN_USE_CAPPED : Fld := { off := 0x710C, lo := 31, w := 1, ty := .ro }
/-- R358. -/
def F.TN_CAPUSE_USE : Fld := { off := 0x7110, lo := 0, w := 32, ty := .ro }
/-- R358. -/
def F.TN_LIVE_WORD : Fld := { off := 0x7140, lo := 0, w := 32, ty := .ro, stride := 0x4 }
/-- R358. -/
def F.TN_SNAP_WORD : Fld := { off := 0x7180, lo := 0, w := 32, ty := .ro, stride := 0x4 }
/-- R375. -/
def F.MP_CFG_INIT : Fld := { off := 0x8000, lo := 0, w := 1, ty := .ro }
def F.MP_CFG_PGREP : Fld := { off := 0x8000, lo := 1, w := 1, ty := .rw, rst := 1 }
def F.MP_CFG_SCRUBEN : Fld := { off := 0x8000, lo := 2, w := 1, ty := .rw, rst := 1 }
/-- R375. -/
def F.MP_STAT_FILLBUSY : Fld := { off := 0x8004, lo := 0, w := 1, ty := .ro }
def F.MP_STAT_READY : Fld := { off := 0x8004, lo := 4, w := 12, ty := .ro }
/-- R375. -/
def F.MP_FILL_GO : Fld := { off := 0x8008, lo := 0, w := 1, ty := .w1s }
def F.MP_FILL_REGION : Fld := { off := 0x8008, lo := 4, w := 4, ty := .rw, vmax := some 11 }
def F.MP_FILL_DROP : Fld := { off := 0x8008, lo := 8, w := 8, ty := .ro }
/-- R375. -/
def F.MP_SCRUB_LAPLIM : Fld := { off := 0x800C, lo := 0, w := 16, ty := .rw, rst := 0x3E8 }
/-- R375. -/
def F.MP_LAP_LAST : Fld := { off := 0x8010, lo := 0, w := 16, ty := .ro }
def F.MP_LAP_CUR : Fld := { off := 0x8010, lo := 16, w := 16, ty := .ro }
/-- R375. -/
def F.MP_LAPCNT_CNT : Fld := { off := 0x8014, lo := 0, w := 32, ty := .ro }
/-- R375. -/
def F.MP_LOGSTAT_COUNT : Fld := { off := 0x8018, lo := 0, w := 6, ty := .ro }
def F.MP_LOGSTAT_LOST : Fld := { off := 0x8018, lo := 16, w := 16, ty := .ro }
/-- R375. -/
def F.MP_LOGPOP_POP : Fld := { off := 0x801C, lo := 0, w := 1, ty := .wo }
/-- R375. -/
def F.MP_LOGE0_REGION : Fld := { off := 0x8020, lo := 0, w := 4, ty := .ro }
def F.MP_LOGE0_WORD : Fld := { off := 0x8020, lo := 4, w := 19, ty := .ro }
def F.MP_LOGE0_KIND : Fld := { off := 0x8020, lo := 24, w := 2, ty := .ro }
def F.MP_LOGE0_REPEAT : Fld := { off := 0x8020, lo := 26, w := 6, ty := .ro }
/-- R375. -/
def F.MP_LOGE1_SYND : Fld := { off := 0x8024, lo := 0, w := 8, ty := .ro }
def F.MP_LOGE1_VALID : Fld := { off := 0x8024, lo := 8, w := 1, ty := .ro }
def F.MP_LOGE1_TIME : Fld := { off := 0x8024, lo := 9, w := 23, ty := .ro }
/-- R375. -/
def F.MP_UELOG0_REGION : Fld := { off := 0x8028, lo := 0, w := 4, ty := .ro }
def F.MP_UELOG0_WORD : Fld := { off := 0x8028, lo := 4, w := 19, ty := .ro }
def F.MP_UELOG0_KIND : Fld := { off := 0x8028, lo := 24, w := 2, ty := .ro }
/-- R375. -/
def F.MP_UELOG1_SYND : Fld := { off := 0x802C, lo := 0, w := 8, ty := .ro }
def F.MP_UELOG1_VALID : Fld := { off := 0x802C, lo := 8, w := 1, ty := .w1c }
def F.MP_UELOG1_TIME : Fld := { off := 0x802C, lo := 9, w := 23, ty := .ro }
/-- R375. -/
def F.MP_REPAIR_USED : Fld := { off := 0x8030, lo := 0, w := 9, ty := .ro }
def F.MP_REPAIR_OVF : Fld := { off := 0x8030, lo := 15, w := 1, ty := .w1c }
/-- R375. -/
def F.MP_RCNT_CE : Fld := { off := 0x8100, lo := 0, w := 16, ty := .ro, stride := 0x4 }
def F.MP_RCNT_REP : Fld := { off := 0x8100, lo := 16, w := 8, ty := .ro, stride := 0x4 }
def F.MP_RCNT_UE : Fld := { off := 0x8100, lo := 24, w := 8, ty := .ro, stride := 0x4 }
/-- R396. -/
def F.PM_CTL_REQ : Fld := { off := 0x9000, lo := 0, w := 2, ty := .rw, vmax := some 2 }
/-- R396. -/
def F.PM_CFG_PHYIDLE : Fld := { off := 0x9004, lo := 0, w := 16, ty := .rw }
def F.PM_CFG_ENTTO : Fld := { off := 0x9004, lo := 16, w := 8, ty := .rw, rst := 10 }
/-- R396. -/
def F.PM_STAT_STATE : Fld := { off := 0x9008, lo := 0, w := 3, ty := .ro }
def F.PM_STAT_BLOCK : Fld := { off := 0x9008, lo := 4, w := 4, ty := .ro }
def F.PM_STAT_PFSEEN : Fld := { off := 0x9008, lo := 8, w := 1, ty := .w1c }
def F.PM_STAT_LASTHIB : Fld := { off := 0x9008, lo := 9, w := 1, ty := .ro }
/-- R396. -/
def F.PM_CLKMON_CCLK : Fld := { off := 0x900C, lo := 0, w := 1, ty := .w1c }
def F.PM_CLKMON_LINK : Fld := { off := 0x900C, lo := 1, w := 4, ty := .w1c }
def F.PM_CLKMON_CFG : Fld := { off := 0x900C, lo := 5, w := 1, ty := .w1c }
def F.PM_CLKMON_AON : Fld := { off := 0x900C, lo := 6, w := 1, ty := .w1c }
/-- R396. -/
def F.PM_PHYSTAT_ON : Fld := { off := 0x9010, lo := 0, w := 32, ty := .ro, rst := 0xFFFFFFFF }
/-- R396. -/
def F.PM_CNT_NAPS : Fld := { off := 0x9014, lo := 0, w := 16, ty := .ro }
def F.PM_CNT_HIBS : Fld := { off := 0x9014, lo := 16, w := 16, ty := .ro }
/-- R396. -/
def F.PM_WAKE_LAST : Fld := { off := 0x9018, lo := 0, w := 16, ty := .ro }
/-- R396. -/
def F.TH_CFG_HYST : Fld := { off := 0x9100, lo := 0, w := 4, ty := .rwc, rst := 3 }
def F.TH_CFG_DWELL : Fld := { off := 0x9100, lo := 8, w := 8, ty := .rwc, rst := 10 }
/-- R396. -/
def F.TH_POL_POLICY : Fld := { off := 0x9104, lo := 0, w := 2, ty := .rwc }
/-- R396. -/
def F.TH_STAT_LEVEL : Fld := { off := 0x9108, lo := 0, w := 3, ty := .ro }
def F.TH_STAT_HOT : Fld := { off := 0x9108, lo := 3, w := 6, ty := .ro }
def F.TH_STAT_HALT : Fld := { off := 0x9108, lo := 9, w := 1, ty := .ro }
def F.TH_STAT_TRIPPED : Fld := { off := 0x9108, lo := 10, w := 1, ty := .ro }
def F.TH_STAT_OVR : Fld := { off := 0x9108, lo := 11, w := 1, ty := .ro }
def F.TH_STAT_LOGFAIL : Fld := { off := 0x9108, lo := 12, w := 1, ty := .w1c }
def F.TH_STAT_SAFEHOLD : Fld := { off := 0x9108, lo := 13, w := 1, ty := .ro }
/-- R396. -/
def F.TH_FORCE_MIN : Fld := { off := 0x910C, lo := 0, w := 3, ty := .rw }
/-- R396. -/
def F.TH_PLAUS_RATE : Fld := { off := 0x9110, lo := 0, w := 8, ty := .rwc, rst := 8, vmin := 1 }
def F.TH_PLAUS_NDEV : Fld := { off := 0x9110, lo := 8, w := 8, ty := .rwc, rst := 20, vmin := 1 }
def F.TH_PLAUS_NCNT : Fld := { off := 0x9110, lo := 16, w := 4, ty := .rwc, rst := 8 }
/-- R396. -/
def F.TH_LVL_TEMP : Fld := { off := 0x9120, lo := 0, w := 8, ty := .rwc, stride := 0x4, rstv := [0, 85, 90, 95, 100, 105, 110, 115] }
def F.TH_LVL_RCAP : Fld := { off := 0x9120, lo := 8, w := 8, ty := .rwc, stride := 0x4, rstv := [0, 0, 40, 32, 24, 16, 8, 0] }
def F.TH_LVL_PGM : Fld := { off := 0x9120, lo := 16, w := 8, ty := .rwc, stride := 0x4, rstv := [255, 96, 64, 48, 32, 16, 8, 0] }
def F.TH_LVL_DDIV : Fld := { off := 0x9120, lo := 24, w := 2, ty := .rwc, stride := 0x4, rstv := [0, 0, 0, 0, 1, 1, 2, 2], vmax := some 2 }
/-- R396. -/
def F.TH_EXCL0_X : Fld := { off := 0x9140, lo := 0, w := 32, ty := .ro }
/-- R396. -/
def F.TH_EXCL1_X : Fld := { off := 0x9144, lo := 0, w := 8, ty := .ro }
/-- R396. -/
def F.TH_REINST0_R : Fld := { off := 0x9148, lo := 0, w := 32, ty := .w1s }
/-- R396. -/
def F.TH_REINST1_R : Fld := { off := 0x914C, lo := 0, w := 8, ty := .w1s }
/-- R396. -/
def F.TH_MAX_TEMP : Fld := { off := 0x9150, lo := 0, w := 10, ty := .ro }
def F.TH_MAX_SENSOR : Fld := { off := 0x9150, lo := 16, w := 6, ty := .ro }
/-- R396. -/
def F.TH_CNT_CHANGES : Fld := { off := 0x9160, lo := 0, w := 16, ty := .ro }
def F.TH_CNT_EXCLUSIONS : Fld := { off := 0x9160, lo := 16, w := 16, ty := .ro }
/-- R396. -/
def F.TS_TEMP : Fld := { off := 0x9200, lo := 0, w := 10, ty := .ro, stride := 0x4 }
def F.TS_STATE : Fld := { off := 0x9200, lo := 10, w := 2, ty := .ro, stride := 0x4 }
def F.TS_ZLEVEL : Fld := { off := 0x9200, lo := 12, w := 3, ty := .ro, stride := 0x4 }
def F.TS_FLOOR : Fld := { off := 0x9200, lo := 15, w := 3, ty := .ro, stride := 0x4 }
def F.TS_SUBST : Fld := { off := 0x9200, lo := 18, w := 1, ty := .ro, stride := 0x4 }
def F.TS_XCODE : Fld := { off := 0x9200, lo := 20, w := 3, ty := .ro, stride := 0x4 }
/-- R415. -/
def F.COMMIT_GROUP : Fld := { off := 0x0010, lo := 0, w := 4, ty := .wo }
def F.COMMIT_ALL : Fld := { off := 0x0010, lo := 8, w := 1, ty := .wo }
/-- R415. -/
def F.COMMIT_STAT_PEND : Fld := { off := 0x0014, lo := 0, w := 9, ty := .ro }
def F.COMMIT_STAT_WAIT : Fld := { off := 0x0014, lo := 16, w := 9, ty := .ro }
def F.COMMIT_STAT_DROP : Fld := { off := 0x0014, lo := 26, w := 6, ty := .ro }
/-- R415. -/
def F.BOOT_STAT_PHASE : Fld := { off := 0xA000, lo := 0, w := 4, ty := .ro }
def F.BOOT_STAT_READY : Fld := { off := 0xA000, lo := 4, w := 1, ty := .ro }
def F.BOOT_STAT_ENUM : Fld := { off := 0xA000, lo := 5, w := 1, ty := .ro }
def F.BOOT_STAT_WARM : Fld := { off := 0xA000, lo := 6, w := 1, ty := .ro }
def F.BOOT_STAT_SCHEMA : Fld := { off := 0xA000, lo := 7, w := 1, ty := .ro }
def F.BOOT_STAT_DEFSET : Fld := { off := 0xA000, lo := 8, w := 1, ty := .ro }
def F.BOOT_STAT_DIEERR : Fld := { off := 0xA000, lo := 9, w := 1, ty := .ro }
def F.BOOT_STAT_QUAD : Fld := { off := 0xA000, lo := 10, w := 1, ty := .ro }
def F.BOOT_STAT_ERR : Fld := { off := 0xA000, lo := 12, w := 4, ty := .ro }
/-- R415. -/
def F.BOOT_TIME_TIME : Fld := { off := 0xA004, lo := 0, w := 16, ty := .ro }
def F.BOOT_TIME_ENUM : Fld := { off := 0xA004, lo := 16, w := 16, ty := .ro }
/-- R415. -/
def F.CFG_NOR_DENS : Fld := { off := 0xA008, lo := 0, w := 5, ty := .ro }
def F.CFG_NOR_QER : Fld := { off := 0xA008, lo := 5, w := 3, ty := .ro }
def F.CFG_NOR_SCKDIV : Fld := { off := 0xA008, lo := 8, w := 2, ty := .ro, rst := 3 }
/-- R415. -/
def F.CFG_SET_COPY : Fld := { off := 0xA00C, lo := 0, w := 1, ty := .ro }
def F.CFG_SET_V : Fld := { off := 0xA00C, lo := 1, w := 1, ty := .ro }
def F.CFG_SET_SCHEMA : Fld := { off := 0xA00C, lo := 16, w := 16, ty := .ro }
/-- R415. -/
def F.CFG_SKIP_SKIP : Fld := { off := 0xA010, lo := 0, w := 16, ty := .ro }
def F.CFG_SKIP_WERR : Fld := { off := 0xA010, lo := 16, w := 16, ty := .ro }
/-- R415. -/
def F.CFG_CHEN_EN : Fld := { off := 0xA014, lo := 0, w := 32, ty := .rw, rst := 0xFFFFFFFF }
/-- R415. -/
def F.CFG_LOG_NEXT : Fld := { off := 0xA018, lo := 0, w := 9, ty := .ro }
def F.CFG_LOG_ARMED : Fld := { off := 0xA018, lo := 9, w := 1, ty := .ro }
def F.CFG_LOG_PREP : Fld := { off := 0xA018, lo := 10, w := 1, ty := .ro }
def F.CFG_LOG_SEQ : Fld := { off := 0xA018, lo := 16, w := 16, ty := .ro }
/-- R436. -/
def F.UPD_CTL_TARGET : Fld := { off := 0xA100, lo := 0, w := 3, ty := .rwi, vmax := some 4 }
def F.UPD_CTL_OPEN : Fld := { off := 0xA100, lo := 8, w := 1, ty := .w1s }
def F.UPD_CTL_VERIFY : Fld := { off := 0xA100, lo := 9, w := 1, ty := .w1s }
def F.UPD_CTL_ABORT : Fld := { off := 0xA100, lo := 10, w := 1, ty := .w1s }
def F.UPD_CTL_FLUSH : Fld := { off := 0xA100, lo := 11, w := 1, ty := .w1s }
/-- R436. -/
def F.UPD_LEN_LEN : Fld := { off := 0xA104, lo := 0, w := 17, ty := .rwi }
/-- R436. -/
def F.UPD_OFF_OFF : Fld := { off := 0xA108, lo := 0, w := 17, ty := .rw }
/-- R436. -/
def F.UPD_DATA_DATA : Fld := { off := 0xA10C, lo := 0, w := 32, ty := .wo }
/-- R436. -/
def F.UPD_STAT_STATE : Fld := { off := 0xA110, lo := 0, w := 3, ty := .ro }
def F.UPD_STAT_FULL : Fld := { off := 0xA110, lo := 3, w := 1, ty := .ro }
def F.UPD_STAT_HDROK : Fld := { off := 0xA110, lo := 4, w := 1, ty := .ro }
def F.UPD_STAT_VOKA : Fld := { off := 0xA110, lo := 8, w := 1, ty := .ro }
def F.UPD_STAT_VOKB : Fld := { off := 0xA110, lo := 9, w := 1, ty := .ro }
def F.UPD_STAT_REVERTED : Fld := { off := 0xA110, lo := 10, w := 1, ty := .ro }
def F.UPD_STAT_FALLBACK : Fld := { off := 0xA110, lo := 11, w := 1, ty := .ro }
def F.UPD_STAT_SCHEMA : Fld := { off := 0xA110, lo := 12, w := 1, ty := .ro }
def F.UPD_STAT_ERR : Fld := { off := 0xA110, lo := 16, w := 4, ty := .ro }
def F.UPD_STAT_DROP : Fld := { off := 0xA110, lo := 24, w := 8, ty := .ro }
/-- R436. -/
def F.UPD_RCVD_BYTES : Fld := { off := 0xA114, lo := 0, w := 17, ty := .ro }
/-- R436. -/
def F.UPD_ERRPOS_POS : Fld := { off := 0xA118, lo := 0, w := 17, ty := .ro }
def F.UPD_ERRPOS_PCODE : Fld := { off := 0xA118, lo := 20, w := 4, ty := .ro }
/-- R436. -/
def F.UPD_BP_ACTIVE : Fld := { off := 0xA11C, lo := 0, w := 1, ty := .ro }
def F.UPD_BP_TRIAL : Fld := { off := 0xA11C, lo := 1, w := 1, ty := .ro }
def F.UPD_BP_TRIES : Fld := { off := 0xA11C, lo := 2, w := 4, ty := .ro }
def F.UPD_BP_PREV : Fld := { off := 0xA11C, lo := 6, w := 1, ty := .ro, rst := 1 }
def F.UPD_BP_COPY : Fld := { off := 0xA11C, lo := 7, w := 1, ty := .ro }
def F.UPD_BP_NONE : Fld := { off := 0xA11C, lo := 8, w := 1, ty := .ro }
def F.UPD_BP_SEQ : Fld := { off := 0xA11C, lo := 16, w := 16, ty := .ro }
/-- R436. -/
def F.UPD_VERA_VERSION : Fld := { off := 0xA120, lo := 0, w := 32, ty := .ro }
/-- R436. -/
def F.UPD_VERB_VERSION : Fld := { off := 0xA124, lo := 0, w := 32, ty := .ro }
/-- R436. -/
def F.UPD_MINVER_MINVER : Fld := { off := 0xA128, lo := 0, w := 32, ty := .ro }
/-- R436. -/
def F.UPD_SWAP_STATE : Fld := { off := 0xA12C, lo := 0, w := 3, ty := .ro }
def F.UPD_SWAP_DONE : Fld := { off := 0xA12C, lo := 4, w := 4, ty := .ro }
/-- R436. -/
def F.SC_DATA_DATA : Fld := { off := 0xA200, lo := 0, w := 32, ty := .rw, stride := 0x4 }
/-- R436. -/
def F.SC_GO_GO : Fld := { off := 0xA240, lo := 0, w := 1, ty := .wo }
/-- R436. -/
def F.SC_STAT_BUSY : Fld := { off := 0xA244, lo := 0, w := 1, ty := .ro }
def F.SC_STAT_RES : Fld := { off := 0xA244, lo := 4, w := 4, ty := .ro }
def F.SC_STAT_CMD : Fld := { off := 0xA244, lo := 8, w := 8, ty := .ro }
def F.SC_STAT_FAILS : Fld := { off := 0xA244, lo := 16, w := 4, ty := .ro }
def F.SC_STAT_LOCK : Fld := { off := 0xA244, lo := 20, w := 1, ty := .ro }
def F.SC_STAT_DROP : Fld := { off := 0xA244, lo := 24, w := 8, ty := .ro }
/-- R436. -/
def F.SC_CTR_LO_CTR : Fld := { off := 0xA248, lo := 0, w := 32, ty := .ro }
/-- R436. -/
def F.SC_CTR_HI_CTR : Fld := { off := 0xA24C, lo := 0, w := 32, ty := .ro }
/-- R436. -/
def F.SC_CKPT_LO_K : Fld := { off := 0xA250, lo := 0, w := 32, ty := .ro }
/-- R436. -/
def F.SC_CKPT_HI_K : Fld := { off := 0xA254, lo := 0, w := 32, ty := .ro }
/-- R436. -/
def F.SC_CNT_ACCEPTED : Fld := { off := 0xA258, lo := 0, w := 16, ty := .ro }
def F.SC_CNT_REJECTED : Fld := { off := 0xA258, lo := 16, w := 16, ty := .ro }
/-- R436. -/
def F.SC_KEY_HIDX : Fld := { off := 0xA25C, lo := 0, w := 2, ty := .ro }
def F.SC_KEY_SIDX : Fld := { off := 0xA25C, lo := 4, w := 2, ty := .ro }
def F.SC_KEY_KIN : Fld := { off := 0xA25C, lo := 8, w := 2, ty := .ro }
def F.SC_KEY_KV : Fld := { off := 0xA25C, lo := 10, w := 1, ty := .ro }
/-- R436. -/
def F.SAN_STAT_BUSY : Fld := { off := 0xA260, lo := 0, w := 1, ty := .ro }
def F.SAN_STAT_ABORTED : Fld := { off := 0xA260, lo := 1, w := 1, ty := .ro }
def F.SAN_STAT_DONE : Fld := { off := 0xA260, lo := 2, w := 1, ty := .w1c }
/-- R436. -/
def F.SAN_POS_DIX : Fld := { off := 0xA264, lo := 0, w := 10, ty := .ro }
def F.SAN_POS_BLOCK : Fld := { off := 0xA264, lo := 10, w := 13, ty := .ro }
/-- R436. -/
def F.SAN_CNT_ERASED : Fld := { off := 0xA268, lo := 0, w := 32, ty := .ro }
/-- R436. -/
def F.SAN_FAIL_EFAIL : Fld := { off := 0xA26C, lo := 0, w := 16, ty := .ro }
def F.SAN_FAIL_SKIPPED : Fld := { off := 0xA26C, lo := 16, w := 16, ty := .ro }
/-- R451. -/
def F.RG_CTL_EN : Fld := { off := 0xB000, lo := 0, w := 1, ty := .rw }
/-- R451. -/
def F.RG_ID_ID : Fld := { off := 0xB004, lo := 0, w := 16, ty := .rwi }
/-- R451. -/
def F.RG_CFG_HBPER : Fld := { off := 0xB008, lo := 0, w := 8, ty := .rw, rst := 10, vmin := 1 }
def F.RG_CFG_HBLOSS : Fld := { off := 0xB008, lo := 8, w := 4, ty := .rw, rst := 4, vmin := 1 }
def F.RG_CFG_FAIR : Fld := { off := 0xB008, lo := 12, w := 4, ty := .rw, rst := 8 }
def F.RG_CFG_MAXHOP : Fld := { off := 0xB008, lo := 16, w := 8, ty := .rw, rst := 64 }
def F.RG_CFG_TMASTER : Fld := { off := 0xB008, lo := 24, w := 1, ty := .rw }
/-- R451. -/
def F.RG_CFG2_BUDGET : Fld := { off := 0xB00C, lo := 0, w := 8, ty := .rw, rst := 20 }
def F.RG_CFG2_FRTO : Fld := { off := 0xB00C, lo := 8, w := 8, ty := .rw, rst := 50 }
def F.RG_CFG2_DSPER : Fld := { off := 0xB00C, lo := 16, w := 16, ty := .rw, rst := 0x258 }
/-- R451. -/
def F.RG_CFG3_HOPNS : Fld := { off := 0xB040, lo := 0, w := 10, ty := .rw, rst := 100 }
/-- R451. -/
def F.RG_STAT_STATE : Fld := { off := 0xB010, lo := 0, w := 2, ty := .ro }
def F.RG_STAT_OPEN : Fld := { off := 0xB010, lo := 2, w := 1, ty := .ro }
def F.RG_STAT_OVERBUDGET : Fld := { off := 0xB010, lo := 3, w := 1, ty := .w1c }
def F.RG_STAT_DUPID : Fld := { off := 0xB010, lo := 4, w := 1, ty := .w1c }
/-- R451. -/
def F.RG_UP_ID : Fld := { off := 0xB014, lo := 0, w := 16, ty := .ro }
/-- R451. -/
def F.RG_EPOCH_LO_EPOCH : Fld := { off := 0xB018, lo := 0, w := 32, ty := .ro }
/-- R451. -/
def F.RG_EPOCH_HI_EPOCH : Fld := { off := 0xB01C, lo := 0, w := 32, ty := .ro }
/-- R451. -/
def F.RG_DEAD_ID : Fld := { off := 0xB020, lo := 0, w := 16, ty := .ro }
def F.RG_DEAD_DECL : Fld := { off := 0xB020, lo := 16, w := 16, ty := .ro }
/-- R451. -/
def F.RG_RTT_RTT : Fld := { off := 0xB024, lo := 0, w := 16, ty := .ro }
/-- R451. -/
def F.RG_DROP_CRC : Fld := { off := 0xB028, lo := 0, w := 8, ty := .ro }
def F.RG_DROP_STALE : Fld := { off := 0xB028, lo := 8, w := 8, ty := .ro }
def F.RG_DROP_HOPS : Fld := { off := 0xB028, lo := 16, w := 8, ty := .ro }
def F.RG_DROP_LOST : Fld := { off := 0xB028, lo := 24, w := 8, ty := .ro }
/-- R451. -/
def F.RG_DBASE_LO_ADDR : Fld := { off := 0xB030, lo := 6, w := 26, ty := .rwi }
/-- R451. -/
def F.RG_DBASE_HI_ADDR : Fld := { off := 0xB034, lo := 0, w := 32, ty := .rwi }
/-- R451. -/
def F.RG_DCFG_SLOTS : Fld := { off := 0xB038, lo := 0, w := 4, ty := .rwi, rst := 15 }
def F.RG_DCFG_NEXT : Fld := { off := 0xB038, lo := 16, w := 4, ty := .ro }
/-- R451. -/
def F.ACC_RPEER_PEER : Fld := { off := 0xE24C, lo := 0, w := 16, ty := .rwi }
def F.ACC_RPEER_ROLE : Fld := { off := 0xE24C, lo := 16, w := 1, ty := .rwi }
def F.ACC_RPEER_RACC : Fld := { off := 0xE24C, lo := 17, w := 6, ty := .rwi }
def F.ACC_RPEER_RFRAG : Fld := { off := 0xE24C, lo := 24, w := 8, ty := .rwi }
/-- R451. -/
def F.ACC_RTAG_TAG : Fld := { off := 0xE250, lo := 0, w := 16, ty := .rwi }
def F.ACC_RTAG_RCVD : Fld := { off := 0xE250, lo := 16, w := 8, ty := .ro }
/-- R465. -/
def F.FS_STAT_ACTIVE : Fld := { off := 0x0020, lo := 0, w := 1, ty := .ro }
def F.FS_STAT_RESETONLY : Fld := { off := 0x0020, lo := 1, w := 1, ty := .ro }
def F.FS_STAT_CLEARED : Fld := { off := 0x0020, lo := 2, w := 1, ty := .ro }
def F.FS_STAT_DIEIDLE : Fld := { off := 0x0020, lo := 3, w := 1, ty := .ro }
def F.FS_STAT_MANIFEST : Fld := { off := 0x0020, lo := 4, w := 1, ty := .ro }
def F.FS_STAT_CAUSE : Fld := { off := 0x0020, lo := 8, w := 5, ty := .ro }
def F.FS_STAT_UNIT : Fld := { off := 0x0020, lo := 16, w := 5, ty := .ro }
def F.FS_STAT_INDEX : Fld := { off := 0x0020, lo := 24, w := 8, ty := .ro }
/-- R465. -/
def F.FS_CTL_EXIT : Fld := { off := 0x0024, lo := 0, w := 1, ty := .w1s }
def F.FS_CTL_FLUSH : Fld := { off := 0x0024, lo := 1, w := 1, ty := .w1s }
/-- R465. -/
def F.FS_CNT_ENTRIES : Fld := { off := 0x0028, lo := 0, w := 16, ty := .ro }
def F.FS_CNT_EXITS : Fld := { off := 0x0028, lo := 16, w := 16, ty := .ro }
/-- R465. -/
def F.FS_LAST_CAUSE : Fld := { off := 0x002C, lo := 0, w := 5, ty := .ro }
def F.FS_LAST_TIME : Fld := { off := 0x002C, lo := 8, w := 24, ty := .ro }
/-- R478. -/
def F.DBG_STAT_LEVEL : Fld := { off := 0xC000, lo := 0, w := 2, ty := .ro }
def F.DBG_STAT_FUSELOCK : Fld := { off := 0xC000, lo := 2, w := 1, ty := .ro }
/-- R478. -/
def F.TST_RINGLB_EN : Fld := { off := 0xC004, lo := 0, w := 1, ty := .rwi }
def F.TST_RINGLB_ERR : Fld := { off := 0xC004, lo := 8, w := 8, ty := .ro }
def F.TST_RINGLB_RTN : Fld := { off := 0xC004, lo := 16, w := 16, ty := .ro }
/-- R478. -/
def F.TST_ROM_ROMOK : Fld := { off := 0xC008, lo := 0, w := 1, ty := .ro }
/-- R478. -/
def F.TST_LBCTL_DEPTH : Fld := { off := 0xC100, lo := 0, w := 3, ty := .rwi, vmax := some 5 }
def F.TST_LBCTL_RUN : Fld := { off := 0xC100, lo := 3, w := 1, ty := .rw }
def F.TST_LBCTL_CPROF : Fld := { off := 0xC100, lo := 4, w := 3, ty := .rw }
def F.TST_LBCTL_SEED : Fld := { off := 0xC100, lo := 16, w := 16, ty := .rw, rst := 1, vmin := 1 }
/-- R478. -/
def F.TST_LBSTAT_BYTES : Fld := { off := 0xC104, lo := 0, w := 32, ty := .ro }
/-- R478. -/
def F.TST_LBERR_BITS : Fld := { off := 0xC108, lo := 0, w := 32, ty := .ro }
/-- R478. -/
def F.TST_ECHOT_TR : Fld := { off := 0xC110, lo := 0, w := 8, ty := .rw, rst := 45 }
def F.TST_ECHOT_TPROG : Fld := { off := 0xC110, lo := 8, w := 8, ty := .rw, rst := 160 }
def F.TST_ECHOT_TBERS : Fld := { off := 0xC110, lo := 16, w := 8, ty := .rw, rst := 50 }
/-- R478. -/
def F.TST_ECHOINJ_FLIPS : Fld := { off := 0xC114, lo := 0, w := 8, ty := .rw }
def F.TST_ECHOINJ_PFAILN : Fld := { off := 0xC114, lo := 8, w := 8, ty := .rw }
def F.TST_ECHOINJ_HANG : Fld := { off := 0xC114, lo := 16, w := 1, ty := .w1s }
/-- R478. -/
def F.TST_INJ_REGION : Fld := { off := 0xC200, lo := 0, w := 4, ty := .rw, vmax := some 11 }
def F.TST_INJ_DOUBLE : Fld := { off := 0xC200, lo := 4, w := 1, ty := .rw }
def F.TST_INJ_ARM : Fld := { off := 0xC200, lo := 5, w := 1, ty := .w1s }
def F.TST_INJ_LINKERR : Fld := { off := 0xC200, lo := 8, w := 1, ty := .w1s }
/-- R478. -/
def F.TST_INJADDR_WORD : Fld := { off := 0xC204, lo := 0, w := 19, ty := .rw }
/-- R485. -/
def F.CHSEL_INDEX : Fld := { off := 0x0400, lo := 0, w := 5, ty := .rw }
def F.CHSEL_BCAST : Fld := { off := 0x0400, lo := 31, w := 1, ty := .rw }
/-- R485. -/
def F.CLSEL_INDEX : Fld := { off := 0x0404, lo := 0, w := 2, ty := .rw }
def F.CLSEL_BCAST : Fld := { off := 0x0404, lo := 31, w := 1, ty := .rw }
/-- R485. -/
def F.DSEL_INDEX : Fld := { off := 0x0408, lo := 0, w := 10, ty := .rw }
def F.DSEL_BCAST : Fld := { off := 0x0408, lo := 31, w := 1, ty := .rw }
/-- R485. -/
def F.TSEL_INDEX : Fld := { off := 0x040C, lo := 0, w := 12, ty := .rw }
def F.TSEL_BCAST : Fld := { off := 0x040C, lo := 31, w := 1, ty := .rw }
/-- R491. -/
def F.ID_CODE_HWTYPE : Fld := { off := 0x0000, lo := 0, w := 16, ty := .ro, rst := 0x4832 }
def F.ID_CODE_STEP : Fld := { off := 0x0000, lo := 16, w := 8, ty := .ro, rst := 177 }
def F.ID_CODE_FAMILY : Fld := { off := 0x0000, lo := 24, w := 8, ty := .ro, rst := 70 }
/-- R491. -/
def F.ID_CFG_CHANNELS : Fld := { off := 0x0004, lo := 0, w := 8, ty := .ro, rst := 32 }
def F.ID_CFG_CLUSTERS : Fld := { off := 0x0004, lo := 8, w := 4, ty := .ro, rst := 4 }
def F.ID_CFG_HDEC : Fld := { off := 0x0004, lo := 16, w := 8, ty := .ro, rst := 40 }
def F.ID_CFG_SDEC : Fld := { off := 0x0004, lo := 24, w := 4, ty := .ro, rst := 8 }
/-- R491. -/
def F.REG_SECMASK_SEC : Fld := { off := 0x0008, lo := 0, w := 16, ty := .rw, rst := 0x1400 }
/-- R491. -/
def F.REG_WCNT_CNT : Fld := { off := 0x000C, lo := 0, w := 16, ty := .ro }
def F.REG_WCNT_INDEX : Fld := { off := 0x000C, lo := 16, w := 12, ty := .ro }
/-- R491. -/
def F.REG_WERR_WIN : Fld := { off := 0x0018, lo := 0, w := 16, ty := .w1c }
/-- R491. -/
def F.REG_WLAST_OFFSET : Fld := { off := 0x001C, lo := 2, w := 14, ty := .ro }
def F.REG_WLAST_DOM : Fld := { off := 0x001C, lo := 16, w := 4, ty := .ro }
def F.REG_WLAST_CAUSE : Fld := { off := 0x001C, lo := 20, w := 3, ty := .ro }
def F.REG_WLAST_BCAST : Fld := { off := 0x001C, lo := 23, w := 1, ty := .ro }
/-- R491. -/
def F.ID_UID_UID : Fld := { off := 0x0030, lo := 0, w := 32, ty := .ro, stride := 0x4 }
/-- R76. -/
def F.THL_BASE_LO_ADDR : Fld := { off := 0xE010, lo := 16, w := 16, ty := .rwi }
/-- R76. -/
def F.PFM_BASE_LO_ADDR : Fld := { off := 0xE028, lo := 12, w := 20, ty := .rwi }
/-- R76. -/
def F.THL_BASE_HI_ADDR : Fld := { off := 0xE014, lo := 0, w := 32, ty := .rwi }
/-- R76. -/
def F.PFM_BASE_HI_ADDR : Fld := { off := 0xE02C, lo := 0, w := 32, ty := .rwi }
/-- R76. -/
def F.SQ_BASE_LO_ADDR : Fld := { off := 0xE400, lo := 12, w := 20, ty := .rwi, stride := 0x10 }
/-- R76. -/
def F.SQ_BASE_HI_ADDR : Fld := { off := 0xE404, lo := 0, w := 32, ty := .rwi, stride := 0x10 }
/-- R76. -/
def F.CQ_BASE_LO_ADDR : Fld := { off := 0xE800, lo := 12, w := 20, ty := .rwi, stride := 0x10 }
/-- R76. -/
def F.CQ_BASE_HI_ADDR : Fld := { off := 0xE804, lo := 0, w := 32, ty := .rwi, stride := 0x10 }
/-- R76. -/
def F.TKT_DATA_DATA : Fld := { off := 0xE040, lo := 0, w := 32, ty := .rw, stride := 0x4 }
/-- R76. -/
def F.TQ_WORD0_WORD : Fld := { off := 0xEC20, lo := 0, w := 32, ty := .ro, stride := 0x40 }
/-- R76. -/
def F.TQ_WORD1_WORD : Fld := { off := 0xEC24, lo := 0, w := 32, ty := .ro, stride := 0x40 }
/-- R76. -/
def F.TQ_WORD2_WORD : Fld := { off := 0xEC28, lo := 0, w := 32, ty := .ro, stride := 0x40 }
/-- R76. -/
def F.TQ_WORD3_WORD : Fld := { off := 0xEC2C, lo := 0, w := 32, ty := .ro, stride := 0x40 }
/-- R76. -/
def F.TQ_WORD4_WORD : Fld := { off := 0xEC30, lo := 0, w := 32, ty := .ro, stride := 0x40 }
/-- R76. -/
def F.TQ_WORD5_WORD : Fld := { off := 0xEC34, lo := 0, w := 32, ty := .ro, stride := 0x40 }
/-- R76. -/
def F.TQ_WORD6_WORD : Fld := { off := 0xEC38, lo := 0, w := 32, ty := .ro, stride := 0x40 }
/-- R76. -/
def F.TQ_WORD7_WORD : Fld := { off := 0xEC3C, lo := 0, w := 32, ty := .ro, stride := 0x40 }
/-- R289. -/
def F.CAL_TRDLY_D : Fld := { off := 0x1470, lo := 0, w := 7, ty := .ro, stride := 0x4, per := 4, bstep := 8 }
/-- R289. -/
def F.CAL_TSTRB_RDQS : Fld := { off := 0x1478, lo := 0, w := 7, ty := .ro }
def F.CAL_TSTRB_WDQS : Fld := { off := 0x1478, lo := 8, w := 7, ty := .ro }
def F.CAL_TSTRB_VREF : Fld := { off := 0x1478, lo := 16, w := 7, ty := .ro }
/-- R289. -/
def F.CAL_TWDLY_D : Fld := { off := 0x147C, lo := 0, w := 7, ty := .ro, stride := 0x4, per := 4, bstep := 8 }
/-- R289. -/
def F.CAL_TDCC_RE : Fld := { off := 0x1484, lo := 0, w := 5, ty := .ro }
def F.CAL_TDCC_DQS : Fld := { off := 0x1484, lo := 8, w := 5, ty := .ro }
/-- R289. -/
def F.CAL_TIMP_PU : Fld := { off := 0x1488, lo := 0, w := 6, ty := .ro }
def F.CAL_TIMP_PD : Fld := { off := 0x1488, lo := 8, w := 6, ty := .ro }
def F.CAL_TIMP_ODT : Fld := { off := 0x1488, lo := 16, w := 6, ty := .ro }

end Sys2Proof.Machine
end

