-- ==== Sys2Proof/Machine/RegMap.lean ====
section
/-!
DEFINITION. The register index (R492): every register at its offset, with its fields.
-/

namespace Sys2Proof.Machine

/-- A row of the register index: `cnt` registers `stride` bytes apart. -/
structure RegRow where
  name : String
  off : Nat
  stride : Nat
  cnt : Nat
  flds : List Fld
deriving DecidableEq, Repr

def regRows0 : List RegRow := [
  { name := "ID_CODE", off := 0x0000, stride := 0x0, cnt := 1, flds := [F.ID_CODE_HWTYPE, F.ID_CODE_STEP, F.ID_CODE_FAMILY] },
  { name := "ID_CFG", off := 0x0004, stride := 0x0, cnt := 1, flds := [F.ID_CFG_CHANNELS, F.ID_CFG_CLUSTERS, F.ID_CFG_HDEC, F.ID_CFG_SDEC] },
  { name := "REG_SECMASK", off := 0x0008, stride := 0x0, cnt := 1, flds := [F.REG_SECMASK_SEC] },
  { name := "REG_WCNT", off := 0x000C, stride := 0x0, cnt := 1, flds := [F.REG_WCNT_CNT, F.REG_WCNT_INDEX] },
  { name := "COMMIT", off := 0x0010, stride := 0x0, cnt := 1, flds := [F.COMMIT_GROUP, F.COMMIT_ALL] },
  { name := "COMMIT_STAT", off := 0x0014, stride := 0x0, cnt := 1, flds := [F.COMMIT_STAT_PEND, F.COMMIT_STAT_WAIT, F.COMMIT_STAT_DROP] },
  { name := "REG_WERR", off := 0x0018, stride := 0x0, cnt := 1, flds := [F.REG_WERR_WIN] },
  { name := "REG_WLAST", off := 0x001C, stride := 0x0, cnt := 1, flds := [F.REG_WLAST_OFFSET, F.REG_WLAST_DOM, F.REG_WLAST_CAUSE, F.REG_WLAST_BCAST] },
  { name := "FS_STAT", off := 0x0020, stride := 0x0, cnt := 1, flds := [F.FS_STAT_ACTIVE, F.FS_STAT_RESETONLY, F.FS_STAT_CLEARED, F.FS_STAT_DIEIDLE, F.FS_STAT_MANIFEST, F.FS_STAT_CAUSE, F.FS_STAT_UNIT, F.FS_STAT_INDEX] },
  { name := "FS_CTL", off := 0x0024, stride := 0x0, cnt := 1, flds := [F.FS_CTL_EXIT, F.FS_CTL_FLUSH] },
  { name := "FS_CNT", off := 0x0028, stride := 0x0, cnt := 1, flds := [F.FS_CNT_ENTRIES, F.FS_CNT_EXITS] },
  { name := "FS_LAST", off := 0x002C, stride := 0x0, cnt := 1, flds := [F.FS_LAST_CAUSE, F.FS_LAST_TIME] },
  { name := "ID_UIDn", off := 0x0030, stride := 0x4, cnt := 4, flds := [F.ID_UID_UID] },
  { name := "CHSEL", off := 0x0400, stride := 0x0, cnt := 1, flds := [F.CHSEL_INDEX, F.CHSEL_BCAST] },
  { name := "CLSEL", off := 0x0404, stride := 0x0, cnt := 1, flds := [F.CLSEL_INDEX, F.CLSEL_BCAST] },
  { name := "DSEL", off := 0x0408, stride := 0x0, cnt := 1, flds := [F.DSEL_INDEX, F.DSEL_BCAST] },
  { name := "TSEL", off := 0x040C, stride := 0x0, cnt := 1, flds := [F.TSEL_INDEX, F.TSEL_BCAST] },
  { name := "CH_OPCFG", off := 0x1000, stride := 0x0, cnt := 1, flds := [F.CH_OPCFG_RATE, F.CH_OPCFG_DDRV, F.CH_OPCFG_DODT] },
  { name := "CH_PAD", off := 0x1004, stride := 0x0, cnt := 1, flds := [F.CH_PAD_DRV, F.CH_PAD_ODT, F.CH_PAD_KEEP, F.CH_PAD_RBPU, F.CH_PAD_SLEW] },
  { name := "CH_STAT", off := 0x1008, stride := 0x0, cnt := 1, flds := [F.CH_STAT_RATE, F.CH_STAT_MAXOK, F.CH_STAT_RATECLIP, F.CH_STAT_IF, F.CH_STAT_ENUMBUSY, F.CH_STAT_RECHG] },
  { name := "CH_ENUM", off := 0x100C, stride := 0x0, cnt := 1, flds := [F.CH_ENUM_GO, F.CH_ENUM_DROP, F.CH_ENUM_DONE, F.CH_ENUM_ABORTED] },
  { name := "CH_RB", off := 0x1010, stride := 0x0, cnt := 1, flds := [F.CH_RB_FB, F.CH_RB_AUTOEXIT, F.CH_RB_EXIT, F.CH_RB_POLL, F.CH_RB_STUCK, F.CH_RB_QUIET] },
  { name := "CH_TOk", off := 0x1020, stride := 0x4, cnt := 8, flds := [F.CH_TO_TIME] },
  { name := "CH_CNT", off := 0x1040, stride := 0x0, cnt := 1, flds := [F.CH_CNT_TIMEOUTS, F.CH_CNT_FBENTRY] },
  { name := "SLM_CFG", off := 0x1100, stride := 0x0, cnt := 1, flds := [F.SLM_CFG_CACHE, F.SLM_CFG_MPL, F.SLM_CFG_MPWIN, F.SLM_CFG_STARVE, F.SLM_CFG_SLICE, F.SLM_CFG_PREEMPT] },
  { name := "SLM_SUSP", off := 0x1104, stride := 0x0, cnt := 1, flds := [F.SLM_SUSP_PMAX, F.SLM_SUSP_EMAX, F.SLM_SUSP_RBURST, F.SLM_SUSP_MINRUN] },
  { name := "SLM_QUANT", off := 0x1108, stride := 0x0, cnt := 1, flds := [F.SLM_QUANT_QUANT] },
  { name := "SLM_GWTn", off := 0x1110, stride := 0x4, cnt := 4, flds := [F.SLM_GWT_W] },
  { name := "SLM_STAT", off := 0x1120, stride := 0x0, cnt := 1, flds := [F.SLM_STAT_LASTDIX, F.SLM_STAT_LASTCLASS, F.SLM_STAT_LASTGRP, F.SLM_STAT_WAITLIFT, F.SLM_STAT_WAITWAKE, F.SLM_STAT_SUSPOPEN] },
  { name := "SLM_CNT", off := 0x1124, stride := 0x0, cnt := 1, flds := [F.SLM_CNT_SUSPENDS, F.SLM_CNT_LAPSED, F.SLM_CNT_STARVED] },
  { name := "SLM_CNT2", off := 0x1128, stride := 0x0, cnt := 1, flds := [F.SLM_CNT2_CAPHOLD, F.SLM_CNT2_WITHDRAWN] },
  { name := "SLM_DEFg", off := 0x1140, stride := 0x4, cnt := 16, flds := [F.SLM_DEF_DEFICIT] },
  { name := "SEQ_CFG", off := 0x1200, stride := 0x0, cnt := 1, flds := [F.SEQ_CFG_TDIV, F.SEQ_CFG_RSTMAX, F.SEQ_CFG_RSTGAP, F.SEQ_CFG_TRACE] },
  { name := "SEQ_STAT", off := 0x1204, stride := 0x0, cnt := 1, flds := [F.SEQ_STAT_STATE, F.SEQ_STAT_COMMITTED, F.SEQ_STAT_MWADDR, F.SEQ_STAT_RIDX] },
  { name := "SEQ_CTX", off := 0x1208, stride := 0x0, cnt := 1, flds := [F.SEQ_CTX_DIX, F.SEQ_CTX_PARKED] },
  { name := "SEQ_RSTCNT", off := 0x120C, stride := 0x0, cnt := 1, flds := [F.SEQ_RSTCNT_RESTARTS, F.SEQ_RSTCNT_LINKERR] },
  { name := "SEQ_FAULT", off := 0x1210, stride := 0x0, cnt := 1, flds := [F.SEQ_FAULT_TRAP, F.SEQ_FAULT_ILLEGAL, F.SEQ_FAULT_RSTLIM, F.SEQ_FAULT_LATERST] },
  { name := "SEQ_FADDR", off := 0x1214, stride := 0x0, cnt := 1, flds := [F.SEQ_FADDR_ADDR] },
  { name := "SEQ_TRPTR", off := 0x1218, stride := 0x0, cnt := 1, flds := [F.SEQ_TRPTR_PTR] },
  { name := "WR_CFG", off := 0x1300, stride := 0x0, cnt := 1, flds := [F.WR_CFG_HOLD, F.WR_CFG_PPSTAT] },
  { name := "WR_STAT", off := 0x1304, stride := 0x0, cnt := 1, flds := [F.WR_STAT_HELD] },
  { name := "WR_HOLDs", off := 0x1308, stride := 0x4, cnt := 4, flds := [F.WR_HOLD_DIX, F.WR_HOLD_CPROF, F.WR_HOLD_PLANES, F.WR_HOLD_CWCNT, F.WR_HOLD_V] },
  { name := "WR_HOLDREL", off := 0x1318, stride := 0x0, cnt := 1, flds := [F.WR_HOLDREL_REL] },
  { name := "WR_CNT", off := 0x131C, stride := 0x0, cnt := 1, flds := [F.WR_CNT_PFAIL, F.WR_CNT_EFAIL] },
  { name := "CAL_CFG", off := 0x1400, stride := 0x0, cnt := 1, flds := [F.CAL_CFG_AUTO, F.CAL_CFG_GLIDE, F.CAL_CFG_ALLT, F.CAL_CFG_DTEMP, F.CAL_CFG_REFT, F.CAL_CFG_REFL, F.CAL_CFG_AMAX, F.CAL_CFG_FTIME, F.CAL_CFG_GSPACE] },
  { name := "CAL_CFG2", off := 0x1404, stride := 0x0, cnt := 1, flds := [F.CAL_CFG2_MINEYE, F.CAL_CFG2_MINVM, F.CAL_CFG2_BOFF, F.CAL_CFG2_MAXJUMP, F.CAL_CFG2_PERIOD] },
  { name := "CAL_POL", off := 0x1408, stride := 0x0, cnt := 1, flds := [F.CAL_POL_POLICY] },
  { name := "CAL_CTL", off := 0x140C, stride := 0x0, cnt := 1, flds := [F.CAL_CTL_GO, F.CAL_CTL_FORCE, F.CAL_CTL_RETRY] }
]

def regRows1 : List RegRow := [
  { name := "CAL_STAT", off := 0x1410, stride := 0x0, cnt := 1, flds := [F.CAL_STAT_STATE, F.CAL_STAT_STALE, F.CAL_STAT_LASTERR, F.CAL_STAT_ABORTS, F.CAL_STAT_GLIDING, F.CAL_STAT_SRC] },
  { name := "CAL_REF", off := 0x1414, stride := 0x0, cnt := 1, flds := [F.CAL_REF_TEMP, F.CAL_REF_RATE] },
  { name := "CAL_EYEn", off := 0x1418, stride := 0x4, cnt := 2, flds := [F.CAL_EYE_EYE] },
  { name := "CAL_QUAL", off := 0x1420, stride := 0x0, cnt := 1, flds := [F.CAL_QUAL_EYEMIN, F.CAL_QUAL_EYEBIT, F.CAL_QUAL_VMARGIN] },
  { name := "CAL_CNT", off := 0x1424, stride := 0x0, cnt := 1, flds := [F.CAL_CNT_RUNS, F.CAL_CNT_ABORTS] },
  { name := "CAL_RDLYn", off := 0x1430, stride := 0x4, cnt := 2, flds := [F.CAL_RDLY_D] },
  { name := "CAL_STRB", off := 0x1438, stride := 0x0, cnt := 1, flds := [F.CAL_STRB_RDQS, F.CAL_STRB_WDQS, F.CAL_STRB_VREF] },
  { name := "CAL_WDLYn", off := 0x143C, stride := 0x4, cnt := 2, flds := [F.CAL_WDLY_D] },
  { name := "CAL_DCC", off := 0x1444, stride := 0x0, cnt := 1, flds := [F.CAL_DCC_RE, F.CAL_DCC_DQS] },
  { name := "CAL_IMP", off := 0x1448, stride := 0x0, cnt := 1, flds := [F.CAL_IMP_PU, F.CAL_IMP_PD, F.CAL_IMP_ODT] },
  { name := "CAL_CNT2", off := 0x144C, stride := 0x0, cnt := 1, flds := [F.CAL_CNT2_FORCED, F.CAL_CNT2_GSTEPS] },
  { name := "CAL_TRDLYn", off := 0x1470, stride := 0x4, cnt := 2, flds := [F.CAL_TRDLY_D] },
  { name := "CAL_TSTRB", off := 0x1478, stride := 0x0, cnt := 1, flds := [F.CAL_TSTRB_RDQS, F.CAL_TSTRB_WDQS, F.CAL_TSTRB_VREF] },
  { name := "CAL_TWDLYn", off := 0x147C, stride := 0x4, cnt := 2, flds := [F.CAL_TWDLY_D] },
  { name := "CAL_TDCC", off := 0x1484, stride := 0x0, cnt := 1, flds := [F.CAL_TDCC_RE, F.CAL_TDCC_DQS] },
  { name := "CAL_TIMP", off := 0x1488, stride := 0x0, cnt := 1, flds := [F.CAL_TIMP_PU, F.CAL_TIMP_PD, F.CAL_TIMP_ODT] },
  { name := "CAL_PAT", off := 0x14A0, stride := 0x0, cnt := 1, flds := [F.CAL_PAT_SEED] },
  { name := "TRV_CFG", off := 0x2200, stride := 0x0, cnt := 1, flds := [F.TRV_CFG_EN, F.TRV_CFG_RECHECK, F.TRV_CFG_EMPTY, F.TRV_CFG_STREAMS] },
  { name := "TRV_STAT", off := 0x2204, stride := 0x0, cnt := 1, flds := [F.TRV_STAT_BUSY] },
  { name := "TRV_STRs", off := 0x2210, stride := 0x4, cnt := 4, flds := [F.TRV_STR_STATE, F.TRV_STR_XCL, F.TRV_STR_SRCDIX, F.TRV_STR_TGTDIX] },
  { name := "TRV_DONE", off := 0x2220, stride := 0x0, cnt := 1, flds := [F.TRV_DONE_CNT] },
  { name := "TRV_CW", off := 0x2224, stride := 0x0, cnt := 1, flds := [F.TRV_CW_CNT] },
  { name := "TRV_SKIP", off := 0x2228, stride := 0x0, cnt := 1, flds := [F.TRV_SKIP_CNT] },
  { name := "TRV_FAIL", off := 0x222C, stride := 0x0, cnt := 1, flds := [F.TRV_FAIL_SRC, F.TRV_FAIL_TGT] },
  { name := "TRV_RCHK", off := 0x2230, stride := 0x0, cnt := 1, flds := [F.TRV_RCHK_DROPPED, F.TRV_RCHK_ERR] },
  { name := "PZQ_CTL", off := 0x2300, stride := 0x0, cnt := 1, flds := [F.PZQ_CTL_GO] },
  { name := "PZQ_STAT", off := 0x2304, stride := 0x0, cnt := 1, flds := [F.PZQ_STAT_PU, F.PZQ_STAT_PD, F.PZQ_STAT_BUSY, F.PZQ_STAT_ERR, F.PZQ_STAT_ABORTS, F.PZQ_STAT_GIVEUP] },
  { name := "PZQ_CNT", off := 0x2308, stride := 0x0, cnt := 1, flds := [F.PZQ_CNT_PASS, F.PZQ_CNT_FAIL] },
  { name := "FP_CFG", off := 0x2400, stride := 0x0, cnt := 1, flds := [F.FP_CFG_TO, F.FP_CFG_RSVCTL, F.FP_CFG_DMAMAX] },
  { name := "FP_ARB", off := 0x2404, stride := 0x0, cnt := 1, flds := [F.FP_ARB_WCTL, F.FP_ARB_WDATA, F.FP_ARB_WDMA] },
  { name := "FP_STAT", off := 0x2408, stride := 0x0, cnt := 1, flds := [F.FP_STAT_RDOUT, F.FP_STAT_WROUT] },
  { name := "FP_ERR", off := 0x240C, stride := 0x0, cnt := 1, flds := [F.FP_ERR_TERR, F.FP_ERR_DERR, F.FP_ERR_POISON, F.FP_ERR_TIMEOUT] },
  { name := "FP_STRAY", off := 0x2410, stride := 0x0, cnt := 1, flds := [F.FP_STRAY_STRAY, F.FP_STRAY_LATE] },
  { name := "FP_QUAR", off := 0x2414, stride := 0x0, cnt := 1, flds := [F.FP_QUAR_RDQ, F.FP_QUAR_WRQ] },
  { name := "FP_CTL", off := 0x2418, stride := 0x0, cnt := 1, flds := [F.FP_CTL_UNQUAR] },
  { name := "FP_ELOG_LO", off := 0x241C, stride := 0x0, cnt := 1, flds := [F.FP_ELOG_LO_ADDR] },
  { name := "FP_ELOG_HI", off := 0x2420, stride := 0x0, cnt := 1, flds := [F.FP_ELOG_HI_ADDR] },
  { name := "FP_ELOGK", off := 0x2424, stride := 0x0, cnt := 1, flds := [F.FP_ELOGK_KIND, F.FP_ELOGK_WR, F.FP_ELOGK_CODE, F.FP_ELOGK_TAG] },
  { name := "DIE_STAT", off := 0x3000, stride := 0x0, cnt := 1, flds := [F.DIE_STAT_STATE, F.DIE_STAT_CAPPED, F.DIE_STAT_FCAUSE, F.DIE_STAT_SPAREUSED, F.DIE_STAT_TOCONS] },
  { name := "DIE_CTL", off := 0x3004, stride := 0x0, cnt := 1, flds := [F.DIE_CTL_FENCE, F.DIE_CTL_ADMIT, F.DIE_CTL_TOCLR] },
  { name := "DIE_CFG", off := 0x3008, stride := 0x0, cnt := 1, flds := [F.DIE_CFG_SPARE, F.DIE_CFG_AUTOFENCE, F.DIE_CFG_TOLIM, F.DIE_CFG_RECT] },
  { name := "DIE_MAP", off := 0x300C, stride := 0x0, cnt := 1, flds := [F.DIE_MAP_TGT, F.DIE_MAP_V] },
  { name := "DIE_GEOM0", off := 0x3010, stride := 0x0, cnt := 1, flds := [F.DIE_GEOM0_NPL, F.DIE_GEOM0_NBLK, F.DIE_GEOM0_PPB] },
  { name := "DIE_GEOM1", off := 0x3014, stride := 0x0, cnt := 1, flds := [F.DIE_GEOM1_PGLEN, F.DIE_GEOM1_CCYC, F.DIE_GEOM1_RCYC, F.DIE_GEOM1_PPSTAT, F.DIE_GEOM1_SUSP, F.DIE_GEOM1_CACHE, F.DIE_GEOM1_XPT] },
  { name := "DIE_FSTAT", off := 0x301C, stride := 0x0, cnt := 1, flds := [F.DIE_FSTAT_RESP] },
  { name := "DIEW_ERR", off := 0x3020, stride := 0x0, cnt := 1, flds := [F.DIEW_ERR_DIX, F.DIEW_ERR_FAIL, F.DIEW_ERR_CODE] },
  { name := "DQ_STATc", off := 0x3100, stride := 0x4, cnt := 4, flds := [F.DQ_STAT_COUNT, F.DQ_STAT_BROKEN, F.DQ_STAT_HEADBLK] },
  { name := "DQ_BADCELL", off := 0x3110, stride := 0x0, cnt := 1, flds := [F.DQ_BADCELL_CELL] }
]

def regRows2 : List RegRow := [
  { name := "LM_DIE", off := 0x3200, stride := 0x0, cnt := 1, flds := [F.LM_DIE_MODE, F.LM_DIE_TRK] },
  { name := "LM_SUM", off := 0x3204, stride := 0x0, cnt := 1, flds := [F.LM_SUM_MOVUP, F.LM_SUM_MOVDN] },
  { name := "INT_GCTL", off := 0x4000, stride := 0x0, cnt := 1, flds := [F.INT_GCTL_EN] },
  { name := "INT_GSTAT", off := 0x4004, stride := 0x0, cnt := 1, flds := [F.INT_GSTAT_PRES, F.INT_GSTAT_WAKE] },
  { name := "INT_STRAY", off := 0x4008, stride := 0x0, cnt := 1, flds := [F.INT_STRAY_CNT, F.INT_STRAY_LASTID, F.INT_STRAY_LASTTGT] },
  { name := "INT_MERGE", off := 0x400C, stride := 0x0, cnt := 1, flds := [F.INT_MERGE_CNT] },
  { name := "INT_PENDi", off := 0x4100, stride := 0x4, cnt := 8, flds := [F.INT_PEND_P] },
  { name := "INT_ACTi", off := 0x4120, stride := 0x4, cnt := 8, flds := [F.INT_ACT_A] },
  { name := "INT_RAWi", off := 0x4140, stride := 0x4, cnt := 8, flds := [F.INT_RAW_RAW] },
  { name := "INT_VBASEt_LO", off := 0x4200, stride := 0x20, cnt := 16, flds := [F.INT_VBASE_LO_ADDR] },
  { name := "INT_VBASEt_HI", off := 0x4204, stride := 0x20, cnt := 16, flds := [F.INT_VBASE_HI_ADDR] },
  { name := "INT_THRt", off := 0x4208, stride := 0x20, cnt := 16, flds := [F.INT_THR_THR] },
  { name := "INT_CLAIMt", off := 0x420C, stride := 0x20, cnt := 16, flds := [F.INT_CLAIM_ID] },
  { name := "INT_COMPLt", off := 0x4210, stride := 0x20, cnt := 16, flds := [F.INT_COMPL_ID] },
  { name := "INT_TSTATt", off := 0x4214, stride := 0x20, cnt := 16, flds := [F.INT_TSTAT_PRESID, F.INT_TSTAT_IDLE, F.INT_TSTAT_WAKE] },
  { name := "INT_SPURt", off := 0x4218, stride := 0x20, cnt := 16, flds := [F.INT_SPUR_SPUR, F.INT_SPUR_WDRAW] },
  { name := "INT_SRCs", off := 0x4400, stride := 0x4, cnt := 256, flds := [F.INT_SRC_ROUTE, F.INT_SRC_PRI, F.INT_SRC_GRP, F.INT_SRC_MOD, F.INT_SRC_EN, F.INT_SRC_KIND] },
  { name := "MODg_CFG", off := 0x4800, stride := 0x8, cnt := 32, flds := [F.MOD_CFG_HOLD, F.MOD_CFG_CNT] },
  { name := "MODg_STAT", off := 0x4804, stride := 0x8, cnt := 32, flds := [F.MOD_STAT_HOLDOFF, F.MOD_STAT_EVENTS, F.MOD_STAT_REMAIN] },
  { name := "SPR_CTL", off := 0x5000, stride := 0x0, cnt := 1, flds := [F.SPR_CTL_EN] },
  { name := "SPR_FLAG", off := 0x5004, stride := 0x0, cnt := 1, flds := [F.SPR_FLAG_OVR, F.SPR_FLAG_LOOPTRIP, F.SPR_FLAG_ACCERR, F.SPR_FLAG_SECDROP] },
  { name := "SPR_COINC", off := 0x5008, stride := 0x0, cnt := 1, flds := [F.SPR_COINC_CNT, F.SPR_COINC_LASTCONS] },
  { name := "SPR_LGCFG", off := 0x500C, stride := 0x0, cnt := 1, flds := [F.SPR_LGCFG_WIN, F.SPR_LGCFG_MAX] },
  { name := "SPR_SWTRIG", off := 0x5010, stride := 0x0, cnt := 1, flds := [F.SPR_SWTRIG_SW] },
  { name := "SPR_SAFEEN", off := 0x5014, stride := 0x0, cnt := 1, flds := [F.SPR_SAFEEN_EN] },
  { name := "SPR_SAFEST", off := 0x5018, stride := 0x0, cnt := 1, flds := [F.SPR_SAFEST_ST] },
  { name := "SPR_ACCERR", off := 0x501C, stride := 0x0, cnt := 1, flds := [F.SPR_ACCERR_CNT, F.SPR_ACCERR_LASTREG, F.SPR_ACCERR_LASTDOM] },
  { name := "SPR_SECDROP", off := 0x5020, stride := 0x0, cnt := 1, flds := [F.SPR_SECDROP_CNT] },
  { name := "SPR_OVRn", off := 0x5030, stride := 0x4, cnt := 3, flds := [F.SPR_OVR_OVR] },
  { name := "SPR_OUTNS", off := 0x5040, stride := 0x0, cnt := 1, flds := [F.SPR_OUTNS_NS] },
  { name := "SPR_CHc", off := 0x5100, stride := 0x4, cnt := 48, flds := [F.SPR_CH_SRC, F.SPR_CH_DST, F.SPR_CH_EN, F.SPR_CH_OWNER, F.SPR_CH_NS, F.SPR_CH_LOOP, F.SPR_CH_TRIP] },
  { name := "SPR_CNTc", off := 0x5200, stride := 0x4, cnt := 48, flds := [F.SPR_CNT_CARRIED] },
  { name := "SPR_LUTk", off := 0x5300, stride := 0x4, cnt := 16, flds := [F.SPR_LUT_TRUTH, F.SPR_LUT_FF, F.SPR_LUT_FILT, F.SPR_LUT_NS, F.SPR_LUT_OWNER, F.SPR_LUT_STICKY] },
  { name := "DMA_GCTL", off := 0x6000, stride := 0x0, cnt := 1, flds := [F.DMA_GCTL_EN] },
  { name := "DMA_GSTAT", off := 0x6004, stride := 0x0, cnt := 1, flds := [F.DMA_GSTAT_BUSY, F.DMA_GSTAT_HALT] },
  { name := "DMA_GERR", off := 0x6008, stride := 0x0, cnt := 1, flds := [F.DMA_GERR_HALTS, F.DMA_GERR_RETRIES] },
  { name := "DMA_SRC_LO", off := 0x6100, stride := 0x80, cnt := 16, flds := [F.DMA_SRC_LO_ADDR] },
  { name := "DMA_SRC_HI", off := 0x6104, stride := 0x80, cnt := 16, flds := [F.DMA_SRC_HI_ADDR] },
  { name := "DMA_DST_LO", off := 0x6108, stride := 0x80, cnt := 16, flds := [F.DMA_DST_LO_ADDR] },
  { name := "DMA_DST_HI", off := 0x610C, stride := 0x80, cnt := 16, flds := [F.DMA_DST_HI_ADDR] },
  { name := "DMA_ACNT", off := 0x6110, stride := 0x80, cnt := 16, flds := [F.DMA_ACNT_ACNT] },
  { name := "DMA_BCCNT", off := 0x6114, stride := 0x80, cnt := 16, flds := [F.DMA_BCCNT_BCNT, F.DMA_BCCNT_CCNT] },
  { name := "DMA_SSTEP1", off := 0x6118, stride := 0x80, cnt := 16, flds := [F.DMA_SSTEP1_STEP] },
  { name := "DMA_DSTEP1", off := 0x611C, stride := 0x80, cnt := 16, flds := [F.DMA_DSTEP1_STEP] },
  { name := "DMA_SSTEP2", off := 0x6120, stride := 0x80, cnt := 16, flds := [F.DMA_SSTEP2_STEP] },
  { name := "DMA_DSTEP2", off := 0x6124, stride := 0x80, cnt := 16, flds := [F.DMA_DSTEP2_STEP] },
  { name := "DMA_NEXT_LO", off := 0x6128, stride := 0x80, cnt := 16, flds := [F.DMA_NEXT_LO_ADDR] },
  { name := "DMA_NEXT_HI", off := 0x612C, stride := 0x80, cnt := 16, flds := [F.DMA_NEXT_HI_ADDR] }
]

def regRows3 : List RegRow := [
  { name := "DMA_DCTL", off := 0x6130, stride := 0x80, cnt := 16, flds := [F.DMA_DCTL_HALFIRQ, F.DMA_DCTL_FULLIRQ, F.DMA_DCTL_DSTK] },
  { name := "DMA_CFG", off := 0x6140, stride := 0x80, cnt := 16, flds := [F.DMA_CFG_PORT, F.DMA_CFG_HIPRI, F.DMA_CFG_NS, F.DMA_CFG_FCRC, F.DMA_CFG_CYCLIC, F.DMA_CFG_TRIG, F.DMA_CFG_RETRY, F.DMA_CFG_HOPMAX] },
  { name := "DMA_CTL", off := 0x6144, stride := 0x80, cnt := 16, flds := [F.DMA_CTL_START, F.DMA_CTL_STOP, F.DMA_CTL_CLR] },
  { name := "DMA_STAT", off := 0x6148, stride := 0x80, cnt := 16, flds := [F.DMA_STAT_STATE, F.DMA_STAT_HALF, F.DMA_STAT_FULL, F.DMA_STAT_DONE, F.DMA_STAT_ERR, F.DMA_STAT_EKIND, F.DMA_STAT_DROP] },
  { name := "DMA_REMAIN_LO", off := 0x614C, stride := 0x80, cnt := 16, flds := [F.DMA_REMAIN_LO_BYTES] },
  { name := "DMA_REMAIN_HI", off := 0x6150, stride := 0x80, cnt := 16, flds := [F.DMA_REMAIN_HI_BYTES] },
  { name := "DMA_ERRADDR_LO", off := 0x6154, stride := 0x80, cnt := 16, flds := [F.DMA_ERRADDR_LO_ADDR] },
  { name := "DMA_ERRADDR_HI", off := 0x6158, stride := 0x80, cnt := 16, flds := [F.DMA_ERRADDR_HI_ADDR] },
  { name := "DMA_HOPS", off := 0x615C, stride := 0x80, cnt := 16, flds := [F.DMA_HOPS_HOPS] },
  { name := "LG_CTL", off := 0x7000, stride := 0x0, cnt := 1, flds := [F.LG_CTL_EXPEN, F.LG_CTL_SNAP] },
  { name := "LG_CFG", off := 0x7004, stride := 0x0, cnt := 1, flds := [F.LG_CFG_PERIOD, F.LG_CFG_CAPINT] },
  { name := "LG_STAT", off := 0x7008, stride := 0x0, cnt := 1, flds := [F.LG_STAT_EXPBUSY, F.LG_STAT_EXPERR, F.LG_STAT_RSTBUSY, F.LG_STAT_LATE, F.LG_STAT_SEQ] },
  { name := "LG_TIME_LO", off := 0x700C, stride := 0x0, cnt := 1, flds := [F.LG_TIME_LO_TIME] },
  { name := "LG_TIME_HI", off := 0x7010, stride := 0x0, cnt := 1, flds := [F.LG_TIME_HI_TIME] },
  { name := "LG_EXP_LO", off := 0x7014, stride := 0x0, cnt := 1, flds := [F.LG_EXP_LO_ADDR] },
  { name := "LG_EXP_HI", off := 0x7018, stride := 0x0, cnt := 1, flds := [F.LG_EXP_HI_ADDR] },
  { name := "LG_ECOEFi", off := 0x7020, stride := 0x4, cnt := 4, flds := [F.LG_ECOEF_C] },
  { name := "LG_XCNT", off := 0x7030, stride := 0x0, cnt := 1, flds := [F.LG_XCNT_EXPORTS, F.LG_XCNT_FAILS] },
  { name := "LG_SYSBUS_LO", off := 0x7038, stride := 0x0, cnt := 1, flds := [F.LG_SYSBUS_LO_NS] },
  { name := "LG_SYSBUS_HI", off := 0x703C, stride := 0x0, cnt := 1, flds := [F.LG_SYSBUS_HI_NS] },
  { name := "TN_CFG", off := 0x7100, stride := 0x0, cnt := 1, flds := [F.TN_CFG_EN, F.TN_CFG_GRP, F.TN_CFG_ACT, F.TN_CFG_SALT] },
  { name := "TN_CELLCAP", off := 0x7104, stride := 0x0, cnt := 1, flds := [F.TN_CELLCAP_CAP] },
  { name := "TN_BUSCAP", off := 0x7108, stride := 0x0, cnt := 1, flds := [F.TN_BUSCAP_CAP] },
  { name := "TN_USE", off := 0x710C, stride := 0x0, cnt := 1, flds := [F.TN_USE_CELLS, F.TN_USE_CAPPED] },
  { name := "TN_CAPUSE", off := 0x7110, stride := 0x0, cnt := 1, flds := [F.TN_CAPUSE_USE] },
  { name := "TN_LIVEw", off := 0x7140, stride := 0x4, cnt := 14, flds := [F.TN_LIVE_WORD] },
  { name := "TN_SNAPw", off := 0x7180, stride := 0x4, cnt := 14, flds := [F.TN_SNAP_WORD] },
  { name := "MP_CFG", off := 0x8000, stride := 0x0, cnt := 1, flds := [F.MP_CFG_INIT, F.MP_CFG_PGREP, F.MP_CFG_SCRUBEN] },
  { name := "MP_STAT", off := 0x8004, stride := 0x0, cnt := 1, flds := [F.MP_STAT_FILLBUSY, F.MP_STAT_READY] },
  { name := "MP_FILL", off := 0x8008, stride := 0x0, cnt := 1, flds := [F.MP_FILL_GO, F.MP_FILL_REGION, F.MP_FILL_DROP] },
  { name := "MP_SCRUB", off := 0x800C, stride := 0x0, cnt := 1, flds := [F.MP_SCRUB_LAPLIM] },
  { name := "MP_LAP", off := 0x8010, stride := 0x0, cnt := 1, flds := [F.MP_LAP_LAST, F.MP_LAP_CUR] },
  { name := "MP_LAPCNT", off := 0x8014, stride := 0x0, cnt := 1, flds := [F.MP_LAPCNT_CNT] },
  { name := "MP_LOGSTAT", off := 0x8018, stride := 0x0, cnt := 1, flds := [F.MP_LOGSTAT_COUNT, F.MP_LOGSTAT_LOST] },
  { name := "MP_LOGPOP", off := 0x801C, stride := 0x0, cnt := 1, flds := [F.MP_LOGPOP_POP] },
  { name := "MP_LOGE0", off := 0x8020, stride := 0x0, cnt := 1, flds := [F.MP_LOGE0_REGION, F.MP_LOGE0_WORD, F.MP_LOGE0_KIND, F.MP_LOGE0_REPEAT] },
  { name := "MP_LOGE1", off := 0x8024, stride := 0x0, cnt := 1, flds := [F.MP_LOGE1_SYND, F.MP_LOGE1_VALID, F.MP_LOGE1_TIME] },
  { name := "MP_UELOG0", off := 0x8028, stride := 0x0, cnt := 1, flds := [F.MP_UELOG0_REGION, F.MP_UELOG0_WORD, F.MP_UELOG0_KIND] },
  { name := "MP_UELOG1", off := 0x802C, stride := 0x0, cnt := 1, flds := [F.MP_UELOG1_SYND, F.MP_UELOG1_VALID, F.MP_UELOG1_TIME] },
  { name := "MP_REPAIR", off := 0x8030, stride := 0x0, cnt := 1, flds := [F.MP_REPAIR_USED, F.MP_REPAIR_OVF] },
  { name := "MP_RCNTr", off := 0x8100, stride := 0x4, cnt := 12, flds := [F.MP_RCNT_CE, F.MP_RCNT_REP, F.MP_RCNT_UE] },
  { name := "PM_CTL", off := 0x9000, stride := 0x0, cnt := 1, flds := [F.PM_CTL_REQ] },
  { name := "PM_CFG", off := 0x9004, stride := 0x0, cnt := 1, flds := [F.PM_CFG_PHYIDLE, F.PM_CFG_ENTTO] },
  { name := "PM_STAT", off := 0x9008, stride := 0x0, cnt := 1, flds := [F.PM_STAT_STATE, F.PM_STAT_BLOCK, F.PM_STAT_PFSEEN, F.PM_STAT_LASTHIB] },
  { name := "PM_CLKMON", off := 0x900C, stride := 0x0, cnt := 1, flds := [F.PM_CLKMON_CCLK, F.PM_CLKMON_LINK, F.PM_CLKMON_CFG, F.PM_CLKMON_AON] },
  { name := "PM_PHYSTAT", off := 0x9010, stride := 0x0, cnt := 1, flds := [F.PM_PHYSTAT_ON] },
  { name := "PM_CNT", off := 0x9014, stride := 0x0, cnt := 1, flds := [F.PM_CNT_NAPS, F.PM_CNT_HIBS] },
  { name := "PM_WAKE", off := 0x9018, stride := 0x0, cnt := 1, flds := [F.PM_WAKE_LAST] }
]

def regRows4 : List RegRow := [
  { name := "TH_CFG", off := 0x9100, stride := 0x0, cnt := 1, flds := [F.TH_CFG_HYST, F.TH_CFG_DWELL] },
  { name := "TH_POL", off := 0x9104, stride := 0x0, cnt := 1, flds := [F.TH_POL_POLICY] },
  { name := "TH_STAT", off := 0x9108, stride := 0x0, cnt := 1, flds := [F.TH_STAT_LEVEL, F.TH_STAT_HOT, F.TH_STAT_HALT, F.TH_STAT_TRIPPED, F.TH_STAT_OVR, F.TH_STAT_LOGFAIL, F.TH_STAT_SAFEHOLD] },
  { name := "TH_FORCE", off := 0x910C, stride := 0x0, cnt := 1, flds := [F.TH_FORCE_MIN] },
  { name := "TH_PLAUS", off := 0x9110, stride := 0x0, cnt := 1, flds := [F.TH_PLAUS_RATE, F.TH_PLAUS_NDEV, F.TH_PLAUS_NCNT] },
  { name := "TH_LVLk", off := 0x9120, stride := 0x4, cnt := 8, flds := [F.TH_LVL_TEMP, F.TH_LVL_RCAP, F.TH_LVL_PGM, F.TH_LVL_DDIV] },
  { name := "TH_EXCL0", off := 0x9140, stride := 0x0, cnt := 1, flds := [F.TH_EXCL0_X] },
  { name := "TH_EXCL1", off := 0x9144, stride := 0x0, cnt := 1, flds := [F.TH_EXCL1_X] },
  { name := "TH_REINST0", off := 0x9148, stride := 0x0, cnt := 1, flds := [F.TH_REINST0_R] },
  { name := "TH_REINST1", off := 0x914C, stride := 0x0, cnt := 1, flds := [F.TH_REINST1_R] },
  { name := "TH_MAX", off := 0x9150, stride := 0x0, cnt := 1, flds := [F.TH_MAX_TEMP, F.TH_MAX_SENSOR] },
  { name := "TH_CNT", off := 0x9160, stride := 0x0, cnt := 1, flds := [F.TH_CNT_CHANGES, F.TH_CNT_EXCLUSIONS] },
  { name := "TS_s", off := 0x9200, stride := 0x4, cnt := 40, flds := [F.TS_TEMP, F.TS_STATE, F.TS_ZLEVEL, F.TS_FLOOR, F.TS_SUBST, F.TS_XCODE] },
  { name := "LIFT_CFG", off := 0x9800, stride := 0x0, cnt := 1, flds := [F.LIFT_CFG_BYPASS, F.LIFT_CFG_AGE] },
  { name := "LIFT_BUDGET", off := 0x9804, stride := 0x0, cnt := 1, flds := [F.LIFT_BUDGET_ARRAY, F.LIFT_BUDGET_IO] },
  { name := "LIFT_SPACE", off := 0x9808, stride := 0x0, cnt := 1, flds := [F.LIFT_SPACE_ARRAY, F.LIFT_SPACE_IO] },
  { name := "LIFT_WAKEHOLD", off := 0x980C, stride := 0x0, cnt := 1, flds := [F.LIFT_WAKEHOLD_HOLD] },
  { name := "LIFT_COSTk", off := 0x9810, stride := 0x4, cnt := 8, flds := [F.LIFT_COST_ARRAY, F.LIFT_COST_IO, F.LIFT_COST_SPACE] },
  { name := "LIFT_USE", off := 0x9830, stride := 0x0, cnt := 1, flds := [F.LIFT_USE_ARRAY, F.LIFT_USE_IO] },
  { name := "LIFT_STAT", off := 0x9834, stride := 0x0, cnt := 1, flds := [F.LIFT_STAT_PEND, F.LIFT_STAT_RESV, F.LIFT_STAT_PGMS, F.LIFT_STAT_PGMLIM] },
  { name := "LIFT_FLAG", off := 0x9838, stride := 0x0, cnt := 1, flds := [F.LIFT_FLAG_OVERCOST, F.LIFT_FLAG_AGED] },
  { name := "LIFT_WAIT", off := 0x983C, stride := 0x0, cnt := 1, flds := [F.LIFT_WAIT_MAXWAIT, F.LIFT_WAIT_DELAYED] },
  { name := "BOOT_STAT", off := 0xA000, stride := 0x0, cnt := 1, flds := [F.BOOT_STAT_PHASE, F.BOOT_STAT_READY, F.BOOT_STAT_ENUM, F.BOOT_STAT_WARM, F.BOOT_STAT_SCHEMA, F.BOOT_STAT_DEFSET, F.BOOT_STAT_DIEERR, F.BOOT_STAT_QUAD, F.BOOT_STAT_ERR] },
  { name := "BOOT_TIME", off := 0xA004, stride := 0x0, cnt := 1, flds := [F.BOOT_TIME_TIME, F.BOOT_TIME_ENUM] },
  { name := "CFG_NOR", off := 0xA008, stride := 0x0, cnt := 1, flds := [F.CFG_NOR_DENS, F.CFG_NOR_QER, F.CFG_NOR_SCKDIV] },
  { name := "CFG_SET", off := 0xA00C, stride := 0x0, cnt := 1, flds := [F.CFG_SET_COPY, F.CFG_SET_V, F.CFG_SET_SCHEMA] },
  { name := "CFG_SKIP", off := 0xA010, stride := 0x0, cnt := 1, flds := [F.CFG_SKIP_SKIP, F.CFG_SKIP_WERR] },
  { name := "CFG_CHEN", off := 0xA014, stride := 0x0, cnt := 1, flds := [F.CFG_CHEN_EN] },
  { name := "CFG_LOG", off := 0xA018, stride := 0x0, cnt := 1, flds := [F.CFG_LOG_NEXT, F.CFG_LOG_ARMED, F.CFG_LOG_PREP, F.CFG_LOG_SEQ] },
  { name := "UPD_CTL", off := 0xA100, stride := 0x0, cnt := 1, flds := [F.UPD_CTL_TARGET, F.UPD_CTL_OPEN, F.UPD_CTL_VERIFY, F.UPD_CTL_ABORT, F.UPD_CTL_FLUSH] },
  { name := "UPD_LEN", off := 0xA104, stride := 0x0, cnt := 1, flds := [F.UPD_LEN_LEN] },
  { name := "UPD_OFF", off := 0xA108, stride := 0x0, cnt := 1, flds := [F.UPD_OFF_OFF] },
  { name := "UPD_DATA", off := 0xA10C, stride := 0x0, cnt := 1, flds := [F.UPD_DATA_DATA] },
  { name := "UPD_STAT", off := 0xA110, stride := 0x0, cnt := 1, flds := [F.UPD_STAT_STATE, F.UPD_STAT_FULL, F.UPD_STAT_HDROK, F.UPD_STAT_VOKA, F.UPD_STAT_VOKB, F.UPD_STAT_REVERTED, F.UPD_STAT_FALLBACK, F.UPD_STAT_SCHEMA, F.UPD_STAT_ERR, F.UPD_STAT_DROP] },
  { name := "UPD_RCVD", off := 0xA114, stride := 0x0, cnt := 1, flds := [F.UPD_RCVD_BYTES] },
  { name := "UPD_ERRPOS", off := 0xA118, stride := 0x0, cnt := 1, flds := [F.UPD_ERRPOS_POS, F.UPD_ERRPOS_PCODE] },
  { name := "UPD_BP", off := 0xA11C, stride := 0x0, cnt := 1, flds := [F.UPD_BP_ACTIVE, F.UPD_BP_TRIAL, F.UPD_BP_TRIES, F.UPD_BP_PREV, F.UPD_BP_COPY, F.UPD_BP_NONE, F.UPD_BP_SEQ] },
  { name := "UPD_VERA", off := 0xA120, stride := 0x0, cnt := 1, flds := [F.UPD_VERA_VERSION] },
  { name := "UPD_VERB", off := 0xA124, stride := 0x0, cnt := 1, flds := [F.UPD_VERB_VERSION] },
  { name := "UPD_MINVER", off := 0xA128, stride := 0x0, cnt := 1, flds := [F.UPD_MINVER_MINVER] },
  { name := "UPD_SWAP", off := 0xA12C, stride := 0x0, cnt := 1, flds := [F.UPD_SWAP_STATE, F.UPD_SWAP_DONE] },
  { name := "SC_DATAi", off := 0xA200, stride := 0x4, cnt := 16, flds := [F.SC_DATA_DATA] },
  { name := "SC_GO", off := 0xA240, stride := 0x0, cnt := 1, flds := [F.SC_GO_GO] },
  { name := "SC_STAT", off := 0xA244, stride := 0x0, cnt := 1, flds := [F.SC_STAT_BUSY, F.SC_STAT_RES, F.SC_STAT_CMD, F.SC_STAT_FAILS, F.SC_STAT_LOCK, F.SC_STAT_DROP] },
  { name := "SC_CTR_LO", off := 0xA248, stride := 0x0, cnt := 1, flds := [F.SC_CTR_LO_CTR] },
  { name := "SC_CTR_HI", off := 0xA24C, stride := 0x0, cnt := 1, flds := [F.SC_CTR_HI_CTR] },
  { name := "SC_CKPT_LO", off := 0xA250, stride := 0x0, cnt := 1, flds := [F.SC_CKPT_LO_K] },
  { name := "SC_CKPT_HI", off := 0xA254, stride := 0x0, cnt := 1, flds := [F.SC_CKPT_HI_K] }
]

def regRows5 : List RegRow := [
  { name := "SC_CNT", off := 0xA258, stride := 0x0, cnt := 1, flds := [F.SC_CNT_ACCEPTED, F.SC_CNT_REJECTED] },
  { name := "SC_KEY", off := 0xA25C, stride := 0x0, cnt := 1, flds := [F.SC_KEY_HIDX, F.SC_KEY_SIDX, F.SC_KEY_KIN, F.SC_KEY_KV] },
  { name := "SAN_STAT", off := 0xA260, stride := 0x0, cnt := 1, flds := [F.SAN_STAT_BUSY, F.SAN_STAT_ABORTED, F.SAN_STAT_DONE] },
  { name := "SAN_POS", off := 0xA264, stride := 0x0, cnt := 1, flds := [F.SAN_POS_DIX, F.SAN_POS_BLOCK] },
  { name := "SAN_CNT", off := 0xA268, stride := 0x0, cnt := 1, flds := [F.SAN_CNT_ERASED] },
  { name := "SAN_FAIL", off := 0xA26C, stride := 0x0, cnt := 1, flds := [F.SAN_FAIL_EFAIL, F.SAN_FAIL_SKIPPED] },
  { name := "RG_CTL", off := 0xB000, stride := 0x0, cnt := 1, flds := [F.RG_CTL_EN] },
  { name := "RG_ID", off := 0xB004, stride := 0x0, cnt := 1, flds := [F.RG_ID_ID] },
  { name := "RG_CFG", off := 0xB008, stride := 0x0, cnt := 1, flds := [F.RG_CFG_HBPER, F.RG_CFG_HBLOSS, F.RG_CFG_FAIR, F.RG_CFG_MAXHOP, F.RG_CFG_TMASTER] },
  { name := "RG_CFG2", off := 0xB00C, stride := 0x0, cnt := 1, flds := [F.RG_CFG2_BUDGET, F.RG_CFG2_FRTO, F.RG_CFG2_DSPER] },
  { name := "RG_STAT", off := 0xB010, stride := 0x0, cnt := 1, flds := [F.RG_STAT_STATE, F.RG_STAT_OPEN, F.RG_STAT_OVERBUDGET, F.RG_STAT_DUPID] },
  { name := "RG_UP", off := 0xB014, stride := 0x0, cnt := 1, flds := [F.RG_UP_ID] },
  { name := "RG_EPOCH_LO", off := 0xB018, stride := 0x0, cnt := 1, flds := [F.RG_EPOCH_LO_EPOCH] },
  { name := "RG_EPOCH_HI", off := 0xB01C, stride := 0x0, cnt := 1, flds := [F.RG_EPOCH_HI_EPOCH] },
  { name := "RG_DEAD", off := 0xB020, stride := 0x0, cnt := 1, flds := [F.RG_DEAD_ID, F.RG_DEAD_DECL] },
  { name := "RG_RTT", off := 0xB024, stride := 0x0, cnt := 1, flds := [F.RG_RTT_RTT] },
  { name := "RG_DROP", off := 0xB028, stride := 0x0, cnt := 1, flds := [F.RG_DROP_CRC, F.RG_DROP_STALE, F.RG_DROP_HOPS, F.RG_DROP_LOST] },
  { name := "RG_DBASE_LO", off := 0xB030, stride := 0x0, cnt := 1, flds := [F.RG_DBASE_LO_ADDR] },
  { name := "RG_DBASE_HI", off := 0xB034, stride := 0x0, cnt := 1, flds := [F.RG_DBASE_HI_ADDR] },
  { name := "RG_DCFG", off := 0xB038, stride := 0x0, cnt := 1, flds := [F.RG_DCFG_SLOTS, F.RG_DCFG_NEXT] },
  { name := "RG_CFG3", off := 0xB040, stride := 0x0, cnt := 1, flds := [F.RG_CFG3_HOPNS] },
  { name := "DBG_STAT", off := 0xC000, stride := 0x0, cnt := 1, flds := [F.DBG_STAT_LEVEL, F.DBG_STAT_FUSELOCK] },
  { name := "TST_RINGLB", off := 0xC004, stride := 0x0, cnt := 1, flds := [F.TST_RINGLB_EN, F.TST_RINGLB_ERR, F.TST_RINGLB_RTN] },
  { name := "TST_ROM", off := 0xC008, stride := 0x0, cnt := 1, flds := [F.TST_ROM_ROMOK] },
  { name := "TST_LBCTL", off := 0xC100, stride := 0x0, cnt := 1, flds := [F.TST_LBCTL_DEPTH, F.TST_LBCTL_RUN, F.TST_LBCTL_CPROF, F.TST_LBCTL_SEED] },
  { name := "TST_LBSTAT", off := 0xC104, stride := 0x0, cnt := 1, flds := [F.TST_LBSTAT_BYTES] },
  { name := "TST_LBERR", off := 0xC108, stride := 0x0, cnt := 1, flds := [F.TST_LBERR_BITS] },
  { name := "TST_ECHOT", off := 0xC110, stride := 0x0, cnt := 1, flds := [F.TST_ECHOT_TR, F.TST_ECHOT_TPROG, F.TST_ECHOT_TBERS] },
  { name := "TST_ECHOINJ", off := 0xC114, stride := 0x0, cnt := 1, flds := [F.TST_ECHOINJ_FLIPS, F.TST_ECHOINJ_PFAILN, F.TST_ECHOINJ_HANG] },
  { name := "TST_INJ", off := 0xC200, stride := 0x0, cnt := 1, flds := [F.TST_INJ_REGION, F.TST_INJ_DOUBLE, F.TST_INJ_ARM, F.TST_INJ_LINKERR] },
  { name := "TST_INJADDR", off := 0xC204, stride := 0x0, cnt := 1, flds := [F.TST_INJADDR_WORD] },
  { name := "CPn_CFG", off := 0xD000, stride := 0x10, cnt := 8, flds := [F.CP_CFG_PARITY, F.CP_CFG_CWPP, F.CP_CFG_RAND, F.CP_CFG_RAW, F.CP_CFG_HITER, F.CP_CFG_VALID] },
  { name := "CPn_RTY", off := 0xD004, stride := 0x10, cnt := 8, flds := [F.CP_RTY_RTBASE, F.CP_RTY_RTYN] },
  { name := "CPn_SOFT", off := 0xD008, stride := 0x10, cnt := 8, flds := [F.CP_SOFT_SOFTD, F.CP_SOFT_SSTEP, F.CP_SOFT_SCENTRE, F.CP_SOFT_SITER] },
  { name := "CPn_ERAS", off := 0xD00C, stride := 0x10, cnt := 8, flds := [F.CP_ERAS_ERTHR, F.CP_ERAS_ERFILL] },
  { name := "RTY_SEL", off := 0xD080, stride := 0x0, cnt := 1, flds := [F.RTY_SEL_STEP] },
  { name := "RTY_DLO", off := 0xD084, stride := 0x0, cnt := 1, flds := [F.RTY_DLO_D] },
  { name := "RTY_DHI", off := 0xD088, stride := 0x0, cnt := 1, flds := [F.RTY_DHI_D] },
  { name := "SDP_CFG", off := 0xD090, stride := 0x0, cnt := 1, flds := [F.SDP_CFG_CLMAX] },
  { name := "SDP_STAT", off := 0xD094, stride := 0x0, cnt := 1, flds := [F.SDP_STAT_BUSY, F.SDP_STAT_WAIT] },
  { name := "HD_OKCNT", off := 0xD0A0, stride := 0x0, cnt := 1, flds := [F.HD_OKCNT_CNT] },
  { name := "HD_FAILCNT", off := 0xD0A4, stride := 0x0, cnt := 1, flds := [F.HD_FAILCNT_CNT] },
  { name := "ERCNT", off := 0xD0A8, stride := 0x0, cnt := 1, flds := [F.ERCNT_CNT] },
  { name := "RTYCNT", off := 0xD0AC, stride := 0x0, cnt := 1, flds := [F.RTYCNT_CNT] },
  { name := "SD_OKCNT", off := 0xD0B0, stride := 0x0, cnt := 1, flds := [F.SD_OKCNT_CNT] },
  { name := "SD_FAILCNT", off := 0xD0B4, stride := 0x0, cnt := 1, flds := [F.SD_FAILCNT_CNT] },
  { name := "RD_UECNT", off := 0xD0B8, stride := 0x0, cnt := 1, flds := [F.RD_UECNT_STAGE, F.RD_UECNT_DECBUF] },
  { name := "HDP_STAT", off := 0xD0C0, stride := 0x0, cnt := 1, flds := [F.HDP_STAT_BUSY, F.HDP_STAT_QUEUED] }
]

def regRows6 : List RegRow := [
  { name := "LM_CTL", off := 0xD100, stride := 0x0, cnt := 1, flds := [F.LM_CTL_EN, F.LM_CTL_TRKEN, F.LM_CTL_PREF] },
  { name := "LM_STAT", off := 0xD104, stride := 0x0, cnt := 1, flds := [F.LM_STAT_IDLE, F.LM_STAT_WFAIL, F.LM_STAT_SEEDBUSY, F.LM_STAT_SWPBUSY, F.LM_STAT_SWPDONE] },
  { name := "LM_BASE_LO", off := 0xD108, stride := 0x0, cnt := 1, flds := [F.LM_BASE_LO_ADDR] },
  { name := "LM_BASE_HI", off := 0xD10C, stride := 0x0, cnt := 1, flds := [F.LM_BASE_HI_ADDR] },
  { name := "LM_CHIT", off := 0xD110, stride := 0x0, cnt := 1, flds := [F.LM_CHIT_CNT] },
  { name := "LM_CMISS", off := 0xD114, stride := 0x0, cnt := 1, flds := [F.LM_CMISS_CNT] },
  { name := "LM_ERR", off := 0xD118, stride := 0x0, cnt := 1, flds := [F.LM_ERR_FETCH, F.LM_ERR_WRITE, F.LM_ERR_UE] },
  { name := "LM_TRK", off := 0xD120, stride := 0x0, cnt := 1, flds := [F.LM_TRK_THR, F.LM_TRK_MSTEP, F.LM_TRK_PULL] },
  { name := "LM_TRK2", off := 0xD124, stride := 0x0, cnt := 1, flds := [F.LM_TRK2_WIN, F.LM_TRK2_OMIN, F.LM_TRK2_OMAX] },
  { name := "LM_TCNT", off := 0xD128, stride := 0x0, cnt := 1, flds := [F.LM_TCNT_MOVES, F.LM_TCNT_PULLS] },
  { name := "LM_TCNT2", off := 0xD12C, stride := 0x0, cnt := 1, flds := [F.LM_TCNT2_STALE, F.LM_TCNT2_EVICT] },
  { name := "LM_TCNT3", off := 0xD130, stride := 0x0, cnt := 1, flds := [F.LM_TCNT3_DROP, F.LM_TCNT3_QUIET] },
  { name := "LM_ZONET0", off := 0xD140, stride := 0x0, cnt := 1, flds := [F.LM_ZONET0_ZB1, F.LM_ZONET0_ZB2] },
  { name := "LM_ZONET1", off := 0xD144, stride := 0x0, cnt := 1, flds := [F.LM_ZONET1_ZB3] },
  { name := "LM_ZONEQ", off := 0xD148, stride := 0x0, cnt := 1, flds := [F.LM_ZONEQ_ZB] },
  { name := "LM_LVLT", off := 0xD14C, stride := 0x0, cnt := 1, flds := [F.LM_LVLT_T0, F.LM_LVLT_T1, F.LM_LVLT_T2] },
  { name := "LM_LVLQ0", off := 0xD150, stride := 0x0, cnt := 1, flds := [F.LM_LVLQ0_T0, F.LM_LVLQ0_T1] },
  { name := "LM_LVLQ1", off := 0xD154, stride := 0x0, cnt := 1, flds := [F.LM_LVLQ1_T2, F.LM_LVLQ1_T3] },
  { name := "LM_SCMD", off := 0xD160, stride := 0x0, cnt := 1, flds := [F.LM_SCMD_GO, F.LM_SCMD_BLOCK, F.LM_SCMD_CONF, F.LM_SCMD_DROP] },
  { name := "LM_SADDR", off := 0xD164, stride := 0x0, cnt := 1, flds := [F.LM_SADDR_DIX, F.LM_SADDR_BLOCK, F.LM_SADDR_ZONE] },
  { name := "LM_SOFFn", off := 0xD168, stride := 0x4, cnt := 4, flds := [F.LM_SOFF_O] },
  { name := "LM_SWP_CTL", off := 0xD180, stride := 0x0, cnt := 1, flds := [F.LM_SWP_CTL_GO, F.LM_SWP_CTL_STOP, F.LM_SWP_CTL_MODE, F.LM_SWP_CTL_CONFMAX, F.LM_SWP_CTL_RATE] },
  { name := "LM_SWP_DIX", off := 0xD184, stride := 0x0, cnt := 1, flds := [F.LM_SWP_DIX_FIRST, F.LM_SWP_DIX_LAST] },
  { name := "LM_SWP_BLK", off := 0xD188, stride := 0x0, cnt := 1, flds := [F.LM_SWP_BLK_FIRST, F.LM_SWP_BLK_LAST] },
  { name := "LM_SWP_POS", off := 0xD18C, stride := 0x0, cnt := 1, flds := [F.LM_SWP_POS_DIX, F.LM_SWP_POS_BLOCK] },
  { name := "LM_SDVn", off := 0xD190, stride := 0x4, cnt := 4, flds := [F.LM_SDV_V] },
  { name := "ADM_CTL", off := 0xE000, stride := 0x0, cnt := 1, flds := [F.ADM_CTL_EN, F.ADM_CTL_PFMEN] },
  { name := "ADM_STAT", off := 0xE004, stride := 0x0, cnt := 1, flds := [F.ADM_STAT_IDLE, F.ADM_STAT_STALL, F.ADM_STAT_FLBROKEN] },
  { name := "ADM_ERR", off := 0xE008, stride := 0x0, cnt := 1, flds := [F.ADM_ERR_LASTDET, F.ADM_ERR_LASTSQ, F.ADM_ERR_CNT] },
  { name := "THL_BASE_LO", off := 0xE010, stride := 0x0, cnt := 1, flds := [F.THL_BASE_LO_ADDR] },
  { name := "THL_BASE_HI", off := 0xE014, stride := 0x0, cnt := 1, flds := [F.THL_BASE_HI_ADDR] },
  { name := "THL_FREE", off := 0xE018, stride := 0x0, cnt := 1, flds := [F.THL_FREE_FREE] },
  { name := "THL_RSV", off := 0xE01C, stride := 0x0, cnt := 1, flds := [F.THL_RSV_RSV] },
  { name := "THL_CECNT", off := 0xE020, stride := 0x0, cnt := 1, flds := [F.THL_CECNT_CE, F.THL_CECNT_CRCF] },
  { name := "THL_SWEEP", off := 0xE024, stride := 0x0, cnt := 1, flds := [F.THL_SWEEP_START, F.THL_SWEEP_REBUILD, F.THL_SWEEP_LOST] },
  { name := "PFM_BASE_LO", off := 0xE028, stride := 0x0, cnt := 1, flds := [F.PFM_BASE_LO_ADDR] },
  { name := "PFM_BASE_HI", off := 0xE02C, stride := 0x0, cnt := 1, flds := [F.PFM_BASE_HI_ADDR] },
  { name := "PFM_STAT", off := 0xE030, stride := 0x0, cnt := 1, flds := [F.PFM_STAT_ARMED, F.PFM_STAT_LASTHALF, F.PFM_STAT_LASTSEQ] },
  { name := "PFM_WAIT", off := 0xE034, stride := 0x0, cnt := 1, flds := [F.PFM_WAIT_MAX, F.PFM_WAIT_LAST] },
  { name := "TKT_DATA", off := 0xE040, stride := 0x4, cnt := 16, flds := [F.TKT_DATA_DATA] },
  { name := "TKT_GO", off := 0xE080, stride := 0x0, cnt := 1, flds := [F.TKT_GO_GO] },
  { name := "TKT_STAT", off := 0xE084, stride := 0x0, cnt := 1, flds := [F.TKT_STAT_BUSY, F.TKT_STAT_DROP] },
  { name := "LOT_n", off := 0xE100, stride := 0x4, cnt := 16, flds := [F.LOT_EN, F.LOT_DIRECT, F.LOT_STRIPE, F.LOT_CLASSES] },
  { name := "ACC_SEL", off := 0xE200, stride := 0x0, cnt := 1, flds := [F.ACC_SEL_ACC] },
  { name := "ACC_CFG", off := 0xE204, stride := 0x0, cnt := 1, flds := [F.ACC_CFG_CPROF, F.ACC_CFG_CWN, F.ACC_CFG_RING] },
  { name := "ACC_PDST_LO", off := 0xE208, stride := 0x0, cnt := 1, flds := [F.ACC_PDST_LO_ADDR] },
  { name := "ACC_PDST_HI", off := 0xE20C, stride := 0x0, cnt := 1, flds := [F.ACC_PDST_HI_ADDR] },
  { name := "ACC_CMD", off := 0xE210, stride := 0x0, cnt := 1, flds := [F.ACC_CMD_CMD] }
]

def regRows7 : List RegRow := [
  { name := "ACC_STAT", off := 0xE214, stride := 0x0, cnt := 1, flds := [F.ACC_STAT_STATE, F.ACC_STAT_UE, F.ACC_STAT_EMITERR, F.ACC_STAT_MOVERR, F.ACC_STAT_CMDERR, F.ACC_STAT_CLOSED, F.ACC_STAT_LAST, F.ACC_STAT_ABORTING, F.ACC_STAT_SYNMASK] },
  { name := "ACC_CLAIM_LO", off := 0xE218, stride := 0x0, cnt := 1, flds := [F.ACC_CLAIM_LO_MASK] },
  { name := "ACC_CLAIM_HI", off := 0xE21C, stride := 0x0, cnt := 1, flds := [F.ACC_CLAIM_HI_MASK] },
  { name := "ACC_TAKEN_LO", off := 0xE220, stride := 0x0, cnt := 1, flds := [F.ACC_TAKEN_LO_MASK] },
  { name := "ACC_TAKEN_HI", off := 0xE224, stride := 0x0, cnt := 1, flds := [F.ACC_TAKEN_HI_MASK] },
  { name := "ACC_DROP_LO", off := 0xE228, stride := 0x0, cnt := 1, flds := [F.ACC_DROP_LO_MASK] },
  { name := "ACC_DROP_HI", off := 0xE22C, stride := 0x0, cnt := 1, flds := [F.ACC_DROP_HI_MASK] },
  { name := "ACC_FAIL_LO", off := 0xE230, stride := 0x0, cnt := 1, flds := [F.ACC_FAIL_LO_MASK] },
  { name := "ACC_FAIL_HI", off := 0xE234, stride := 0x0, cnt := 1, flds := [F.ACC_FAIL_HI_MASK] },
  { name := "ACC_SPILL_LO", off := 0xE238, stride := 0x0, cnt := 1, flds := [F.ACC_SPILL_LO_ADDR] },
  { name := "ACC_SPILL_HI", off := 0xE23C, stride := 0x0, cnt := 1, flds := [F.ACC_SPILL_HI_ADDR] },
  { name := "ACC_DONE_LO", off := 0xE240, stride := 0x0, cnt := 1, flds := [F.ACC_DONE_LO_DONE] },
  { name := "ACC_DONE_HI", off := 0xE244, stride := 0x0, cnt := 1, flds := [F.ACC_DONE_HI_DONE] },
  { name := "ACC_CNT", off := 0xE248, stride := 0x0, cnt := 1, flds := [F.ACC_CNT_EMIT, F.ACC_CNT_CMDDROP] },
  { name := "ACC_RPEER", off := 0xE24C, stride := 0x0, cnt := 1, flds := [F.ACC_RPEER_PEER, F.ACC_RPEER_ROLE, F.ACC_RPEER_RACC, F.ACC_RPEER_RFRAG] },
  { name := "ACC_RTAG", off := 0xE250, stride := 0x0, cnt := 1, flds := [F.ACC_RTAG_TAG, F.ACC_RTAG_RCVD] },
  { name := "SQk_BASE_LO", off := 0xE400, stride := 0x10, cnt := 64, flds := [F.SQ_BASE_LO_ADDR] },
  { name := "SQk_BASE_HI", off := 0xE404, stride := 0x10, cnt := 64, flds := [F.SQ_BASE_HI_ADDR] },
  { name := "SQk_CFG", off := 0xE408, stride := 0x10, cnt := 64, flds := [F.SQ_CFG_EN, F.SQ_CFG_CRC, F.SQ_CFG_SIZE, F.SQ_CFG_WEIGHT, F.SQ_CFG_ERRCQ] },
  { name := "SQk_DB", off := 0xE40C, stride := 0x10, cnt := 64, flds := [F.SQ_DB_TAIL, F.SQ_DB_HEAD] },
  { name := "CQj_BASE_LO", off := 0xE800, stride := 0x10, cnt := 64, flds := [F.CQ_BASE_LO_ADDR] },
  { name := "CQj_BASE_HI", off := 0xE804, stride := 0x10, cnt := 64, flds := [F.CQ_BASE_HI_ADDR] },
  { name := "CQj_CFG", off := 0xE808, stride := 0x10, cnt := 64, flds := [F.CQ_CFG_EN, F.CQ_CFG_IRQALL, F.CQ_CFG_SIZE, F.CQ_CFG_FERR] },
  { name := "CQj_DB", off := 0xE80C, stride := 0x10, cnt := 64, flds := [F.CQ_DB_HEAD, F.CQ_DB_TAIL] },
  { name := "TQq_CFG", off := 0xEC00, stride := 0x40, cnt := 16, flds := [F.TQ_CFG_EN, F.TQ_CFG_TYPES, F.TQ_CFG_WM] },
  { name := "TQq_STAT", off := 0xEC04, stride := 0x40, cnt := 16, flds := [F.TQ_STAT_WORDS, F.TQ_STAT_OPEN] },
  { name := "TQq_LOST", off := 0xEC08, stride := 0x40, cnt := 16, flds := [F.TQ_LOST_LOST] },
  { name := "TQq_POP", off := 0xEC0C, stride := 0x40, cnt := 16, flds := [F.TQ_POP_POP] },
  { name := "TQq_WTAG", off := 0xEC10, stride := 0x40, cnt := 16, flds := [F.TQ_WTAG_VALID, F.TQ_WTAG_SEQ] },
  { name := "TQq_WORD0", off := 0xEC20, stride := 0x40, cnt := 16, flds := [F.TQ_WORD0_WORD] },
  { name := "TQq_WORD1", off := 0xEC24, stride := 0x40, cnt := 16, flds := [F.TQ_WORD1_WORD] },
  { name := "TQq_WORD2", off := 0xEC28, stride := 0x40, cnt := 16, flds := [F.TQ_WORD2_WORD] },
  { name := "TQq_WORD3", off := 0xEC2C, stride := 0x40, cnt := 16, flds := [F.TQ_WORD3_WORD] },
  { name := "TQq_WORD4", off := 0xEC30, stride := 0x40, cnt := 16, flds := [F.TQ_WORD4_WORD] },
  { name := "TQq_WORD5", off := 0xEC34, stride := 0x40, cnt := 16, flds := [F.TQ_WORD5_WORD] },
  { name := "TQq_WORD6", off := 0xEC38, stride := 0x40, cnt := 16, flds := [F.TQ_WORD6_WORD] },
  { name := "TQq_WORD7", off := 0xEC3C, stride := 0x40, cnt := 16, flds := [F.TQ_WORD7_WORD] },
  { name := "PAT_CTL", off := 0xF000, stride := 0x0, cnt := 1, flds := [F.PAT_CTL_LOAD, F.PAT_CTL_CLEAR] },
  { name := "PAT_STAT", off := 0xF004, stride := 0x0, cnt := 1, flds := [F.PAT_STAT_BUSY, F.PAT_STAT_ACTIVE, F.PAT_STAT_PHASE, F.PAT_STAT_ERR, F.PAT_STAT_DROP] },
  { name := "PAT_SRC_LO", off := 0xF008, stride := 0x0, cnt := 1, flds := [F.PAT_SRC_LO_ADDR] },
  { name := "PAT_SRC_HI", off := 0xF00C, stride := 0x0, cnt := 1, flds := [F.PAT_SRC_HI_ADDR] },
  { name := "PAT_LEN", off := 0xF010, stride := 0x0, cnt := 1, flds := [F.PAT_LEN_LEN] },
  { name := "PAT_VER", off := 0xF014, stride := 0x0, cnt := 1, flds := [F.PAT_VER_VERSION] },
  { name := "PAT_MINVER", off := 0xF018, stride := 0x0, cnt := 1, flds := [F.PAT_MINVER_MINVER] },
  { name := "PAT_ERRPOS", off := 0xF01C, stride := 0x0, cnt := 1, flds := [F.PAT_ERRPOS_POS] },
  { name := "RIX_SEL", off := 0xF020, stride := 0x0, cnt := 1, flds := [F.RIX_SEL_INDEX] },
  { name := "RIX_ENT", off := 0xF024, stride := 0x0, cnt := 1, flds := [F.RIX_ENT_ENTRY, F.RIX_ENT_COMMIT, F.RIX_ENT_DEF] },
  { name := "ST_ADDR", off := 0xF030, stride := 0x0, cnt := 1, flds := [F.ST_ADDR_ADDR, F.ST_ADDR_SPACE] }
]

def regRows8 : List RegRow := [
  { name := "ST_DATA", off := 0xF034, stride := 0x4, cnt := 4, flds := [F.ST_DATA_DATA] },
  { name := "MATCH_m", off := 0xF100, stride := 0x4, cnt := 64, flds := [F.MATCH_ROMADDR, F.MATCH_PADDR, F.MATCH_V] }
]

/-- Every register of R492, by rising offset. -/
def regRows : List RegRow :=
  regRows0 ++ regRows1 ++ regRows2 ++ regRows3 ++ regRows4 ++ regRows5 ++ regRows6 ++ regRows7 ++ regRows8

/-- The element of a row that lies at an offset. -/
def RegRow.elem (r : RegRow) (o : Nat) : Option Nat :=
  if r.stride = 0 then (if o = r.off then some 0 else none)
  else if r.off ≤ o ∧ o < r.off + r.stride * r.cnt ∧ (o - r.off) % r.stride = 0 then
    some ((o - r.off) / r.stride)
  else none

/-- A field as its register has it: LM_SOFF3[31:24] and LM_SDV3[31:24] are RSV, for there are 15 levels (R194), and the fields
of LOT_n of the illegal opcodes and two of TH_LVL's last register take no write (R76, R396). -/
def fieldHere (f : Fld) : Option Fld :=
  if (f.off = 0xD174 ∨ f.off = 0xD19C) ∧ f.lo = 24 then none
  else if f.off = 0xE100 ∨ f.off = 0xE134 ∨ f.off = 0xE138 ∨ f.off = 0xE13C ∨ (f.off = 0x913C ∧ (f.lo = 8 ∨ f.lo = 16)) then some { f with ty := .ro }
  else some f

/-- The fields of element `k` of a row, a packed field spread out. -/
def RegRow.fields (r : RegRow) (k : Nat) : List Fld :=
  r.flds.flatMap fun f => (List.range f.per).filterMap fun j => fieldHere (f.ix (k * f.per + j))

/-- The row holding a register, in a list of rows. -/
def findRow : List RegRow → Nat → Option (RegRow × Nat)
  | [], _ => none
  | r :: rs, o => match r.elem o with
    | some k => if r.off = 0x9120 ∧ k = 0 then none else some (r, k)
    | none => findRow rs o

/-- The fields of the register at an offset; none for an offset the index does not list (R481). -/
def fieldsAt (o : Nat) : Option (List Fld) := (findRow regRows o).map fun p => p.1.fields p.2

end Sys2Proof.Machine
end

