-- ==== Sys2Proof/Config.lean ====
section
/-!
DEFINITION. What the spec leaves open: constants without a body, so that nothing can be proved of their values
(assumptions 2 and 3).
-/

namespace Sys2Proof.Config

/-- A value the spec does not state, applied to the state's counter of such values. -/
opaque freeValue : Nat → Nat

/-- The microword ROM (R27, R79): its contents are not in the spec. -/
opaque romMicroword : Nat → Nat

/-- The nanoword ROM (R27, R79). -/
opaque romNanoword : Nat → Nat

/-- The length of half a PHY clock period in SDR timing mode 0, in ns (R248, R252): not in the spec. -/
opaque sdrHalfPeriod : Nat

/-- LDPC parity bytes of a codeword of `n` parity bytes (R139): the code's matrices are not in the spec. -/
opaque ldpcParity : Nat → List Byte → List Byte

/-- How a soft read changes the three bits of reliability of a codeword bit (R156): from the number of positions combined, the
hard decisions, the new reading and the bits so far, a byte of eight codeword bits at a time. The spec does not give the
combination (assumption 120). -/
opaque softBits : Nat → Byte → Byte → Byte × Byte × Byte → Byte × Byte × Byte

/-- The timing-mode feature value of a die's standard, by interface and rate (R249, R251, R278): encoded as the standard
defines, which the spec does not repeat. -/
opaque timingMode : Nat → Nat → Nat

/-- The timing modes of an interface, in units of 100 MT/s, rising (R247, R248): those the published standard defines,
which the spec does not list. -/
opaque timingModes : Nat → List Nat

/-- What a die's parameter page declares, as its standard lays the page out (R249, R252, R253, R496). -/
structure ParamPage where
  /-- 1 NV-DDR3, 2 NV-LPDDR4, 3 Toggle, 0 unsupported. -/
  iface : Nat := 0
  luns : Nat := 1
  planes : Nat := 1
  blocks : Nat := 1
  ppb : Nat := 1
  pglen : Nat := 0
  ccyc : Nat := 0
  rcyc : Nat := 0
  ppstat : Bool := false
  susp : Bool := false
  cache : Bool := false
  rates : List Nat := []
  pageW : Nat := 0
  blkW : Nat := 0
  lunW : Nat := 0
  planeLo : Nat := 0
  planeW : Nat := 0
deriving DecidableEq, Repr, Inhabited

/-- The first parameter-page copy with a good CRC among the bytes read, by family (ONFI `false`, JEDEC `true`), read as
the standard defines; none when no copy is good. The spec does not repeat the page's layout. -/
opaque paramPage : Bool → List Byte → Option ParamPage

/-- What the value of one of a page's 1,024 data symbols, by its place, adds to the page's two check symbols (R361). The spec
names a Reed-Solomon code over GF(2^32) and gives neither its field polynomial nor its generator (assumption 101). -/
opaque rsTerm : Nat → Nat → Nat × Nat

/-- The 8 check bits of a word (R360): the columns of the extended Hamming code are not in the spec. -/
opaque secded : Nat → Nat

end Sys2Proof.Config
end

