-- ==== Sys2Proof/Machine/Table.lean ====
section
/-!
DEFINITION. Operations on sparse tables (keys strictly rising), bit masks and little-endian byte strings (R14, R15).
-/

namespace Sys2Proof.Machine

/-- The entry at a key. -/
def look {α : Type} : Tbl α → Nat → Option α
  | [], _ => none
  | (k, v) :: r, i => if k = i then some v else look r i

/-- Insert or replace, keeping the keys strictly rising. -/
def ins {α : Type} : Tbl α → Nat → α → Tbl α
  | [], i, x => [(i, x)]
  | (k, v) :: r, i, x =>
    if i < k then (i, x) :: (k, v) :: r else if i = k then (i, x) :: r else (k, v) :: ins r i x

/-- Remove a key. -/
def del {α : Type} : Tbl α → Nat → Tbl α
  | [], _ => []
  | (k, v) :: r, i => if k = i then del r i else (k, v) :: del r i

/-- Write a value into a table whose unlisted entries read as `z`: the form without redundant entries. -/
def putD {α : Type} [DecidableEq α] (t : Tbl α) (i : Nat) (x z : α) : Tbl α :=
  if x = z then del t i else ins t i x

/-- Keys strictly rising. -/
def Tbl.sorted {α : Type} : Tbl α → Bool
  | [] => true
  | [_] => true
  | (a, _) :: (b, y) :: r => a < b && Tbl.sorted ((b, y) :: r)

/-- Bit `i` of a mask. -/
def bit (m i : Nat) : Bool := m.testBit i

/-- Set bit `i`. -/
def setBit (m i : Nat) : Nat := m ||| (1 <<< i)

/-- Clear bit `i`. -/
def clrBit (m i : Nat) : Nat := if m.testBit i then m - (1 <<< i) else m

/-- Set or clear bit `i`. -/
def putBit (m i : Nat) (b : Bool) : Nat := if b then setBit m i else clrBit m i

/-- The bits of `m` that are not in `k`, over `w` bits. -/
def maskOff (w m k : Nat) : Nat := m &&& ((2 ^ w - 1) ^^^ (k % 2 ^ w))

/-- How many of the low `w` bits are 1. -/
def popc : Nat → Nat → Nat
  | 0, _ => 0
  | w + 1, m => (if m.testBit w then 1 else 0) + popc w m

/-- The lowest set bit among `i, i+1, …`, in `fuel` bits. -/
def lowestFrom : Nat → Nat → Nat → Option Nat
  | 0, _, _ => none
  | fuel + 1, i, m => if m.testBit i then some i else lowestFrom fuel (i + 1) m

/-- The lowest set bit of a `w`-bit mask. -/
def lowest (w m : Nat) : Option Nat := lowestFrom w 0 m

/-- The set bits of a `w`-bit mask, rising. -/
def bitsOf (w m : Nat) : List Nat := (List.range w).filter fun i => m.testBit i

/-- Bits [lo+w-1 : lo] of a number. -/
def fld (v lo w : Nat) : Nat := (v >>> lo) % 2 ^ w

def b2n (b : Bool) : Nat := if b then 1 else 0

/-- Sum of a list. -/
def sumL : List Nat → Nat
  | [] => 0
  | a :: r => a + sumL r

/-- Replace the element at an index (no effect outside). -/
def setAt {α : Type} : List α → Nat → α → List α
  | [], _, _ => []
  | _ :: r, 0, x => x :: r
  | a :: r, n + 1, x => a :: setAt r n x

/-- The first element satisfying a test, with the rest of the list without it. -/
def pull {α : Type} (p : α → Bool) : List α → Option (α × List α)
  | [] => none
  | a :: r =>
    if p a then some (a, r)
    else match pull p r with
      | none => none
      | some (x, r') => some (x, a :: r')

/-- `n` bytes of a number, least significant first (R15). -/
def leBytes : Nat → Nat → List Byte
  | 0, _ => []
  | n + 1, v => BitVec.ofNat 8 v :: leBytes n (v / 256)

/-- The number a byte string stands for, least significant first (R15). -/
def leNat : List Byte → Nat
  | [] => 0
  | b :: r => b.toNat + 256 * leNat r

/-- Bytes [off, off+n) as a number; bytes beyond the end read 0. -/
def leAt (bs : List Byte) (off n : Nat) : Nat := leNat ((bs.drop off).take n)

/-- A byte string cut or filled with `z` to length `n`. -/
def fitTo (n : Nat) (z : Byte) (bs : List Byte) : List Byte :=
  bs.take n ++ List.replicate (n - bs.length) z

/-- Overwrite bytes from `off`. -/
def patchAt (bs : List Byte) (off : Nat) (x : List Byte) : List Byte :=
  bs.take off ++ x ++ bs.drop (off + x.length)

/-- XOR of two byte strings, the shorter filled with zeros. -/
def xorBytes : List Byte → List Byte → List Byte
  | [], ys => ys
  | xs, [] => xs
  | x :: xs, y :: ys => (x ^^^ y) :: xorBytes xs ys

/-- Saturating add within `w` bits. -/
def satAdd (w a n : Nat) : Nat := if a + n < 2 ^ w then a + n else 2 ^ w - 1

/-- One bit of CRC-32C, reflected, polynomial 0x82F63B78. PRESUMED: the spec names CRC-32C and not its
parameters (assumption 5). -/
def crcBit (c : Nat) : Nat := if c % 2 = 1 then (c / 2) ^^^ 0x82F63B78 else c / 2

def crcByte (c : Nat) (b : Byte) : Nat :=
  crcBit (crcBit (crcBit (crcBit (crcBit (crcBit (crcBit (crcBit (c ^^^ b.toNat))))))))

def crcRun : List Byte → Nat → Nat
  | [], c => c
  | b :: r, c => crcRun r (crcByte c b)

/-- CRC-32C of a byte string. -/
def crc32c (bs : List Byte) : Nat := crcRun bs 0xFFFFFFFF ^^^ 0xFFFFFFFF

/-- A two's-complement reading of a `w`-bit number. -/
def signed (w v : Nat) : Int := if v < 2 ^ (w - 1) then (v : Int) else (v : Int) - (2 ^ w : Nat)

/-- The `w`-bit number of an integer, wrapping. -/
def wrapInt (w : Nat) (i : Int) : Nat := (i % ((2 ^ w : Nat) : Int)).toNat

/-- An integer brought into [lo, hi]. -/
def clampInt (lo hi i : Int) : Int := if i < lo then lo else if hi < i then hi else i

end Sys2Proof.Machine
end

