-- ==== Sys2Proof/Machine/State.lean ====
section
/-!
DEFINITION. The state of the block: the register file and every unit's state, the fuses, and the queue of waiting
commands. Plain data. `State.reset` is the machine PORST_N leaves (R397, R490).
-/

namespace Sys2Proof.Machine

/-- Values of register fields that differ from their reset values, by `Fld.key`. -/
abbrev FMap := Tbl Nat

/-- KIND of a fabric request (R292). -/
inductive Kind
  | ctrl | data | dma
deriving DecidableEq, Repr

/-- The unit and the piece of work a fabric request belongs to (R298). -/
inductive Purpose
  /-- Tickets of submission ring `k` from slot `slot` (R46), in the ring's `gen`-th enabling. -/
  | ticketFetch (k slot n gen : Nat)
  /-- A cell fetched for its die queue or for the free list (R57). -/
  | cellFetch (cell : Nat) (freeList : Bool)
  /-- A cell written back (R56). -/
  | cellWrite (cell : Nat)
  /-- A cell written back to the free list, with its ring (R54, R298). -/
  | freeWrite (cell sq : Nat)
  /-- Cell read by a pool sweep (R58). -/
  | sweepCell (cell : Nat)
  /-- Data of a PROGRAM ticket: byte offset within the page's user data, or metadata (R196, R198). -/
  | progData (cell : Nat) (off : Nat) (isMeta : Bool)
  /-- User data or metadata of a READ codeword (R159). -/
  | readData (cell plane cw : Nat) (isMeta : Bool)
  /-- Completion record of ring `j` in slot `slot` (R67). -/
  | record (j slot : Nat)
  | mapRead (line : Nat)
  | mapWrite (line : Nat)
  | sweepUnitRead (line : Nat)
  | sweepUnitWrite (line : Nat)
  | bitmap (cell : Nat)
  | bitmapAgain (cell : Nat)
  | accEmit (n off : Nat)
  | accSpill (n off : Nat)
  | accRestore (n off : Nat)
  | pfmRegion (gen off : Nat)
  | pfmEntry (idx : Nat)
  | pfmHeader
  | patchImage (cl off : Nat)
  | dmaRead (c half : Nat)
  | dmaWrite (c half : Nat)
  | dmaFrond (c : Nat)
  | ledgerEntry (i : Nat)
  | ledgerHeader
  | driftSlot (id : Nat)
  /-- An accumulator's request that a fail-safe entry or power fail has overtaken (R217): its answer does nothing. -/
  | dropped
deriving DecidableEq, Repr

/-- A request of a unit, waiting at a port's arbiter (R299). `data` are the bytes of a write, the first at `addr`. -/
structure Req where
  what : Purpose
  addr : Nat
  len : Nat
  kind : Kind := .ctrl
  ns : Bool := false
  atomic : Bool := false
  hipri : Bool := false
  poison : Bool := false
  data : List Byte := []
  tries : Nat := 0
deriving DecidableEq, Repr

/-- A request granted and not yet answered: the data beats taken so far and the first bus-error code seen (R293). -/
structure Outst where
  req : Req
  got : List Byte := []
  err : Nat := 0
deriving DecidableEq, Repr

/-- One direction of a fabric port: the three request queues, the round's remaining grants, tags outstanding and
quarantined (R295, R299). -/
structure Dir where
  ctrl : List Req := []
  data : List Req := []
  dma : List Req := []
  gCtrl : Nat := 4
  gData : Nat := 8
  gDma : Nat := 2
  out : Tbl Outst := []
  quar : List Nat := []
deriving DecidableEq, Repr, Inhabited

/-- A fabric port (R290). -/
structure Port where
  rd : Dir := {}
  wr : Dir := {}
deriving DecidableEq, Repr, Inhabited

/-- The end of a fabric request, delivered to a unit that has a step of its own: the purpose, the bytes read and the
error code, 0 for OK (R293, R295). -/
structure Answer where
  what : Purpose
  code : Nat
  bytes : List Byte := []
  req : Req
  /-- The write of the data into its memory met an uncorrectable word (R364). -/
  ue : Bool := false
deriving DecidableEq, Repr

/-- A half of a DMA channel's buffer (R304). -/
inductive Half
  | free
  /-- Read request to be issued or outstanding. -/
  | reading (src dst len tries : Nat) (issued : Bool)
  /-- Filled: write request to be issued or outstanding. -/
  | writing (src dst len tries : Nat) (issued : Bool) (data : List Byte)
deriving DecidableEq, Repr, Inhabited

/-- Run-time state of a DMA channel (R303–R309). -/
structure DmaCh where
  h0 : Half := .free
  h1 : Half := .free
  /-- The half whose burst is the earlier one (R301). -/
  older : Nat := 0
  /-- Bytes of the descriptor whose reads have been placed, and whose writes have returned OK. -/
  placed : Nat := 0
  doneBytes : Nat := 0
  /-- The guard address of R309 and the address of the frond just loaded. -/
  guard : Nat := 0
  loaded : Nat := 0
  fetching : Bool := false
  fetchTries : Nat := 0
  /-- EKIND and address of the halt in progress (R308). -/
  fail : Option (Nat × Nat) := none
  halfSent : Bool := false
  /-- Halves whose burst a narrow write has poisoned (R364): bit 0 and bit 1. -/
  ue : Nat := 0
deriving DecidableEq, Repr, Inhabited

/-- How a ticket ended (R64, R65). -/
structure Outcome where
  status : Nat
  detail : Nat := 0
  result : Nat := 0
deriving DecidableEq, Repr, Inhabited

/-- A ticket that has been fetched and waits in hand for a cell (R46, R55): its ring (0xFF for the direct path), its slot
and its 64 bytes. -/
structure Hand where
  sq : Nat
  slot : Nat
  bytes : List Byte
  /-- Its write into the staging of admission met an uncorrectable word (R364, R365). -/
  ue : Bool := false
deriving DecidableEq, Repr, Inhabited

/-- A rejected ticket whose record waits for a slot (R62). -/
structure Reject where
  hand : Hand
  cq : Nat
  out : Outcome
deriving DecidableEq, Repr, Inhabited

/-- A submission ring's fetch state (R46): a fetch in flight, the tickets this visit may still take, and the model's own
count of enablings, by which a fetch that an enabling overtook is told apart (R44, assumption 78). -/
structure SqSt where
  fetching : Bool := false
  left : Nat := 0
  gen : Nat := 0
deriving DecidableEq, Repr, Inhabited

/-- A completion ring (R60–R67): the phase of the current pass, slots reserved by started tickets and by records in
flight, the record in flight with its retries, records of never-started tickets waiting for a slot, the decided records of
started tickets in the order of their outcomes, and the failed record with the number of records held with it (R67). -/
structure CqSt where
  phase : Bool := true
  reserved : Nat := 0
  busy : Option Rec := none
  tries : Nat := 0
  waiting : List Rec := []
  pend : List Nat := []
  held : List (Rec × Req) := []
  first : Nat := 0
  /-- The failed record has ended unwritten (R62), and records of started tickets are held behind it. -/
  failed : Bool := false
deriving DecidableEq, Repr, Inhabited

/-- A telemetry queue (R69–R71): closed words, oldest first, and the records of the open word. -/
structure TqSt where
  closed : List (List Nat) := []
  opened : List Nat := []
deriving DecidableEq, Repr, Inhabited

/-- A pool sweep in progress (R58). -/
structure Sweep where
  next : Nat := 0
  rebuild : Bool := false
  reading : Bool := false
deriving DecidableEq, Repr, Inhabited

/-- Admission and the Thallus pool (R44–R58). -/
structure AdmSt where
  sq : Tbl SqSt := []
  /-- The ring visited last (R46). -/
  lastRing : Nat := 63
  hand : List Hand := []
  /-- The ticket of the direct path, between TKT_GO and its admission (R48). -/
  direct : Option Hand := none
  rejects : List Reject := []
  /-- Free cells in list order, as runs (first, length); a run of one cell that has been returned to the list is marked
  and is read from memory when it is taken (R54). -/
  free : List (Nat × Nat × Bool) := [(0, 1048576, false)]
  sweep : Option Sweep := none
  /-- Fetching has been stopped by a power fail, fail-safe or a pending power state. -/
  halted : Bool := false
deriving DecidableEq, Repr, Inhabited

/-- The power-fail manifest (R72–R75, R494, R458). -/
structure PfmSt where
  /-- The region must be read: PFMEN or PFM_BASE has just made the manifest armable. -/
  armDue : Bool := false
  /-- The read of the two halves: bytes so far, and whether one ended in a bus error. -/
  reading : Bool := false
  got : List Byte := []
  bad : Bool := false
  /-- The reads of the region begun so far, by which the pages of one that was given up are told apart. -/
  gen : Nat := 0
  /-- Full SEQ of the last manifest (R494). -/
  seq : Nat := 0
  /-- LG_TIME at t0 (R74), and at the last fall of PFAIL_N (R72). -/
  t0 : Nat := 0
  fell : Nat := 0
  /-- The entries being written, with the poison mark of R458, the next one, its retries, and whether one failed. -/
  entries : List (List Byte × Bool) := []
  next : Nat := 0
  tries : Nat := 0
  failed : Bool := false
  /-- 0 none, 1 entries being written, 2 entries answered, 3 header being written, 4 written. -/
  phase : Nat := 0
  empty : Bool := false
  /-- The cells the entries stand for, freed with them (R54). -/
  cells : List Nat := []
deriving DecidableEq, Repr, Inhabited

/-- A patch load or clear in progress (R106–R109). -/
structure PatLoad where
  clear : Bool := false
  /-- 1 draining, 2 reading. -/
  phase : Nat := 1
  got : List Byte := []
  pos : Nat := 0
  err : Bool := false
  /-- Loaded by a warm swap from a slot rather than from PAT_SRC (R426). -/
  swap : Bool := false
deriving DecidableEq, Repr, Inhabited

/-- What a Lift request is for (R130–R132). -/
inductive Who
  /-- The start of the tickets of these cells: one, or a multi-plane group; `cache` says that BRCOND 5 holds (R122). -/
  | start (cells : List Nat) (cache : Bool)
  /-- A run of work already started: a resumption, a ladder run, a soft read, a suspend, a resume, a COPY target side,
  or work without a ticket, held as a context of the channel. -/
  | ctx (id : Nat)
  /-- The next step of a calibration run (R272). -/
  | calStep
  /-- Waking the channel's PHY (R131). -/
  | wake
deriving DecidableEq, Repr

/-- A request pending at Lift (R132). -/
structure LReq where
  ch : Nat
  who : Who
  cost : Nat
  rank : Nat
  aged : Bool := false
  /-- The CCLK cycle it was placed in, as the model counts the cycles in which requests are placed. -/
  cycle : Nat := 0
deriving DecidableEq, Repr

/-- Tokens held (R131): by a context, by a wake, or left behind by a routine that ended without its die reporting ready. -/
structure Tok where
  ch : Nat
  ctx : Option Nat
  array : Nat
  io : Nat
  /-- A class-1 or class-2 request holding ARRAY tokens (R134). -/
  pgm : Bool
deriving DecidableEq, Repr

/-- The Lift gate (R129–R136). -/
structure LiftSt where
  reqs : List LReq := []
  toks : List Tok := []
  /-- The reserved request, by channel and whether it is a wake (R132). -/
  resv : Option (Nat × Bool) := none
  /-- The channel granted last (R132; assumption 115). -/
  last : Nat := 31
  cycle : Nat := 0
deriving DecidableEq, Repr, Inhabited

/-- The state of a context (R77, R78, R103). -/
inductive CtxSt
  /-- Waiting for its Lift grant or for the sequencer. -/
  | eligible
  /-- Granted; its Lichen Map line is being fetched (R175). -/
  | mapWait
  | running
  | gap
  /-- Parked at a WAITRDY, its die busy. -/
  | parked
  /-- Parked; the die has become ready. -/
  | ready
  /-- Parked at a MARK under a bus-time slice (R127). -/
  | sliced
  /-- The ticket is suspended (R101). -/
  | suspended
  /-- Its run has ended; codewords of its tickets are being decoded or wait for a soft decoder. -/
  | decoding
  /-- The fence of its die acts when it next ends or parks (R259). -/
  | halted
deriving DecidableEq, Repr, Inhabited

/-- What a run does for its ticket, or for no ticket. -/
inductive Work
  | first
  | retry
  | soft
  | target
  | suspend
  | resume
  | setTiming
  | enum
  | cal
  | sanitise
  | recover
  | report
  /-- READ_CACHE_LAST for a read sequence that is cut off (R122). -/
  | close
deriving DecidableEq, Repr, Inhabited

/-- What a calibration has measured so far (R272): per DQ bit the read and write eyes as masks over the 128 delay positions
(for several targets, their intersection), the VREF codes that pass, the strobe delays, the duty pair, and the temperature
at step 1. -/
structure CalM where
  rd : List Nat := []
  wr : List Nat := []
  vref : Nat := 0
  rdqs : Nat := 0
  wdqs : Nat := 0
  dccRe : Nat := 0
  dccDqs : Nat := 0
  temp : Nat := 0
deriving DecidableEq, Repr, Inhabited

/-- A sequencer context (R77, R88, R110). -/
structure Ctx where
  cells : List Nat := []
  work : Work := .first
  st : CtxSt := .eligible
  dix : Nat := 0
  cls : Nat := 0
  cost : Nat := 0
  rix : Nat := 0
  entry : Nat := 0
  commitAt : Nat := 0x7FFF
  mw : Nat := 0
  stack : List Nat := []
  loop : Nat := 0
  status : Nat := 0
  committed : Bool := false
  restarts : Nat := 0
  reentry : Option Nat := none
  /-- The read-offset bytes of the operand snapshot (R88). -/
  offs : List Byte := []
  scratch : List Byte := []
  /-- Operands of work without a ticket: block, page, feature address, parameters, planes, length. -/
  blk : Nat := 0
  page : Nat := 0
  feat : Nat := 0
  parms : List Byte := []
  planes : Nat := 0
  len : Nat := 0
  cwFirst : Nat := 0
  cwCnt : Nat := 0
  prof : Nat := 0
  /-- Planes named in PLANES and not yet visited in this pass, the one in hand first (R83 PLNEXT, BRCOND 4). -/
  left : Nat := 0
  /-- BRCOND 5: in a cache sequence. -/
  cache : Bool := false
  /-- BRCOND 6: Slalom requests a suspend. -/
  suspAsk : Bool := false
  /-- A link-frame CRC error struck the nanoword in progress (R99). -/
  linkErr : Bool := false
  /-- Bus time of the piece in progress, in half PHY periods (R86, R98). -/
  units : Nat := 0
  /-- Bytes received by DOUT bursts of this run that go to the splitter or to staging, per plane (R83). -/
  dout : Tbl (List Byte) := []
  /-- Codewords cut from the bursts so far, per plane (R147). -/
  cuts : Tbl Nat := []
  /-- The plane a ladder or soft-read run reads, its codewords to bring out, and the soft position (R153, R155). -/
  plane : Nat := 0
  want : List Nat := []
  pos : Nat := 0
  /-- Status bytes captured per plane (R201), and the last. -/
  stats : Tbl Nat := []
  /-- Timeout class of the WAITRDY in progress (R255). -/
  tocls : Nat := 0
  /-- ECHO hang injection holds this routine (R471). -/
  hang : Bool := false
  /-- Ladder step or soft-read delta group this run belongs to (R153, R156). -/
  step : Nat := 0
  /-- The die has been busy for SLM_SUSP.MINRUN since the commit or the last resume (R123). -/
  minrun : Bool := false
  /-- The suspend branch has been taken in this run (R101). -/
  susping : Bool := false
  /-- The cache-sequence predecessor whose array program this ticket's status reports (R202). -/
  pred : Option Nat := none
  /-- A post-commit MARK has been executed (R99). -/
  marked : Bool := false
  /-- The nanowords since the last park began outside a grant: bus time of the slice in hand, in ns (R127). -/
  held : Nat := 0
  /-- Die busy time of the operation, in ns (R64). -/
  busy : Nat := 0
  /-- When it became ready, in the channel's order of such events (R116). -/
  since : Nat := 0
  /-- The step of the calibration, enumeration or CAL ticket this run belongs to. -/
  stage : Nat := 0
  /-- A CAL ticket's measurements, and the dies its stage has still to run on (R272, R284). -/
  meas : CalM := {}
  more : List Nat := []
  /-- Parked after a restart: it reruns from its entry when it is granted (R93). -/
  rerun : Bool := false
  /-- A link error struck a WAITRDY past commit as its readiness sample came: it re-tests at its next interval (R99). -/
  resample : Bool := false
  /-- The class of the READ that asks for the suspend (R123), and whether the resume has become eligible (R125). -/
  ask : Nat := 0
  due : Bool := false
  /-- LG_TIME at which the nanoword in progress began, while its bus time is not yet counted (R98, assumption 119). -/
  began : Option Nat := none
  /-- A DIN past commit has read an uncorrectable staging word (R100, R207). -/
  spoiled : Bool := false
  /-- Started in a cache sequence, its first and last included (R122, R219). -/
  inSeq : Bool := false
deriving DecidableEq, Repr, Inhabited

/-- The row-address layout recorded with a die's geometry (R496): field widths and the place of the plane-select bits. -/
structure Layout where
  pageW : Nat := 0
  blkW : Nat := 0
  lunW : Nat := 0
  planeLo : Nat := 0
  planeW : Nat := 0
deriving DecidableEq, Repr, Inhabited

/-- What Rinva keeps of a die beside its registers (R252, R496). -/
structure Die where
  /-- The interface it enumerated with, as CH_STAT.IF numbers it; 0 none (R247). -/
  iface : Nat := 0
  layout : Layout := {}
  /-- Rates the die declares, in units of 100 MT/s, extended points included (R249, R250). -/
  rates : List Nat := []
  /-- A fence waiting for the boundary of a running routine, with its cause (R258). -/
  fenceDue : Option Nat := none
deriving DecidableEq, Repr, Inhabited

/-- What a LUN held before the enumeration of its target (R495). -/
structure DieSave where
  die : Nat
  state : Nat
  capped : Nat
  geom0 : List Nat
  geom1 : List Nat
  iface : Nat
  layout : Layout
  rates : List Nat
deriving DecidableEq, Repr, Inhabited

/-- An enumeration in progress (R252): the target reached, the step within it (6: SET_TIMING and the calibration that end it),
LUNs still to reset. -/
structure Enum where
  target : Nat := 0
  step : Nat := 0
  luns : List Nat := []
  copies : Nat := 0
  fam : Nat := 0
  /-- The channel's first family. -/
  first : Nat := 0
  boot : Bool := false
  /-- CH_STAT.MAXOK before this enumeration (R495). -/
  maxok : Nat := 0
  /-- What the LUNs of the target in hand held before it was reached (R495). -/
  saved : List DieSave := []
deriving DecidableEq, Repr, Inhabited

/-- The interrupt controller (R315–R325): P of edge sources, claimed sources with their claimer, presentations, the
per-target state, and the level sample that counts a moderation group's events. -/
structure IntSt where
  /-- P bits of edge sources (R315). -/
  pend : Nat := 0
  /-- Active sources and the target that claimed each (R315, R321). -/
  act : Tbl Nat := []
  /-- Presentations: target ↦ (source, vector address) (R317, R318). -/
  pres : Tbl (Nat × Nat) := []
  /-- Targets whose VEC_REQ stays low for the cycle after an acceptance (R318). -/
  gap : Nat := 0
  /-- TGT_IDLE as synchronised (R324). -/
  idle : Nat := 0
  /-- Wake latches, in the always-on block (R325). -/
  wake : Nat := 0
  /-- The level inputs at the last CCLK cycle, for the rises R323 counts. -/
  seen : Nat := 0
  /-- CNT in force for a hold-off, taken at its entry (R323). -/
  modCnt : Tbl Nat := []
  /-- Events the always-on block raised in Nap or Hibernate, held there (R326). -/
  held : List Nat := []
  /-- Per target, the better sources that were presentable to it when its presentation was last weighed (R318). -/
  known : Tbl (List Nat) := []
deriving DecidableEq, Repr, Inhabited

/-- A spore in a routing channel's register stage, with the destination and attribute under which it was taken (R331). -/
structure Spore where
  chan : Nat
  dst : Nat
  ns : Bool
deriving DecidableEq, Repr, Inhabited

/-- The Spore router (R327–R337). -/
structure SprSt where
  /-- Spores in the channels' register stages, oldest first. -/
  stage : List Spore := []
  /-- Consecutive cycles in which a LUT cell's function has been 1, cells that are to fire, and cells that have fired and
  whose function has not returned to 0 (R335). -/
  filt : Tbl Nat := []
  due : Nat := 0
  spent : Nat := 0
  /-- Re-entries counted in this window, per channel (R337). -/
  reent : Tbl Nat := []
deriving DecidableEq, Repr, Inhabited

/-- One bank of a tenant record (R343). -/
structure Bank where
  reads : Nat := 0
  programs : Nat := 0
  erases : Nat := 0
  others : Nat := 0
  rdcw : Nat := 0
  wrcw : Nat := 0
  retries : Nat := 0
  softdec : Nat := 0
  reloccw : Nat := 0
  bustime : Nat := 0
  energy : Nat := 0
  flags : Nat := 0
  bcrc : Nat := 0
deriving DecidableEq, Repr, Inhabited

/-- The counters of a bank that a charge names (R343). -/
inductive Ctr
  | reads | programs | erases | others | rdcw | wrcw | retries | softdec | reloccw
deriving DecidableEq, Repr

/-- An export in progress (R349): the header's contents, the next entry and the retries of the write in hand. -/
structure Export where
  half : Nat := 0
  seq : Nat := 0
  flags : Nat := 0
  period : Nat := 0
  tstart : Nat := 0
  tend : Nat := 0
  ecoef : List Nat := []
  next : Nat := 0
  tries : Nat := 0
  failed : Bool := false
  /-- The header write has been issued. -/
  header : Bool := false
  /-- TN_CFG fields as they stood at the swap (R349, byte 58). -/
  cfgAt : Tbl Nat := []
deriving DecidableEq, Repr, Inhabited

/-- Why a swap takes place (R348, R352). -/
inductive SwapKind where
  | scheduled | snap | powerFail | merged
deriving DecidableEq, Repr, Inhabited

/-- The tenant ledger (R341–R355): the two banks of every tenant, those not listed reading as the default bank. -/
structure LedSt where
  active : Tbl Bank := []
  activeD : Bank := {}
  frozen : Tbl Bank := []
  frozenD : Bank := {}
  /-- SEQ of the last swap (R349). -/
  seq : Nat := 0
  /-- LG_TIME at the previous swap (R349). -/
  lastSwap : Nat := 0
  /-- The half of LG_EXP not written last (R349). -/
  nextHalf : Nat := 0
  run : Option Export := none
  /-- Swaps that wait for an export to end, in the order they fell due (R351, R352). -/
  due : List SwapKind := []
  /-- The LG_TIME at which the last scheduled swap fell due (R348). -/
  swapAt : Option Nat := none
  /-- The LG_TIME of the last cap interval boundary (R353). -/
  capAt : Option Nat := none
  /-- LG_TIME_LO held until LG_TIME_HI is written (R358). -/
  timeHeld : Option Nat := none
  /-- Tenant ranges of sealed ledger resets waiting for the export to end (R355). -/
  resets : List (Nat × Nat) := []
  /-- A sealed reset took place since the last export header (R355). -/
  resetMark : Bool := false
  /-- The banks a power-fail swap has frozen stay as they are until SRST_N (R352). -/
  pfailHeld : Option Export := none
  /-- The same after SRST_N, exported before any further swap (R352). -/
  pfailExport : Option Export := none
  /-- Exact bus time of the cap interval in ns, per tenant; TN_CAPUSE shows it in units of 100 ns (R353). -/
  capNs : Tbl Nat := []
  /-- Tenants whose parameters an uncorrectable word has taken (R365, region 5). -/
  lost : List Nat := []
  /-- Swaps fell due while CCLK was stopped (R352). -/
  mergedDue : Bool := false
deriving DecidableEq, Repr, Inhabited

/-- A cluster's patch words and index entries (R104). -/
structure PatWords where
  pmw : Tbl Nat := []
  pnw : Tbl Nat := []
  rix : Tbl (Nat × Nat) := []
deriving DecidableEq, Repr, Inhabited

/-- Power states (R387–R391). -/
structure PmSt where
  /-- In Hibernate: CORE off. -/
  hib : Bool := false
  /-- The PHYs have gone off for an entry, and the empty manifest has been written or is being written (R388). -/
  off : Bool := false
  /-- The fail-safe causes recorded in Nap or Hibernate, in order of arrival, taking effect at the wake (R388, R392). -/
  causes : List Nat := []
  /-- The words and index entries of each cluster's patch store that a wake from Hibernate reloads (R490). -/
  patch : Tbl PatWords := []
deriving DecidableEq, Repr, Inhabited

/-- Instructions of the IEEE 1500 wrapper (R474). -/
inductive WsInstr
  | bypass | extest | intest | scan | mbist | fuserd | fusepgm | observe | deposit
deriving DecidableEq, Repr, Inhabited

/-- Test state (R474, R475). -/
structure TstSt where
  /-- Test mode of the IEEE 1500 wrapper. -/
  testMode : Bool := false
  /-- The wrapper instruction in force. -/
  instr : WsInstr := .bypass
  /-- The one-bit bypass register, the boundary register, and the scan chains as last shifted. -/
  byp : Bool := false
  boundary : List Bool := []
  scan : List Bool := []
  /-- The bits, and the words of FUSERD and OBSERVE, that the wrapper last shifted out. -/
  wso : List Bool := []
  words : List Nat := []
  /-- Per region MBIST's pass bit and failing rows. -/
  mbist : List (Bool × List Nat) := []
deriving DecidableEq, Repr, Inhabited

/-- The fuse shadow loaded at PORST_N (R398): the unique ID, the trims and the repair entries. -/
structure FuseShadow where
  uid : List Byte := []
  trims : Tbl Nat := []
  repairs : List (Nat × Nat × Nat) := []
deriving DecidableEq, Repr, Inhabited

/-- A ticket's copy of its code profile (R142, R165). -/
structure Prof where
  parity : Nat := 4
  cwpp : Nat := 4
  rand : Bool := true
  raw : Bool := false
  hiter : Nat := 20
  valid : Bool := false
  rtbase : Nat := 0
  rtyn : Nat := 0
  softd : Nat := 0
  sstep : Nat := 4
  scentre : Nat := 0
  siter : Nat := 30
  erthr : Nat := 128
  erfill : Bool := true
deriving DecidableEq, Repr, Inhabited

/-- What has become of a codeword of a READ or COPY ticket (R159). -/
inductive CwOut
  | pending
  | failing
  | okFirst
  | okLadder
  | okSoft
  | erased
  | uncorr
deriving DecidableEq, Repr, Inhabited

/-- A codeword on its way to a decoder (R147): its ticket, plane, index within the plane page, whether it is of a first
read, its 0 bits before de-randomisation, its de-randomised bytes and the read offsets applied. -/
structure Cw where
  cell : Nat
  ten : Nat
  ch : Nat
  ctx : Nat
  plane : Nat
  idx : Nat
  first : Bool
  zeros : Nat
  bytes : List Byte
  offs : List Byte
  /-- Its last byte is in; until then it holds its decoder's ingest stage, or its place in staging (R147). -/
  whole : Bool := true
  /-- Decoded, and awaiting write-out (R147). -/
  done : Bool := false
deriving DecidableEq, Repr, Inhabited

/-- A cell of the Thallus pool that holds a ticket (R53), with what Rinva keeps of the ticket while it lives. -/
structure Cell where
  /-- The ticket's 64 bytes (R41). -/
  tkt : List Byte := []
  /-- STATE of R53: 1 queued, 2 started, 3 suspended, 4 done. -/
  st : Nat := 1
  sq : Nat := 0
  slot : Nat := 0
  /-- The dies the ticket acts on, resolved at admission (R263), the second for a COPY's target. -/
  dix : Nat := 0
  tdix : Nat := 0
  /-- The class of the queue it is linked on, the tenant its cell counts for, and the stripe member it claims with CLOSE:
  a refetched cell changes none of them (R213, R341, R499). -/
  qcls : Nat := 0
  uten : Nat := 0
  claim : Option (Nat × Nat × Bool) := none
  /-- In the on-chip cache; its first write-back is outstanding; a fetch is outstanding (R56); a fetch has failed while its
  record waited (R57, assumption 80). -/
  cached : Bool := true
  fresh : Bool := true
  fetching : Bool := false
  bad : Bool := false
  /-- The ticket started: a completion slot is reserved and it holds a place on its die (R60, R114). -/
  started : Bool := false
  /-- The outcome, once decided. -/
  out : Option Outcome := none
  retry : Nat := 0
  susp : Nat := 0
  /-- Data writes without a response (R38), and whether one ended in a bus error. -/
  writes : Nat := 0
  /-- Its outcome goes to the manifest, not to its ring (R73, R458), or is never reported (R75). -/
  manifest : Bool := false
  /-- The charges of its record's issue have been applied (R344). -/
  charged : Bool := false
  /-- What the record's issue charges (R343, R344, R346). -/
  rdcw : Nat := 0
  enc : Nat := 0
  xfer : Nat := 0
  committed : Bool := false
  relocated : Nat := 0
  /-- Copies of the source and target profiles (R142), and the tenant's salt as it stood at the start (R145). -/
  prof : Option Prof := none
  tprof : Option Prof := none
  salt : Nat := 0
  /-- Staging bytes reserved on the source and on the target side (R113). -/
  stg : Nat := 0
  tstg : Nat := 0
  /-- Outcomes of the ticket's codewords by plane × 8 + index (R159), and bits corrected (R162). -/
  cws : Tbl CwOut := []
  corrected : Nat := 0
  /-- Decoded codewords held for a COPY, and encoded codewords of a PROGRAM or COPY target (R29). -/
  plain : Tbl (List Byte) := []
  coded : Tbl (List Byte) := []
  /-- A PROGRAM's data fetch (R195): reads without an answer, and whether one failed. -/
  rxLeft : Nat := 0
  rxBad : Bool := false
  /-- The write of the data into staging met an uncorrectable word (R364). -/
  rxUe : Bool := false
  /-- When it came to wait for the encoder of its channel, a COPY's target channel, as that channel counts (R40, R232). -/
  wait : Nat := 0
  /-- Every codeword the ticket names has been encoded into staging (R195, R234). -/
  ready : Bool := false
  /-- The hold slot a PROGRAM takes its data from (R204). -/
  hold : Option Nat := none
  /-- The member's take is in progress (R212). -/
  taking : Bool := false
  /-- A COPY's stream (R227), its bitmap once read (R228), whether it waits between its sides, and whether its target
  side has been granted (R233). -/
  stream : Option Nat := none
  bitmap : Option Nat := none
  between : Bool := false
  onTgt : Bool := false
  /-- A second bitmap read is outstanding (R234). -/
  recheck : Bool := false
deriving DecidableEq, Repr, Inhabited

/-- What Rinva does with a pad (R245): a level, high impedance, an internal pull, a keeper, a pulse or a toggling strobe, or
the bytes of a cycle. -/
inductive PadLvl
  | low
  | high
  | hiZ
  | pullUp
  | pullDown
  | kept
  | strobe
  | bytes
deriving DecidableEq, Repr, Inhabited

/-- The channel's output pads (R242, R245): the row in force (0 reset, 1 idle, 2 a nanoword, 3 fail-safe, 4 PHY off), the
chip enables with how they are held, the other pads, and the bytes of the last cycle that drove Fcc_DQ. -/
structure Pads where
  row : Nat := 0
  ceN : Nat := 0xFF
  ce : PadLvl := .pullUp
  wpN : PadLvl := .pullDown
  ale : PadLvl := .hiZ
  cle : PadLvl := .hiZ
  weN : PadLvl := .hiZ
  reT : PadLvl := .hiZ
  reC : PadLvl := .hiZ
  dqs : PadLvl := .hiZ
  dqDrive : PadLvl := .hiZ
  dq : List Byte := []
deriving DecidableEq, Repr, Inhabited

/-- A calibration run of a channel (R272–R279): the step to run next or running, the run's die, the trigger, and what the
steps measured. -/
structure CalSt where
  step : Nat := 0
  die : Nat := 0
  trig : Nat := 0
  forced : Bool := false
  /-- A code-2 run holds every start of the channel (R277). -/
  hold : Bool := false
  /-- The state before the run was VALID (R278, code 6). -/
  wasValid : Bool := false
  /-- ZQ_LONG is due at step 2 (R272). -/
  long : Bool := false
  meas : CalM := {}
  /-- Dies still to be trained in this step (ALLT). -/
  more : List Nat := []
  /-- LG_TIME at the last Glide step (R280). -/
  last : Nat := 0
  /-- No run has passed since the last event of R283 that lasts until one passes. -/
  stale : Bool := true
deriving DecidableEq, Repr, Inhabited

/-- A channel: its contexts, Slalom's run-time state and its ready/busy groups. -/
structure Ch where
  ctxs : Tbl Ctx := []
  nextId : Nat := 0
  /-- Started work that has become ready so far, by which its age is told (R116). -/
  tick : Nat := 0
  /-- The context holding the bus. -/
  run : Option Nat := none
  /-- Selections passed over per class 1–3 (R117). -/
  starve : Tbl Nat := []
  /-- Group picked last by the deficit round-robin (R118; assumption 115). -/
  lastGrp : Nat := 15
  enum : Option Enum := none
  /-- Ready/busy lines: bit g set while Fcc_RB_N[g] is high. -/
  rb : Nat := 3
  /-- Reads ended since a die of the channel was suspended (R125), by die. -/
  burst : Tbl Nat := []
  /-- Hold slots: the encoded codewords each keeps (R203), by slot. -/
  holds : Tbl (Tbl (List Byte)) := []
  /-- Staging bytes each hold slot keeps (R203). -/
  holdStg : Tbl Nat := []
  pads : Pads := {}
  /-- Open cache sequences: die ↦ the cell and bytes of the ticket of the sequence started last (R122). -/
  seqs : Tbl (Nat × List Byte) := []
  /-- The die, within the channel, that Slalom served last (R116; assumption 115). -/
  lastDie : Nat := 31
  cal : CalSt := {}
  /-- Dies of the channel whose rate change or enumeration still needs SET_TIMING, and the rate to take (R249). -/
  timing : List Nat := []
  newRate : Option Nat := none
  /-- A rate change has been requested and has not begun (R249). -/
  rateWant : Bool := false
  /-- ECHO: the page register and the operations counted for PFAILN (R470, R471). -/
  echoPage : List Byte := []
  echoOps : Nat := 0
  /-- The PHY's class-4 request has been granted and its wake runs (R386). -/
  waking : Bool := false
  /-- The trace buffer (R110). -/
  trace : Tbl Nat := []
deriving DecidableEq, Repr, Inhabited

/-- A decode result for the drift tracker (R149, R181): the die, block, page and codeword, the offsets the read applied
and the counts of corrected bits whose decoded value is 1 and 0. -/
structure Track where
  dix : Nat
  blk : Nat
  page : Nat
  offs : List Byte
  n1 : Nat
  n0 : Nat
  first : Bool
  cell : Nat
  tlm : Bool
deriving DecidableEq, Repr, Inhabited

/-- A codeword's soft plane of 4 bits per codeword bit (R156): the hard decisions and the three bits of reliability, with the
number of positions combined so far. -/
structure SoftCw where
  count : Nat := 0
  hard : List Byte := []
  r0 : List Byte := []
  r1 : List Byte := []
  r2 : List Byte := []
deriving DecidableEq, Repr, Inhabited

/-- The soft-decoder pool (R156, R157): requests in order (cluster, channel, context, plane), and the decoders reserved,
with what their buffers hold: each codeword of the plane. -/
structure SdpSt where
  queue : List (Nat × Nat × Nat × Nat) := []
  held : Tbl (Nat × Nat × Nat × Nat) := []
  buf : Tbl (Tbl SoftCw) := []
deriving DecidableEq, Repr, Inhabited

/-- A cluster: its patch store and index entries (R104). -/
structure Cl where
  pmw : Tbl Nat := []
  pnw : Tbl Nat := []
  /-- Index entries of the patch image: entry and commit microwords (R89). -/
  rix : Tbl (Nat × Nat) := []
  pat : Option PatLoad := none
  /-- Staged codewords awaiting a hard decoder, oldest first (R147). -/
  staged : List Cw := []
  /-- The ten hard decoders' codewords (R147). -/
  hdec : Tbl (List Cw) := []
  /-- Decode results queued for the drift tracker (R181). -/
  trk : List Track := []
  /-- The hottest channel sensor at the last pass of the impedance search, in 0.5 °C (R270). -/
  zqTemp : Option Int := none
deriving DecidableEq, Repr, Inhabited

/-- A member's codewords on their way into an accumulator (R212). -/
structure Take where
  member : Nat
  cell : Nat
  cws : List (List Byte)
  /-- The stripe it was for has been discarded: its bytes are too (R217). -/
  lost : Bool := false
deriving DecidableEq, Repr

/-- A parity accumulator's contents and the transfers it has in hand (R209–R215, R449). -/
structure AccSt where
  /-- Codeword slots, by index; a slot not listed is zero. -/
  slots : Tbl (List Byte) := []
  /-- The bytes after the last slot, zero where not listed (R449). -/
  tail : List Byte := []
  takes : List Take := []
  /-- Fabric requests of an emission, spill or restore without an answer, and whether one failed. -/
  left : Nat := 0
  bad : Bool := false
  spilling : Bool := false
  /-- Image bytes received by a restore, by offset. -/
  image : Tbl (List Byte) := []
  /-- SENDER: the FRAG frames have been sent and the FRAGACK has not come (R449). -/
  waitAck : Bool := false
  /-- RECEIVER: the sender of the fragment in progress and the next frame index (R449). -/
  frag : Option (Nat × Nat) := none
deriving DecidableEq, Repr, Inhabited

/-- A tracking slot of a cluster's drift tracker (R183): the record's die, block and zone, the bias of each level, the
decode count, the move flag, and when it was updated last. -/
structure LmSlot where
  dix : Nat
  blk : Nat
  zone : Nat
  bias : Tbl Int := []
  count : Nat := 0
  moved : Bool := false
  stamp : Nat := 0
deriving DecidableEq, Repr

/-- A whole-line write in flight (R178): what each changed level counts as when it lands (R184, R192). -/
structure LmWrite where
  line : Nat
  bytes : List Byte
  /-- Levels moved: level, new offset, up. -/
  moves : List (Nat × Int × Bool) := []
  pull : Bool := false
  /-- The die, the zone, and whether telemetry follows. -/
  dix : Nat := 0
  zone : Nat := 0
  tlm : Bool := false
  seed : Bool := false
deriving DecidableEq, Repr

/-- The Lichen Map unit (R173–R189). -/
structure LmSt where
  /-- Cache sets: lines and their bytes, most recently used first (R177). -/
  cache : Tbl (List (Nat × List Byte)) := []
  /-- Lines with a fetch outstanding. -/
  fetching : List Nat := []
  /-- Line writes in flight; their lines are locked. -/
  writes : List LmWrite := []
  slots : Tbl (List LmSlot) := []
  stamp : Nat := 0
  /-- A seed's records still to be read and written: die, block, zone. -/
  seeds : List (Nat × Nat × Nat) := []
  /-- CONF and the offsets, in level order, that the seed's GO gave (R186). -/
  seedConf : Nat := 0
  seedOffs : List Nat := []
  /-- The sweep's next unit, die and block pair; a unit read or written and unanswered; STOP asked for. -/
  sweep : Option (Nat × Nat) := none
  unitBusy : Bool := false
  unitWrite : List Byte := []
  /-- The unit's lines that the sweep changes. -/
  unitLines : List Nat := []
  stop : Bool := false
deriving DecidableEq, Repr, Inhabited

/-- An entry of the correctable-error log (R369). -/
structure LogEnt where
  region : Nat
  word : Nat
  kind : Nat
  repeats : Nat := 0
  synd : Nat := 0
  time : Nat := 0
deriving DecidableEq, Repr, Inhabited

/-- A page's two check symbols and the SECDED bits of the word that holds them (R361). -/
structure PageChk where
  s0 : Nat := 0
  s1 : Nat := 0
  code : Nat := 0
deriving DecidableEq, Repr, Inhabited

/-- Memory protection (R367–R372): the log, each region's scrub position, the regions that have passed since the last lap,
pages with an error in this pass, and the armed injection of R473 is in TST_INJ. -/
structure MpSt where
  log : List LogEnt := []
  pos : Tbl Nat := []
  passed : Nat := 0
  pageErr : Nat := 0
  /-- The mode the next fill uses, as a header recorded it (R372, R400, R406). -/
  init : Nat := 0
  /-- The region a firmware fill is writing (R372). -/
  filling : Nat := 0
  /-- Poisoned words and words an injection has corrupted (region × 2^20 + word ↦ 0 poison, 1 single, 2 double). -/
  bad : Tbl Nat := []
  /-- The words that commands have brought as writes, by the same key; any other holds what its unit's own state says, and
  enters the check as its fill left it, zero (assumption 101). -/
  words : Tbl Nat := []
  /-- Page checks, by the key of a page's first word; an unlisted page's are those of a filled page (R361, R372). -/
  chk : Tbl PageChk := []
  alarmed : Bool := false
  /-- µs of the lap since MP_LAP.CUR last counted (R367). -/
  lapUs : Nat := 0
deriving DecidableEq, Repr, Inhabited

/-- A temperature sensor's history (R377, R378). -/
structure SensSt where
  cnt : Nat := 0
  same : Nat := 0
  prev : Option Int := none
  dev : Nat := 0
  probe : Nat := 0
  /-- The zone's own level, without its floor, and the 10 µs windows since its last rise (R379). -/
  z : Nat := 0
  age : Nat := 1048576
  /-- TS_s.STATE as it was when the sensor's domain went off; the register then reads HELD (R376). -/
  was : Nat := 0
deriving DecidableEq, Repr, Inhabited

/-- Thermal state (R379–R384). -/
structure ThSt where
  sens : Tbl SensSt := []
  /-- The trip of R383 is in force, until either reset. -/
  trip : Bool := false
  /-- SEQ of the last record of the thermal log (R384). -/
  logSeq : Nat := 0
  /-- The log record of a trip waiting for its NOR program. -/
  record : Option (List Byte) := none
  /-- A zone's evaluation drove the level to 7 after a tripped reset (R383). -/
  holdTrip : Bool := false
deriving DecidableEq, Repr, Inhabited

/-- The configuration NOR (R404–R405): its bytes that differ from 0xFF, whether discovery found it, and the lowest address
an operation in progress touches. -/
structure NorSt where
  mem : Tbl Byte := []
  found : Bool := false
  /-- The quad-enable bit of the NOR's own status registers (R404). -/
  qe : Bool := false
  /-- What discovery took from the tables (R404): the read in use with its dummy clocks, and the 4 KiB erase. -/
  readOp : Nat := 0
  readDummy : Nat := 0
  eraseOp : Nat := 0
  /-- The opcodes that this boot's discovery has issued, in order. -/
  issued : List Nat := []
  /-- Programs of the sealed command in progress, an address and a length each: a loss of supply may find them undone
  (R428). -/
  undone : List (Nat × Nat) := []
deriving DecidableEq, Repr, Inhabited

/-- The boot-pointer record in force (R423). -/
structure BootPtr where
  seq : Nat := 0
  active : Nat := 0
  trial : Bool := false
  tries : Nat := 0
  prev : Nat := 1
  minver : Nat := 0
deriving DecidableEq, Repr, Inhabited

/-- Update sessions, warm swap, sealed commands and sanitise (R418–R433). -/
structure UpdSt where
  /-- Bytes received this session, by offset; those in the intake; those being programmed (R419). -/
  got : Tbl Byte := []
  intake : Tbl Byte := []
  prog : Tbl Byte := []
  /-- The intake is to be programmed as soon as the NOR is free. -/
  flush : Bool := false
  /-- The verification in progress is of a stored slot, without a session (R421). -/
  stored : Bool := false
  /-- An ABORT or an event of R435 waits for the NOR operation. -/
  aborting : Bool := false
  /-- NOR operation in progress: 0 none, 1 erase, 2 program. -/
  nor : Nat := 0
  bp : BootPtr := {}
  /-- The slot in force (R427). -/
  slot : Option Nat := none
  /-- The public key in force (R416). -/
  key : Option (List Byte) := none
  /-- The next boot goes to recovery (R429). -/
  recoverNext : Bool := false
  /-- Warm swap: the cluster in load and the slot loaded; when reverting, the clusters still to reload. -/
  swapAt : Option Nat := none
  swapSlot : Nat := 0
  swapBack : List Nat := []
  /-- Sanitise: the last block, and per die the block in hand. -/
  sanLast : Nat := 0
  san : Tbl Nat := []
deriving DecidableEq, Repr, Inhabited

/-- The ring link (R437–R449): RL_CLK present, RL_ACTIVE, the next SEQ, own frames not yet returned (SEQ and TYPE), the
frames the link has put out, oldest first. -/
structure RingSt where
  clock : Bool := true
  active : Bool := false
  seq : Nat := 0
  outstanding : List (Nat × Nat) := []
  sent : List Frame := []
  /-- RL_TX_READY, an input (R437), and the frame held on the link while it is low. -/
  txReady : Bool := true
  tx : Option Frame := none
  /-- Own frames given up that may still come round, oldest first (R443). -/
  late : List (Nat × Nat) := []
  /-- Frames that wait for the link: those to forward, at most eight, and this member's own (R438, R441). -/
  fwd : List Frame := []
  own : List Frame := []
  /-- Forwarded frames sent in a row (R441). -/
  run : Nat := 0
  /-- Values of RG_CFG, RG_CFG2 and RG_CFG3 written and not yet in effect (R451). -/
  cfg : FMap := []
  /-- µs that LG_TIME still does not count (R444). -/
  hold : Nat := 0
  /-- The dead instance recorded at an epoch: (epoch, instance) (R445). -/
  deadAt : Option (Nat × Nat) := none
  /-- Drift summaries being written: write ↦ responses to come, and whether one failed (R448). -/
  drift : Tbl (Nat × Bool) := []
  /-- Summaries written to the region so far. -/
  driftCount : Nat := 0
deriving DecidableEq, Repr, Inhabited

/-- The fail-safe state's own bookkeeping (R456–R458): a power-fail sequence runs, and t0 of the manifest. -/
structure FsSt where
  pfail : Bool := false
  /-- A power fail has been recognised in the fail-safe state of another cause (R450). -/
  seen : Bool := false
  /-- The wait of R218 has ended. -/
  tw : Bool := false
  /-- The manifest was armed when the power fail was recognised (R494). -/
  armed : Bool := false
  /-- Tickets ended by the entry go to the manifest. -/
  man : Bool := false
deriving DecidableEq, Repr, Inhabited

/-- Levels at the boundary that the block drives or samples and that no register holds. -/
structure Pins where
  /-- PORST_N, SRST_N (R397, R399). -/
  porstN : Bool := true
  srstN : Bool := true
  /-- PFAIL_N and SUP_WARN_N (R72, R392). -/
  pfailN : Bool := true
  supWarnN : Bool := true
  /-- SAFE_IN[3:0] (R330). -/
  safeIn : Nat := 0
  /-- SAFE_OUT[11:0] and SPO_OUT[15:0] (R329, R330). -/
  safeOut : Nat := 0
  spoOut : Nat := 0
  /-- TH_TRIP_N (R383). -/
  thTripN : Bool := true
  /-- Clocks lost under R32 and R33: CCLK, the cluster links, CFGCLK, AONCLK. -/
  cclkLost : Bool := false
  linkLost : Nat := 0
  cfgLost : Bool := false
  aonLost : Bool := false
  /-- TEST_MODE at the release of PORST_N, and SPI_IN, WAKE_IN levels. -/
  testIn : Bool := false
  wakeIn : Bool := false
deriving DecidableEq, Repr, Inhabited

/-- The register port (R479–R483): the data of the last acknowledged access and the halves a read of an RO _LO register
latched, by domain and offset. -/
structure PortSt where
  rdata : Nat := 0
  ack : Bool := false
  latched : Tbl Nat := []
  /-- An access held while Rinva wakes from Nap, or not acknowledged (R480). -/
  waiting : List Access := []
deriving DecidableEq, Repr, Inhabited

/-- The block's state but for the fuses and the command queue. -/
structure Dev where
  regs : FMap := []
  shadow : FMap := []
  captured : FMap := []
  port : PortSt := {}
  pins : Pins := {}
  int : IntSt := {}
  spr : SprSt := {}
  led : LedSt := {}
  fab : Tbl Port := []
  answers : List Answer := []
  adm : AdmSt := {}
  cq : Tbl CqSt := []
  tq : Tbl TqSt := []
  cells : Tbl Cell := []
  dq : Tbl (List Nat) := []
  pfm : PfmSt := {}
  lift : LiftSt := {}
  chs : Tbl Ch := []
  cls : Tbl Cl := []
  sdp : SdpSt := {}
  dies : Tbl Die := []
  dma : Tbl DmaCh := []
  pm : PmSt := {}
  tst : TstSt := {}
  fuses : FuseShadow := {}
  acc : Tbl AccSt := []
  lm : LmSt := {}
  mp : MpSt := {}
  th : ThSt := {}
  nor : NorSt := {}
  upd : UpdSt := {}
  ring : RingSt := {}
  fs : FsSt := {}
  /-- The channel last granted the DMA issue slot, at each priority (R306). -/
  dmaLast : Nat := 15
  dmaLastHi : Nat := 15
  /-- The cluster that the exchange granted last, by destination: a cluster, 4 the instance-core accumulators, 5 the
  soft-decoder pool (R25). -/
  xch : Tbl Nat := []
  /-- The reset in force, or the boot after it, began with PORST_N (R397, R398). -/
  cold : Bool := true
  /-- Channels whose boot enumeration has not ended, a bit each (R410). -/
  bootCh : Nat := 0
  /-- The model's own counter: each value the spec leaves open is `Config.freeValue` at a fresh count. -/
  freeCtr : Nat := 0
deriving DecidableEq, Repr, Inhabited

/-- The fuse map (R371, R429–R432, R476). -/
structure Fuses where
  /-- FUSELOCK (R476). -/
  lock : Bool := false
  /-- HMAC keys and signing-key digests by index; blank when not listed (R416). -/
  hkeys : Tbl (List Byte) := []
  digests : Tbl (List Byte) := []
  /-- HIDX and SIDX (R432). -/
  hidx : Nat := 0
  sidx : Nat := 0
  /-- The unique ID (R406, R431). -/
  uid : List Byte := List.replicate 16 0
  /-- Repair entries: macro, row, spare, in the order burnt (R371). -/
  repairs : List (Nat × Nat × Nat) := []
  /-- Fused trims: the default of a trim field, by its key (R269). -/
  trims : Tbl Nat := []
deriving DecidableEq, Repr, Inhabited

/-- The reasons a step can stop. No meaning of this model raises one: every command the spec lists has an effect. -/
inductive Fault
  /-- Raised by nothing; the type must have a constructor. Safe. -/
  | noFault
deriving DecidableEq, Repr

/-- The reasons a command can be refused. -/
inductive Refusal
  /-- A command without a meaning yet. Safe. -/
  | notModelled (mnemonic : String)
deriving DecidableEq, Repr

/-- The machine: the block, its fuses, and the commands waiting, first in first out. -/
structure State where
  dev : Dev := {}
  fuse : Fuses := {}
  pending : List Instr := []
deriving DecidableEq, Repr

/-- The machine PORST_N leaves (R397, R490): in reset until RESET_RELEASE, every field at its reset value, tenant 0 enabled
(R342), blank fuses, nothing in the NOR, no command waiting. -/
def State.reset : State :=
  { dev := { regs := [(F.TN_CFG_EN.key 0, 1)], pins := { porstN := false } }, fuse := {}, pending := [] }

end Sys2Proof.Machine
end

