-- ==== Sys2Proof/Machine/Ops.lean ====
section
/-!
DEFINITION. The named operations on the register file, the event outputs every unit uses, and the form all meanings
share.
-/

namespace Sys2Proof.Machine

/-- The value in force of a field instance (R17). -/
def Dev.rd (d : Dev) (f : Fld) (i : Nat := 0) : Nat := (look d.regs (f.key i)).getD f.rst

/-- Put a value in force, cut to the field's width. -/
def Dev.wr (d : Dev) (f : Fld) (v : Nat) (i : Nat := 0) : Dev :=
  { d with regs := putD d.regs (f.key i) (v % 2 ^ f.w) f.rst }

/-- A one-bit field as a truth value. -/
def Dev.on (d : Dev) (f : Fld) (i : Nat := 0) : Bool := d.rd f i != 0

/-- Set or clear a one-bit field. -/
def Dev.put (d : Dev) (f : Fld) (b : Bool) (i : Nat := 0) : Dev := d.wr f (b2n b) i

/-- A saturating counter (R491 and the counters of every chapter). -/
def Dev.inc (d : Dev) (f : Fld) (i : Nat := 0) (n : Nat := 1) : Dev := d.wr f (satAdd f.w (d.rd f i) n) i

/-- A wrapping counter. -/
def Dev.incW (d : Dev) (f : Fld) (i : Nat := 0) (n : Nat := 1) : Dev := d.wr f (d.rd f i + n) i

/-- Take one off a counter, not below 0. -/
def Dev.decr (d : Dev) (f : Fld) (i : Nat := 0) (n : Nat := 1) : Dev := d.wr f (d.rd f i - n) i

/-- A 64-bit quantity held in two registers (R483). -/
def Dev.rd64 (d : Dev) (lo hi : Fld) (i : Nat := 0) : Nat :=
  d.rd lo i * 2 ^ lo.lo + d.rd hi i * 2 ^ 32

/-- Write a 64-bit quantity into two registers. -/
def Dev.wr64 (d : Dev) (lo hi : Fld) (v : Nat) (i : Nat := 0) : Dev :=
  (d.wr lo (v / 2 ^ lo.lo) i).wr hi (v / 2 ^ 32) i

/-- The form every meaning shares: a total effect on the block, the fuses read but not changed. -/
def State.upd (s : State) (f : Fuses → Dev → Dev) : State := { s with dev := f s.fuse s.dev }

/-- The form of the commands that blow fuses (R371, R432, R476). -/
def State.updF (s : State) (f : Fuses → Dev → Fuses × Dev) : State :=
  let r := f s.fuse s.dev
  { s with fuse := r.1, dev := r.2 }

/-- Apply an effect to each element of a list in turn. -/
def Dev.each {α : Type} (xs : List α) (f : α → Dev → Dev) (d : Dev) : Dev :=
  match xs with
  | [] => d
  | x :: r => Dev.each r f (f x d)

/-- The fields of RG_CFG, RG_CFG2 and RG_CFG3. -/
def rgCfgs : List Fld := [F.RG_CFG_HBPER, F.RG_CFG_HBLOSS, F.RG_CFG_FAIR, F.RG_CFG_MAXHOP, F.RG_CFG_TMASTER,
  F.RG_CFG2_BUDGET, F.RG_CFG2_FRTO, F.RG_CFG2_DSPER, F.RG_CFG3_HOPNS]

/-- An instance that leaves the ring finishes the frame in transfer, and forgets the frames it waits for and those that wait for
the link (R438, R450). -/
def ringQuiet (d : Dev) : Dev :=
  { d with ring := { d.ring with outstanding := [], late := [], fwd := [], own := [], run := 0, sent := d.ring.sent ++ d.ring.tx.toList
                                 tx := none } }

/-- A heartbeat period begins, or none runs: the ring's written configuration takes effect (R451). -/
def rgTake (d : Dev) : Dev :=
  let c := d.ring.cfg
  { Dev.each rgCfgs (fun f d => match look c (f.key 0) with
      | some v => d.wr f v
      | none => d) d with ring := { d.ring with cfg := [] } }

/-- LG_TIME (R347). -/
def Dev.time (d : Dev) : Nat := d.rd64 F.LG_TIME_LO_TIME F.LG_TIME_HI_TIME

/-- INST of manifests, ledger exports and thermal records (R440). -/
def Dev.instId (d : Dev) : Nat := if d.on F.RG_CTL_EN then d.rd F.RG_ID_ID else 0

/-- The fields of a register, in place (R17). -/
def Dev.word (d : Dev) (fs : List Fld) (i : Nat := 0) : Nat := fs.foldl (fun v f => v + d.rd f i * 2 ^ f.lo) 0

/-- A power fail has been recognised (R72). -/
def Dev.pfSeen (d : Dev) : Bool := d.fs.pfail || d.fs.seen || (d.on F.FS_STAT_ACTIVE && d.rd F.FS_STAT_CAUSE == 12)

/-- PORST_N or SRST_N low, or the boot not yet begun (R397, R399). -/
def Dev.inReset (d : Dev) : Bool := !d.pins.porstN || !d.pins.srstN

/-- CCLK runs: not in Nap, not in Hibernate, not waking (R34, R387). PM_STAT.STATE 3 is NAP, 4 WAKING. -/
def Dev.cclkOn (d : Dev) : Bool := d.rd F.PM_STAT_STATE < 3 && !d.pm.hib

/-- The CCLK domain acts: out of reset, not under test mode, and clocked. -/
def Dev.live (d : Dev) : Bool := !d.inReset && d.cclkOn && !d.tst.testMode

/-- An effect of the CCLK domain: nothing happens while that domain does not act (R34, R297, R474). -/
def whenLive (f : Dev → Dev) (d : Dev) : Dev := if d.live then f d else d

end Sys2Proof.Machine
end

