-- ==== Sys2Proof/Machine/Interrupts.lean ====
section
/-!
DEFINITION. The interrupt controller (R314–R326, R338, R339) and the production side of the Spore router with the safety
links (R327, R328, R330, R331).
-/

namespace Sys2Proof.Machine

/-- Level sources (R314, R357 and the source tables of the other chapters). -/
def isLevel (s : Nat) : Bool :=
  (0x40 ≤ s && s ≤ 0x5F) || s == 0x66 || (0x68 ≤ s && s ≤ 0x6B) || s == 0x7D || s == 0x7F || s == 0x80 || s == 0xA2

/-- Edge sources that some chapter assigns (R314). -/
def isEdge (s : Nat) : Bool :=
  s ≤ 0x3F || (0x60 ≤ s && s ≤ 0x65) || s == 0x67 || (0x6C ≤ s && s ≤ 0x7C) || s == 0x7E ||
  (0x81 ≤ s && s ≤ 0x85) || s == 0xA0 || s == 0xA1 || (0xA3 ≤ s && s ≤ 0xA8) || (0xC0 ≤ s && s ≤ 0xC4) ||
  (0xD0 ≤ s && s ≤ 0xD7) || (0xE0 ≤ s && s ≤ 0xE6) || (0xF0 ≤ s && s ≤ 0xFF)

/-- Any SEQ_FAULT bit of a channel (R314). -/
def seqFaultAny (d : Dev) (c : Nat) : Bool :=
  d.on F.SEQ_FAULT_TRAP c || d.on F.SEQ_FAULT_ILLEGAL c || d.on F.SEQ_FAULT_RSTLIM c || d.on F.SEQ_FAULT_LATERST c

/-- Any SPR_FLAG bit (R314). -/
def sprFlagAny (d : Dev) : Bool :=
  d.on F.SPR_FLAG_OVR || d.on F.SPR_FLAG_LOOPTRIP || d.on F.SPR_FLAG_ACCERR || d.on F.SPR_FLAG_SECDROP

/-- The level input of a level source; false for every other ID (R314). -/
def rawLevel (d : Dev) (s : Nat) : Bool :=
  if 0x40 ≤ s ∧ s ≤ 0x4F then
    d.on (F.TQ_CFG_EN.ix (s - 0x40)) && d.rd (F.TQ_CFG_WM.ix (s - 0x40)) ≤ d.rd (F.TQ_STAT_WORDS.ix (s - 0x40))
  else if 0x50 ≤ s ∧ s ≤ 0x5F then
    let c := s - 0x50
    d.on (F.DMA_STAT_HALF.ix c) || d.on (F.DMA_STAT_FULL.ix c) || d.on (F.DMA_STAT_DONE.ix c) || d.on (F.DMA_STAT_ERR.ix c)
  else if s = 0x66 then d.on F.ACC_DONE_LO_DONE || d.on F.ACC_DONE_HI_DONE
  else if 0x68 ≤ s ∧ s ≤ 0x6B then (List.range 8).any fun i => seqFaultAny d (8 * (s - 0x68) + i)
  else if s = 0x7D then sprFlagAny d
  else if s = 0x7F then d.on F.LIFT_FLAG_OVERCOST || d.on F.LIFT_FLAG_AGED
  else if s = 0x80 then d.on F.MP_LOGSTAT_COUNT
  else if s = 0xA2 then d.on F.TH_STAT_HALT
  else false

def levelIds : List Nat :=
  (List.range 32).map (· + 0x40) ++ [0x66, 0x68, 0x69, 0x6A, 0x6B, 0x7D, 0x7F, 0x80, 0xA2]

/-- A of a source (R315). -/
def intActive (d : Dev) (s : Nat) : Bool := (look d.int.act s).isSome

/-- P of a source: latched for an edge source; for a level source it follows the level while A is 0 (R315). -/
def intPending (d : Dev) (s : Nat) : Bool :=
  if isLevel s then !intActive d s && rawLevel d s else bit d.int.pend s

/-- The moderation group of a moderated source (R323). -/
def modGroup (d : Dev) (s : Nat) : Option Nat :=
  if d.on (F.INT_SRC_MOD.ix s) then some (d.rd (F.INT_SRC_GRP.ix s)) else none

/-- An event latched by a member while its group is in HOLDOFF (R323). -/
def modEvent (s : Nat) (d : Dev) : Dev :=
  match modGroup d s with
  | none => d
  | some g =>
    if d.on (F.MOD_STAT_HOLDOFF.ix g) then
      let d := d.inc (F.MOD_STAT_EVENTS.ix g)
      let cnt := (look d.int.modCnt g).getD 0
      if cnt != 0 && cnt ≤ d.rd (F.MOD_STAT_EVENTS.ix g) then
        (d.wr (F.MOD_STAT_HOLDOFF.ix g) 0).wr (F.MOD_STAT_REMAIN.ix g) 0
      else d
    else d

/-- The rising edge of an edge source sets P, merging when P is already 1 (R315, INT_SOURCE_EDGE). -/
def latchEdge (s : Nat) (d : Dev) : Dev :=
  let d := if bit d.int.pend s then d.incW F.INT_MERGE_CNT else { d with int := { d.int with pend := setBit d.int.pend s } }
  modEvent s d

/-- A source event of any unit. An event raised while CCLK does not run is held in the always-on block (R326). -/
def raise (s : Nat) (d : Dev) : Dev :=
  if !isEdge s then d
  else if d.cclkOn then latchEdge s d
  else { d with int := { d.int with held := d.int.held ++ [s] } }

/-- R316 without moderation: the condition under which a running presentation stands (R324). -/
def presentableRaw (d : Dev) (t s : Nat) : Bool :=
  d.on F.INT_GCTL_EN && intPending d s && !intActive d s && d.on (F.INT_SRC_EN.ix s) &&
  bit (d.rd (F.INT_SRC_ROUTE.ix s)) t && d.rd (F.INT_THR_THR.ix t) < d.rd (F.INT_SRC_PRI.ix s)

/-- Moderation holds a source from a target (R323, R324). -/
def heldByMod (d : Dev) (t s : Nat) : Bool :=
  !bit d.int.idle t && (match modGroup d s with
    | none => false
    | some g => d.on (F.MOD_STAT_HOLDOFF.ix g))

/-- R316. -/
def presentable (d : Dev) (t s : Nat) : Bool := presentableRaw d t s && !heldByMod d t s

/-- The sources with P = 1, rising. -/
def pendingIds (d : Dev) : List Nat :=
  (bitsOf 256 d.int.pend).filter (fun s => !isLevel s) ++ levelIds.filter fun s => rawLevel d s

/-- Priority order of two sources: higher PRI first, then the lower ID (R316). -/
def beats (d : Dev) (a b : Nat) : Bool :=
  d.rd (F.INT_SRC_PRI.ix b) < d.rd (F.INT_SRC_PRI.ix a) ||
  (d.rd (F.INT_SRC_PRI.ix a) == d.rd (F.INT_SRC_PRI.ix b) && a < b)

/-- The best of a list of sources. -/
def bestOf (d : Dev) : List Nat → Option Nat
  | [] => none
  | s :: r => match bestOf d r with
    | none => some s
    | some b => if beats d s b then some s else some b

/-- A target's best candidate among the sources that `skip` does not name (R316, R317). -/
def bestFor (d : Dev) (t : Nat) (skip : List Nat) : Option Nat :=
  bestOf d ((pendingIds d).filter fun s => presentable d t s && !skip.contains s)

/-- A claim: P falls, A rises, the claimer is recorded and the group enters HOLDOFF (R315, R323). -/
def claimSource (t s : Nat) (d : Dev) : Dev :=
  let d := { d with int := { d.int with pend := clrBit d.int.pend s, act := ins d.int.act s t } }
  match modGroup d s with
  | none => d
  | some g =>
    let hold := d.rd (F.MOD_CFG_HOLD.ix g)
    if hold = 0 then d
    else
      let d := ((d.wr (F.MOD_STAT_HOLDOFF.ix g) 1).wr (F.MOD_STAT_EVENTS.ix g) 0).wr (F.MOD_STAT_REMAIN.ix g) hold
      { d with int := { d.int with modCnt := ins d.int.modCnt g (d.rd (F.MOD_CFG_CNT.ix g)) } }

/-- The sources presented to targets other than `t`. -/
def presentedElsewhere (d : Dev) (t : Nat) : List Nat :=
  d.int.pres.filterMap fun p => if p.1 = t then none else some p.2.1

/-- Withdraw a presentation, counting it (R318). -/
def withdraw (t : Nat) (d : Dev) : Dev :=
  { d with int := { d.int with pres := del d.int.pres t } }.inc (F.INT_SPUR_WDRAW.ix t)

/-- Set the wake latch of a target that is idle and has a presentable source (R325, WAKE_LATCH_SET). -/
def wakeLatch (t : Nat) (d : Dev) : Dev :=
  if bit d.int.idle t && (pendingIds d).any (fun s => presentable d t s) then
    { d with int := { d.int with wake := setBit d.int.wake t } }
  else d

/-- One target in one CCLK cycle (R317, R318). `ack` is VEC_ACK; while it is high the causes of a withdrawal wait. -/
def presentTarget (ack t : Nat) (d : Dev) : Dev :=
  let above := fun (s : Nat) => (pendingIds d).filter fun b => presentable d t b && beats d b s
  match look d.int.pres t with
  | some (s, _) =>
    let known := (look d.int.known t).getD []
    let d' := { d with int := { d.int with known := ins d.int.known t (above s) } }
    let better := (above s).any (fun b => !known.contains b) || match bestFor d t (presentedElsewhere d t) with
      | some b => beats d b s
      | none => false
    if bit ack t then d
    else if !presentableRaw d t s || better then withdraw t d
    else d'
  | none =>
    if bit d.int.gap t then { d with int := { d.int with gap := clrBit d.int.gap t } }
    else match bestFor d t (presentedElsewhere d t) with
      | none => d
      | some s =>
        let a := (d.rd64 (F.INT_VBASE_LO_ADDR.ix t) (F.INT_VBASE_HI_ADDR.ix t) + 8 * s) % 2 ^ 64
        { d with int := { d.int with pres := ins d.int.pres t (s, a), known := ins d.int.known t (above s) } }

/-- The rises of level inputs since the last cycle, counted as events of their groups (R323). -/
def sampleLevels (d : Dev) : Dev :=
  let now := levelIds.foldl (fun m s => if rawLevel d s then setBit m s else m) 0
  let d := Dev.each (levelIds.filter fun s => bit now s && !bit d.int.seen s) modEvent d
  { d with int := { d.int with seen := now } }

/-- INT_PRESENT (R317): presentations are assigned in ascending target order. -/
def intPresent (ack : Nat) (d : Dev) : Dev :=
  let d := sampleLevels d
  let d := Dev.each (List.range 16) (presentTarget ack) d
  Dev.each (List.range 16) wakeLatch d

/-- VECTOR_ACCEPT (R318): the acceptance is the claim. A source that a register read has claimed first is not delivered
twice (R320): its presentation ends as a withdrawal. -/
def vectorAccept (t : Nat) (d : Dev) : Dev :=
  match look d.int.pres t with
  | none => d
  | some (s, _) =>
    if intActive d s then withdraw t d
    else
      let d := claimSource t s d
      { d with int := { d.int with pres := del d.int.pres t, gap := setBit d.int.gap t } }

/-- The source a register claim of target `t` would take (R320, R322). -/
def claimCandidate (d : Dev) (t : Nat) : Option Nat :=
  if !d.on F.INT_GCTL_EN then none
  else match look d.int.pres t with
    | some (s, _) => if intActive d s then bestFor d t [] else some s
    | none => bestFor d t []

/-- The side effect of a read of INT_CLAIMt (R320); the value read is `claimValue` before it. -/
def claimRead (t : Nat) (d : Dev) : Dev :=
  match claimCandidate d t with
  | none => d.inc (F.INT_SPUR_SPUR.ix t)
  | some s =>
    let d := match look d.int.pres t with
      | some (p, _) => if p = s then { d with int := { d.int with pres := del d.int.pres t } } else d
      | none => d
    claimSource t s d

def claimValue (d : Dev) (t : Nat) : Nat := (claimCandidate d t).getD 0x3FF

/-- A write of an ID to INT_COMPLt (R321). -/
def completeSource (t id : Nat) (d : Dev) : Dev :=
  if look d.int.act id = some t then { d with int := { d.int with act := del d.int.act id } }
  else ((d.inc F.INT_STRAY_CNT).wr F.INT_STRAY_LASTID id).wr F.INT_STRAY_LASTTGT t

/-- Ones written to INT_PENDi (R315): edge sources only. -/
def pendWrite (i v : Nat) (d : Dev) : Dev :=
  Dev.each (bitsOf 32 v) (fun b d => if isEdge (32 * i + b) then
    { d with int := { d.int with pend := setBit d.int.pend (32 * i + b) } } else d) d

/-- MOD_HOLDOFF_EXPIRY (R323). -/
def modExpiry (g : Nat) (d : Dev) : Dev :=
  if d.on (F.MOD_STAT_HOLDOFF.ix g) then (d.wr (F.MOD_STAT_HOLDOFF.ix g) 0).wr (F.MOD_STAT_REMAIN.ix g) 0 else d

/-- TGT_IDLE_CHANGE (R324, R325). -/
def tgtIdle (t : Nat) (v : Bool) (d : Dev) : Dev :=
  if v then wakeLatch t { d with int := { d.int with idle := setBit d.int.idle t } }
  else { d with int := { d.int with idle := clrBit d.int.idle t, wake := clrBit d.int.wake t } }

/-- INT_GCTL.EN written 0 withdraws every presentation whose VEC_ACK is low at the edge (R322, R318, R338). -/
def gctlOff (ack : Nat) (d : Dev) : Dev :=
  Dev.each (List.range 16) (fun t d => if (look d.int.pres t).isSome && !bit ack t then withdraw t d else d) d

/-- Nap entry lowers every VEC_REQ and sets the wake latch of every target with a source presentable but for moderation;
in Hibernate the controller is off (R326). -/
def intSleep (hib : Bool) (d : Dev) : Dev :=
  let d := if hib then d else Dev.each (List.range 16) (fun t d =>
    if (pendingIds d).any (fun s => presentableRaw d t s) then
      { d with int := { d.int with wake := setBit d.int.wake t } } else d) d
  { d with int := { d.int with pres := [] } }

/-- Events held during Nap or Hibernate enter P at wake (R326). -/
def intWake (d : Dev) : Dev :=
  let h := d.int.held
  Dev.each h latchEdge { d with int := { d.int with held := [] } }

/-- Production of a spore (R327, R328, R331): it enters the register stage of every channel that carries it. -/
def produce (p : Nat) (d : Dev) : Dev :=
  if !d.on F.SPR_CTL_EN || !d.cclkOn then d
  else Dev.each (List.range 48) (fun c d =>
    if d.on (F.SPR_CH_EN.ix c) && d.rd (F.SPR_CH_SRC.ix c) == p then
      { d with spr := { d.spr with stage := d.spr.stage ++
          [{ chan := c, dst := d.rd (F.SPR_CH_DST.ix c), ns := d.on (F.SPR_CH_NS.ix c) }] } }
    else d) d

/-- An event of safety link `i` (R330): SPR_SAFEST is set whether or not the link is enabled; an enabled link 0–11 drives
its SAFE_OUT. -/
def safeLink (i : Nat) (d : Dev) : Dev :=
  let d := d.wr F.SPR_SAFEST_ST (setBit (d.rd F.SPR_SAFEST_ST) i)
  if i < 12 && bit (d.rd F.SPR_SAFEEN_EN) i then { d with pins := { d.pins with safeOut := setBit d.pins.safeOut i } } else d

/-- Whether link `i` acts (R330). -/
def linkOn (d : Dev) (i : Nat) : Bool := bit (d.rd F.SPR_SAFEEN_EN) i

/-- The action of W1C writes on SPR_SAFEST: SAFE_OUT falls with the bit (R330). -/
def safeClear (m : Nat) (d : Dev) : Dev :=
  { d with pins := { d.pins with safeOut := maskOff 12 d.pins.safeOut m } }

end Sys2Proof.Machine
end

