-- ==== Sys2Proof/Machine/MemProt.lean ====
section
/-!
DEFINITION. Internal memory protection (R359–R375): outcomes of SRAM reads, logs and counters, the scrubber, fills.
-/

namespace Sys2Proof.Machine

/-- The read is flagged uncorrectable to its reader. -/
def Mem.isUe : Mem → Bool
  | .uncorr _ _ => true
  | _ => false

/-- LG_TIME[22:0] (R375). -/
def logTime (d : Dev) : Nat := d.time % 2 ^ 23

/-- MP_LOGSTAT.COUNT follows the log. -/
def setLog (l : List LogEnt) (d : Dev) : Dev := { d with mp := { d.mp with log := l } }.wr F.MP_LOGSTAT_COUNT l.length

/-- An entry of the correctable-error log, with its counter (R369). -/
def memCE (r word kind synd : Nat) (d : Dev) : Dev :=
  let d := if kind = 2 then d.inc (F.MP_RCNT_REP.ix r) else d.inc (F.MP_RCNT_CE.ix r)
  match d.mp.log.getLast? with
  | some e =>
    if e.region = r ∧ e.word = word ∧ e.kind = kind then
      setLog (d.mp.log.dropLast ++ [{ e with repeats := min 63 (e.repeats + 1) }]) d
    else if 32 ≤ d.mp.log.length then raise 0x81 (d.inc F.MP_LOGSTAT_LOST)
    else setLog (d.mp.log ++ [{ region := r, word := word, kind := kind, synd := synd, time := logTime d }]) d
  | none => setLog [{ region := r, word := word, kind := kind, synd := synd, time := logTime d }] d

/-- An uncorrectable event: counted, captured when the capture is armed, and reported (R365, R370, R373). -/
def memUE (r word kind synd : Nat) (d : Dev) : Dev :=
  let d := raise 0x82 (d.inc (F.MP_RCNT_UE.ix r))
  if d.on F.MP_UELOG1_VALID then d
  else
    let d := ((d.wr F.MP_UELOG0_REGION r).wr F.MP_UELOG0_WORD word).wr F.MP_UELOG0_KIND kind
    ((d.wr F.MP_UELOG1_SYND synd).wr F.MP_UELOG1_VALID 1).wr F.MP_UELOG1_TIME (logTime d)

/-- An error read at the armed word shows that the injection has acted: ARM clears (R473, assumption 23). -/
def injected (r w : Nat) (d : Dev) : Dev :=
  if d.on F.TST_INJ_ARM && d.rd F.TST_INJ_REGION == r && d.rd F.TST_INJADDR_WORD == w then d.wr F.TST_INJ_ARM 0 else d

/-- Key of a word in the tables of words. -/
def wordKey (r w : Nat) : Nat := r * 2 ^ 20 + w

/-- A word has a good code again. -/
def heal (r w : Nat) (d : Dev) : Dev := { d with mp := { d.mp with bad := del d.mp.bad (wordKey r w) } }

/-- Every word of a range has been written whole. -/
def healRange (r w n : Nat) (d : Dev) : Dev :=
  { d with mp := { d.mp with bad := d.mp.bad.filter fun (p : Nat × Nat) => !(wordKey r w ≤ p.1 && p.1 < wordKey r (w + n)) } }

/-- A word carries the poison mark from here on (R360, R363). -/
def poisonWord (r w : Nat) (d : Dev) : Dev := { d with mp := { d.mp with bad := ins d.mp.bad (wordKey r w) 0 } }

/-- What a read of region `r` records (R359, R365, R369); a corrected or repaired word is written back (R362), and a pattern
with the mark's syndrome is a poison mark (R360). The reader's own outcome is its chapter's. -/
def readMem (r : Nat) (m : Mem) (d : Dev) : Dev :=
  match m with
  | .clean => d
  | .word _ => d
  | .corrected w s => injected r w (memCE r w 0 s (heal r w d))
  | .repaired w s => injected r w (memCE r w 2 s (heal r w d))
  | .uncorr w s => injected r w (memUE r w 0 s (if s = 0xFF then poisonWord r w d else d))

/-- A corrected read of the cell cache is also counted in THL_CECNT.CE (R56). -/
def readCellMem (m : Mem) (d : Dev) : Dev :=
  let d := readMem 1 m d
  match m with
  | .corrected _ _ => d.inc F.THL_CECNT_CE
  | _ => d

/-- A region is ready (R372). -/
def regionReady (d : Dev) (r : Nat) : Bool := bit (d.rd F.MP_STAT_READY) r

/-- The regions that admission and the start of a ticket need. -/
def admReady (d : Dev) : Bool := regionReady d 1 && regionReady d 8 && regionReady d 10
def startReady (d : Dev) : Bool := admReady d && [0, 2, 3, 4, 7, 11].all (regionReady d)

/-- RET regions (R28, R372). -/
def isRet (r : Nat) : Bool := r == 5 || r == 6

/-- Words of each region (R27). -/
def regionWords : List Nat :=
  [524288, 524288, 524288, 524288, 65536, 65536, 8192, 20480, 12288, 8192, 13312, 3072]

/-! ### Page checks (R361, R366) -/

/-- The key of a word's page. -/
def pageKey (r w : Nat) : Nat := wordKey r (w / 512 * 512)

/-- A check word with its code. -/
def pageChk (s0 s1 : Nat) : PageChk :=
  { s0 := s0, s1 := s1, code := if s0 = 0 ∧ s1 = 0 then 0 else Config.secded (s0 + 2 ^ 32 * s1) }

/-- What a symbol adds to the check; the code is linear, so zero adds nothing. -/
def rsTerm (p v : Nat) : Nat × Nat := if v = 0 then (0, 0) else Config.rsTerm p v

/-- Add a word's two symbols to a page's check, or take them out again. -/
def chkAdd (w v : Nat) (c : PageChk) : PageChk :=
  let lo := rsTerm (2 * (w % 512)) (v % 2 ^ 32)
  let hi := rsTerm (2 * (w % 512) + 1) (v / 2 ^ 32)
  pageChk (c.s0 ^^^ lo.1 ^^^ hi.1) (c.s1 ^^^ lo.2 ^^^ hi.2)

/-- A page's check (R361). -/
def chkOf (d : Dev) (r w : Nat) : PageChk := (look d.mp.chk (pageKey r w)).getD {}

/-- The word a page stores. -/
def storedWord (d : Dev) (r w : Nat) : Nat := (look d.mp.words (wordKey r w)).getD 0

/-- A write of a whole word: its page's check follows from the old and the new value (R361). -/
def putWord (r w v : Nat) (d : Dev) : Dev :=
  let c := chkAdd w v (chkAdd w (storedWord d r w) (chkOf d r w))
  { d with mp := { d.mp with words := putD d.mp.words (wordKey r w) v 0, chk := putD d.mp.chk (pageKey r w) c {} } }

/-- The page check computed from the page as stored (R366, R368). -/
def pageRecheck (r w : Nat) (d : Dev) : Dev :=
  let page := d.mp.words.filter fun (p : Nat × Nat) => p.1 / 512 == pageKey r w / 512
  let c := page.foldl (fun (c : PageChk) (p : Nat × Nat) => chkAdd (p.1 % 512) p.2 c) {}
  { d with mp := { d.mp with chk := putD d.mp.chk (pageKey r w) c {} } }

/-- Another word of the page fails SECDED and is no poison mark (R362). -/
def otherFails (d : Dev) (r w : Nat) : Bool :=
  d.mp.bad.any fun (p : Nat × Nat) => p.1 / 512 == pageKey r w / 512 && p.1 != wordKey r w && 2 ≤ p.2

/-- A multi-bit error: repaired where page repair is enabled and the word is its page's one failing word (R362, R374). -/
def multiBit (d : Dev) (r w s : Nat) : Mem := if d.on F.MP_CFG_PGREP && !otherFails d r w then .repaired w s else .uncorr w s

/-- The outcome of reading a word that may hold damage: one marked as poisoned reads so; one that an injection has struck in
bit 0, or in bits 0 and 1, shows a single-bit or a multi-bit error; any other reads as `m` (R360, R362, R473). -/
def heldOr (d : Dev) (r w : Nat) (m : Mem) : Mem :=
  match look d.mp.bad (wordKey r w) with
  | some 0 => .uncorr w 0xFF
  | some 1 => .corrected w (Config.secded 1)
  | some _ => multiBit d r w (Config.secded 1 ^^^ Config.secded 2)
  | none => m

/-- The outcome of a read of region `r` (R359): the damage a word holds decides, and of an event's finding whether the repair
succeeds; syndrome 0xFF is the poison mark and is never repaired (R360). An event finds a word uncorrectable where its page
holds a second failing word or its check word fails (R362). -/
def memFinds (d : Dev) (r : Nat) (m : Mem) : Mem :=
  match m with
  | .clean => .clean
  | .word w => heldOr d r w .clean
  | .corrected w s => heldOr d r w (if s = 0xFF then .uncorr w s else .corrected w s)
  | .repaired w s => heldOr d r w (if s = 0xFF then .uncorr w s else multiBit d r w s)
  | .uncorr w s => heldOr d r w (.uncorr w s)

/-- The same finding, of word `w`. -/
def Mem.onWord (w : Nat) : Mem → Mem
  | .clean => .word w
  | .word _ => .word w
  | .corrected _ s => .corrected w s
  | .repaired _ s => .repaired w s
  | .uncorr _ s => .uncorr w s

/-! ### Writes (R363, R364) -/

/-- Merge the covered bytes of `v` into `old`. -/
def mergeBytes (ben old v : Nat) : Nat :=
  sumL ((List.range 8).map fun i => (if bit ben i then fld v (8 * i) 8 else fld old (8 * i) 8) * 256 ^ i)

/-- An injection armed for a word corrupts its write (R473). -/
def injectWrite (r w : Nat) (d : Dev) : Dev :=
  if d.on F.TST_INJ_ARM && d.rd F.TST_INJ_REGION == r && d.rd F.TST_INJADDR_WORD == w then
    { d with mp := { d.mp with bad := ins d.mp.bad (wordKey r w) (1 + d.rd F.TST_INJ_DOUBLE) } }.wr F.TST_INJ_ARM 0
  else d

/-- A write of a word of region `r` (R363). The answer is the writer's: it has met an uncorrectable word (R364). -/
def memWrite (r : Nat) (x : MemWr) (d : Dev) : Bool × Dev :=
  let w := x.word
  let put := fun (v : Nat) (d : Dev) => injectWrite r w (heal r w (putWord r w v d))
  if x.ben % 256 = 255 then (false, put (x.val % 2 ^ 64) d)
  else
    let v := mergeBytes x.ben (storedWord d r w) x.val
    match memFinds d r (x.old.onWord w) with
    | .clean => (false, put v d)
    | .word _ => (false, put v d)
    | .corrected _ s => (false, put v (memCE r w 1 s d))
    | .repaired _ s => (false, put v (memCE r w 2 s d))
    | .uncorr _ s =>
      (true, pageRecheck r w (poisonWord r w (putWord r w (x.val % 2 ^ 64) (memUE r w 1 s d))))

/-- The words of one transfer, in their order: which of them have met an uncorrectable word. -/
def memWrites (r : Nat) : List MemWr → Dev → List Bool × Dev
  | [], d => ([], d)
  | x :: xs, d =>
    let a := memWrite r x d
    let b := memWrites r xs a.2
    (a.1 :: b.1, b.2)

/-- A word as its bank holds it differs by `diff` in a way SECDED does not see: the page's check does not follow (R368). -/
def silentError (r w diff : Nat) (d : Dev) : Dev :=
  if diff = 0 then d
  else { d with mp := { d.mp with words := putD d.mp.words (wordKey r w) (storedWord d r w ^^^ diff % 2 ^ 64) 0 } }

/-- SCRUB_READ (R367, R368): one word of region `r`; `diff` are the bits of it that an error SECDED does not see has changed
since they were written. At a page's end the check computed from the page as stored is compared with the check word. -/
def scrubRead (r : Nat) (m : Mem) (diff : Nat) (ctl : Bool) (failSafe : Dev → Dev) (d : Dev) : Dev :=
  let n := regionWords.getD r 0
  if !d.on F.MP_CFG_SCRUBEN || !regionReady d r || n = 0 then d
  else
    let w := (look d.mp.pos r).getD 0
    let d := match memFinds d r (m.onWord w) with
      | .clean => silentError r w diff d
      | .word _ => d
      | .corrected _ s => memCE r w 3 s (heal r w { d with mp := { d.mp with pageErr := setBit d.mp.pageErr r } })
      | .repaired _ s => memCE r w 3 s (heal r w { d with mp := { d.mp with pageErr := setBit d.mp.pageErr r } })
      | .uncorr _ s => memUE r w 0 s { d with mp := { d.mp with pageErr := setBit d.mp.pageErr r } }
    let endPage := w % 512 = 511
    let d :=
      if endPage && !bit d.mp.pageErr r && chkOf (pageRecheck r w d) r w != chkOf d r w then
        let d := pageRecheck r w (memUE r (w - 511) 2 0 d)
        if r = 1 ∨ r = 10 ∨ (r = 6 ∧ ctl) then failSafe d else d
      else d
    let d := if endPage then { d with mp := { d.mp with pageErr := clrBit d.mp.pageErr r } } else d
    if w + 1 < n then { d with mp := { d.mp with pos := ins d.mp.pos r (w + 1) } }
    else
      let p := setBit d.mp.passed r
      if p = 0xFFF then
        let d := { d with mp := { d.mp with pos := ins d.mp.pos r 0, passed := 0, alarmed := false, lapUs := 0 } }
        ((d.wr F.MP_LAP_LAST (d.rd F.MP_LAP_CUR)).wr F.MP_LAP_CUR 0).incW F.MP_LAPCNT_CNT
      else { d with mp := { d.mp with pos := ins d.mp.pos r 0, passed := p } }

/-- LAP_ALARM (R367): once per lap. -/
def lapAlarm (d : Dev) : Dev :=
  let lim := d.rd F.MP_SCRUB_LAPLIM
  if lim != 0 && 10 * lim < d.rd F.MP_LAP_CUR && !d.mp.alarmed then
    raise 0x83 { d with mp := { d.mp with alarmed := true } }
  else d

/-- MP_FILL.GO (R372): the fill of a CORE region under firmware fill; otherwise nothing (assumption 105). -/
def fillGo (d : Dev) : Dev :=
  let r := d.rd F.MP_FILL_REGION
  if d.on F.MP_STAT_FILLBUSY || !d.on F.MP_CFG_INIT || isRet r then d
  else ({ d with mp := { d.mp with filling := r } }.wr F.MP_STAT_FILLBUSY 1).wr F.MP_FILL_GO 1

/-- What memory protection keeps of the words of some regions. -/
def keepRegions (ok : Nat → Bool) (x : MpSt) : MpSt :=
  { x with bad := x.bad.filter fun (p : Nat × Nat) => ok (p.1 / 2 ^ 20)
           words := x.words.filter fun (p : Nat × Nat) => ok (p.1 / 2 ^ 20)
           chk := x.chk.filter fun (p : Nat × PageChk) => ok (p.1 / 2 ^ 20) }

/-- A fill writes every word: it holds zero with a good code and the page checks follow; an armed injection takes its word
(R372, R473, R477). -/
def fillWords (r : Nat) (d : Dev) : Dev :=
  let d := { d with mp := keepRegions (fun q => q != r) d.mp }
  if d.on F.TST_INJ_ARM && d.rd F.TST_INJ_REGION == r then
    { d with mp := { d.mp with bad := ins d.mp.bad (wordKey r (d.rd F.TST_INJADDR_WORD)) (1 + d.rd F.TST_INJ_DOUBLE) } }.wr F.TST_INJ_ARM 0
  else d

/-- The patch stores have been filled (R28, R372): they hold zero, but for the words a wake from Hibernate reloads (R490),
which the power-state controller kept (assumption 95). -/
def patchFill (d : Dev) : Dev :=
  { d with pm := { d.pm with patch := [] }
           cls := d.cls.map fun (p : Nat × Cl) => (p.1, match look d.pm.patch p.1 with
             | some w => { p.2 with pmw := w.pmw, pnw := w.pnw, rix := w.rix }
             | none => { p.2 with pmw := [], pnw := [] }) }

/-- MP_FILL_END (R372, R373). -/
def fillEnd (d : Dev) : Dev :=
  if !d.on F.MP_STAT_FILLBUSY then d
  else
    let r := d.mp.filling
    let d := fillWords r ((d.wr F.MP_STAT_FILLBUSY 0).wr F.MP_FILL_GO 0)
    let d := if r = 11 then patchFill d else d
    raise 0x84 (d.wr F.MP_STAT_READY (setBit (d.rd F.MP_STAT_READY) r))

/-- MP_LOGPOP (R369). -/
def logPop (d : Dev) : Dev :=
  match d.mp.log with
  | [] => d.wr F.MP_LOGE1_VALID 0
  | e :: r =>
    let d := setLog r d
    let d := (((d.wr F.MP_LOGE0_REGION e.region).wr F.MP_LOGE0_WORD e.word).wr F.MP_LOGE0_KIND e.kind).wr F.MP_LOGE0_REPEAT e.repeats
    ((d.wr F.MP_LOGE1_SYND e.synd).wr F.MP_LOGE1_VALID 1).wr F.MP_LOGE1_TIME e.time

end Sys2Proof.Machine
end

