-- ==== Sys2Proof/Machine/Shadow.lean ====
section
/-!
DEFINITION. Shadows of RWC fields (R18, R21): the commit group and part a field belongs to, and how a captured part comes
into force at its unit's safe point (R412, R413).
-/

namespace Sys2Proof.Machine

/-- Offset, bit and instance of a register file key. -/
def keyOff (k : Nat) : Nat := k / 4096 / 32
def keyLo (k : Nat) : Nat := k / 4096 % 32
def keyInst (k : Nat) : Nat := k % 4096

/-- The group of a register's RWC fields, by the window it lies in (R412). -/
def cmGroup (o : Nat) : Nat :=
  if o < 0x2000 then 0
  else if o < 0x3000 then 1
  else if o < 0x4000 then 2
  else if o < 0x7100 then 7
  else if o < 0x8000 then 3
  else if o < 0x9800 then 8
  else if o < 0x9900 then 6
  else if o < 0xE000 then 5
  else 4

/-- The part of its group a field belongs to (R412): fabric-port fields, and CAPINT, are the second parts. -/
def partOf (k : Nat) : Nat :=
  let o := keyOff k
  if (0x2400 ≤ o ∧ o < 0x3000) ∨ (o = 0x7004 ∧ keyLo k = F.LG_CFG_CAPINT.lo) then 1 else 0

/-- Groups with one instance per element of a window (R412). The die group takes every die's shadows together. -/
def groupSelects (g : Nat) : Bool := g == 0 || g == 1 || g == 3

/-- A key belongs to a group in an instance; for the groups of a single instance, whatever the instance. -/
def inGroup (g i k : Nat) : Bool := cmGroup (keyOff k) == g && (!groupSelects g || keyInst k == i)

/-- A shadow is written (R18, R21): a second write replaces the first. -/
def setShadow (f : Fld) (v i : Nat) (d : Dev) : Dev := { d with shadow := ins d.shadow (f.key i) (v % 2 ^ f.w) }

/-- COMMIT_STAT follows the shadows and the captured groups (R415). -/
def commitStat (d : Dev) : Dev :=
  let m (t : FMap) : Nat := t.foldl (fun m p => setBit m (cmGroup (keyOff p.1))) 0
  (d.wr F.COMMIT_STAT_PEND (m d.shadow)).wr F.COMMIT_STAT_WAIT (m d.captured)

/-- Merge one table into another. -/
def insAll (t : FMap) (xs : FMap) : FMap := xs.foldl (fun t p => ins t p.1 p.2) t

/-- Values come into force. -/
def putAll (ks : FMap) (d : Dev) : Dev :=
  { d with regs := ks.foldl (fun t p =>
      let rst := match fieldsAt (keyOff p.1) with
        | some fs => ((fs.find? fun f => f.lo == keyLo p.1).map (·.rst)).getD 0
        | none => 0
      putD t p.1 p.2 rst) d.regs }

/-- The captured shadows of a group, or part, in an instance. -/
def capturedOf (g i part : Nat) (p : Nat × Nat) : Bool := inGroup g i p.1 && partOf p.1 == part

/-- A captured CH_OPCFG.RATE of a channel waits for its safe point: no ticket starts there (R412). -/
def rateWaits (d : Dev) (c : Nat) : Bool :=
  d.captured.any fun p => inGroup 0 c p.1 && keyOff p.1 == 0x1000 && keyLo p.1 == F.CH_OPCFG_RATE.lo

/-- A captured part whose commit does nothing beyond its fields comes into force (R18). -/
def takeCaptured (g i part : Nat) (d : Dev) : Dev :=
  let ks := d.captured.filter (capturedOf g i part)
  if ks.isEmpty then d else commitStat (putAll ks { d with captured := d.captured.filter fun p => !capturedOf g i part p })

end Sys2Proof.Machine
end

