-- ==== Sys2Proof/Machine/Ledger.lean ====
section
/-!
DEFINITION. The tenant ledger: banks and charges (R341–R346), swaps and exports (R347–R352), caps (R353), reset (R355).
-/

namespace Sys2Proof.Machine

/-- Remove every instance of a field from the register file: it reads its reset value. -/
def Dev.clearField (d : Dev) (f : Fld) : Dev :=
  { d with regs := d.regs.filter fun p => p.1 / 4096 != f.off * 32 + f.lo }

def activeBank (d : Dev) (t : Nat) : Bank := (look d.led.active t).getD d.led.activeD

def frozenBank (d : Dev) (t : Nat) : Bank := (look d.led.frozen t).getD d.led.frozenD

/-- Change the active bank of a tenant; a charge enters it whole (R344). -/
def onBank (t : Nat) (f : Bank → Bank) (d : Dev) : Dev :=
  { d with led := { d.led with active := ins d.led.active t (f (activeBank d t)) } }

/-- The saturation mark of the counter at byte offset 4i (R343, FLAGS[8:0]). -/
def satMark (i v n flags : Nat) : Nat := if v + n < 2 ^ 32 then flags else setBit flags i

/-- Add to one of the nine saturating counters (R343). -/
def Bank.add (b : Bank) (c : Ctr) (n : Nat) : Bank :=
  match c with
  | .reads => { b with reads := satAdd 32 b.reads n, flags := satMark 0 b.reads n b.flags }
  | .programs => { b with programs := satAdd 32 b.programs n, flags := satMark 1 b.programs n b.flags }
  | .erases => { b with erases := satAdd 32 b.erases n, flags := satMark 2 b.erases n b.flags }
  | .others => { b with others := satAdd 32 b.others n, flags := satMark 3 b.others n b.flags }
  | .rdcw => { b with rdcw := satAdd 32 b.rdcw n, flags := satMark 4 b.rdcw n b.flags }
  | .wrcw => { b with wrcw := satAdd 32 b.wrcw n, flags := satMark 5 b.wrcw n b.flags }
  | .retries => { b with retries := satAdd 32 b.retries n, flags := satMark 6 b.retries n b.flags }
  | .softdec => { b with softdec := satAdd 32 b.softdec n, flags := satMark 7 b.softdec n b.flags }
  | .reloccw => { b with reloccw := satAdd 32 b.reloccw n, flags := satMark 8 b.reloccw n b.flags }

/-- The byte offset of a counter in its bank (R343). -/
def Ctr.off : Ctr → Nat
  | .reads => 0
  | .programs => 4
  | .erases => 8
  | .others => 12
  | .rdcw => 16
  | .wrcw => 20
  | .retries => 24
  | .softdec => 28
  | .reloccw => 32

/-- The bank 56 bytes stand for (R343). -/
def bankOf (b : List Byte) : Bank :=
  { reads := leAt b 0 4, programs := leAt b 4 4, erases := leAt b 8 4, others := leAt b 12 4, rdcw := leAt b 16 4
    wrcw := leAt b 20 4, retries := leAt b 24 4, softdec := leAt b 28 4, reloccw := leAt b 32 4, bustime := leAt b 36 8
    energy := leAt b 44 6, flags := leAt b 50 2, bcrc := leAt b 52 4 }

/-- Bytes 0–51 of a bank (R343). -/
def Bank.body (b : Bank) : List Byte :=
  leBytes 4 b.reads ++ leBytes 4 b.programs ++ leBytes 4 b.erases ++ leBytes 4 b.others ++ leBytes 4 b.rdcw ++
  leBytes 4 b.wrcw ++ leBytes 4 b.retries ++ leBytes 4 b.softdec ++ leBytes 4 b.reloccw ++ leBytes 8 b.bustime ++
  leBytes 6 b.energy ++ leBytes 2 b.flags

/-- The 56 bytes of a bank (R343). -/
def Bank.bytes (b : Bank) : List Byte := b.body ++ leBytes 4 b.bcrc

/-- An uncorrectable word 0–15 of a tenant's record (R341, R365): of the parameters, the tenant is left disabled with no
caps; of a bank, the word reads as all ones. Bank `seq % 2` is the active one (assumption 24). -/
def tenantLoss (t w : Nat) (d : Dev) : Dev :=
  if w < 2 then
    let d := { d with led := { d.led with lost := if d.led.lost.contains t then d.led.lost else t :: d.led.lost, capNs := del d.led.capNs t } }
    Dev.each [F.TN_CFG_EN, F.TN_CFG_GRP, F.TN_CFG_ACT, F.TN_CFG_SALT, F.TN_CELLCAP_CAP, F.TN_BUSCAP_CAP, F.TN_CAPUSE_USE, F.TN_USE_CAPPED]
      (fun f d => d.wr f 0 t) d
  else
    let k := (w - 2) / 7
    let f (b : Bank) : Bank := bankOf (patchAt b.bytes (8 * ((w - 2) % 7)) (List.replicate 8 0xFF))
    if k = d.led.seq % 2 then onBank t f d
    else { d with led := { d.led with frozen := ins d.led.frozen t (f (frozenBank d t)) } }

/-- An uncorrectable word of region 5 is rewritten with a good code (R365). -/
def tenantWordLost (w : Nat) (d : Dev) : Dev :=
  heal 5 w (putWord 5 w (if w % 16 < 2 then 0 else 2 ^ 64 - 1) (tenantLoss (w / 16 % 4096) (w % 16) d))

/-- A charge writes part of word `i` of a tenant's active bank: a narrow write, which the word's old state decides (R363,
R364). -/
def chargeWord (t i : Nat) (d : Dev) : Dev :=
  let w := 16 * t + 2 + 7 * (d.led.seq % 2) + i
  match heldOr d 5 w .clean with
  | .corrected _ s => memCE 5 w 1 s (heal 5 w d)
  | .repaired _ s => memCE 5 w 2 s (heal 5 w d)
  | .uncorr _ s => tenantWordLost w (memUE 5 w 1 s d)
  | _ => d

/-- Change a tenant's active bank in words `ws`. -/
def chargeBank (t : Nat) (ws : List Nat) (f : Bank → Bank) (d : Dev) : Dev := Dev.each ws (chargeWord t) (onBank t f d)

/-- A count charged to a tenant (R343, R344). -/
def charge (t : Nat) (c : Ctr) (n : Nat) (d : Dev) : Dev := if n = 0 then d else chargeBank t [c.off / 8] (fun b => b.add c n) d

/-- An energy charge in nJ (R346). -/
def chargeEnergy (t nJ : Nat) (d : Dev) : Dev :=
  if nJ = 0 then d else chargeBank t [5, 6] (fun b => { b with energy := (b.energy + nJ) % 2 ^ 48 }) d

/-- Energy coefficient `i` (R346). -/
def ecoef (d : Dev) (i : Nat) : Nat := d.rd (F.LG_ECOEF_C.ix i)

/-- Charge `n` events of coefficient `i` (R346). -/
def chargeEvents (t i n : Nat) (d : Dev) : Dev := chargeEnergy t (n * ecoef d i) d

/-- The cap of R353 on the full width of both values; reaching it sets CAPPED and raises 0x0C3. -/
def checkCap (t : Nat) (d : Dev) : Dev :=
  let cap := d.rd F.TN_BUSCAP_CAP t
  if cap != 0 && 10 * cap ≤ d.rd F.TN_CAPUSE_USE t && !d.on F.TN_USE_CAPPED t then
    raise 0xC3 (d.wr F.TN_USE_CAPPED 1 t)
  else d

/-- One piece of bus time of a tenant (R344, R346, R353). -/
def chargeBus (t ns : Nat) (d : Dev) : Dev :=
  let d := chargeBank t [4, 5, 6] (fun b => { b with bustime := (b.bustime + ns) % 2 ^ 64,
                                                     energy := (b.energy + ns * ecoef d 0 / 1000) % 2 ^ 48 }) d
  let c := (look d.led.capNs t).getD 0 + ns
  let d := { d with led := { d.led with capNs := ins d.led.capNs t c } }
  checkCap t (d.wr F.TN_CAPUSE_USE (min (c / 100) (2 ^ 32 - 1)) t)

/-- Bus time charged to no tenant (R345). -/
def chargeSysBus (ns : Nat) (d : Dev) : Dev :=
  let v := (d.rd64 F.LG_SYSBUS_LO_NS F.LG_SYSBUS_HI_NS + ns) % 2 ^ 64
  d.wr64 F.LG_SYSBUS_LO_NS F.LG_SYSBUS_HI_NS v

/-- The bank a swap freezes: its period's marks and its BCRC (R343, R348). -/
def Bank.freeze (marks : Nat) (b : Bank) : Bank :=
  let b := { b with flags := b.flags ||| marks }
  { b with bcrc := crc32c b.body }

/-- Entry `i` of an export (R349). -/
def exportEntry (d : Dev) (e : Export) (i : Nat) : List Byte :=
  let en := (look e.cfgAt (F.TN_CFG_EN.key i)).getD 0
  let grp := (look e.cfgAt (F.TN_CFG_GRP.key i)).getD 0
  (frozenBank d i).bytes ++ leBytes 2 i ++ leBytes 1 (en + 2 * grp) ++ leBytes 5 0

/-- Bytes 0–59 of the export header (R349). -/
def exportHead (d : Dev) (e : Export) (complete : Bool) : List Byte :=
  leBytes 4 0x4C444731 ++ leBytes 4 e.seq ++ leBytes 2 d.instId ++
  leBytes 2 (b2n complete + e.flags) ++ leBytes 4 e.period ++ leBytes 8 e.tstart ++ leBytes 8 e.tend ++
  (e.ecoef.flatMap fun c => leBytes 2 c) ++ leBytes 12 0

/-- The 64-byte header with XCRC over bytes 0–59 and all entries (R349). -/
def exportHeader (d : Dev) (e : Export) (complete : Bool) : List Byte :=
  let h := exportHead d e complete
  h ++ leBytes 4 (crc32c (h ++ (List.range 4096).flatMap fun i => exportEntry d e i))

/-- The export region's half (R349): 260 KiB each. -/
def exportBase (d : Dev) (half : Nat) : Nat := d.rd64 F.LG_EXP_LO_ADDR F.LG_EXP_HI_ADDR + half * 266240

/-- Start the export of the banks frozen by a swap (R349); the entries follow one by one (`exportKick`). The first export
after a ledger reset has RESET set (R355). -/
def startExport (e : Export) (d : Dev) : Dev :=
  let e := { e with flags := e.flags + 8 * b2n d.led.resetMark }
  ({ d with led := { d.led with run := some e, nextHalf := 1 - e.half, resetMark := false } }).wr F.LG_STAT_EXPBUSY 1

/-- The swap itself (R348): every active bank becomes frozen, the other reads zero. -/
def takeSwap (k : SwapKind) (d : Dev) : Dev :=
  let (unsched, pfail, merged) := (k == .snap, k == .powerFail, k == .merged)
  let marks := 2 ^ 13 * b2n pfail + 2 ^ 14 * b2n unsched
  let seq := (d.led.seq + 1) % 2 ^ 32
  let e : Export :=
    { half := d.led.nextHalf, seq := seq, period := d.rd F.LG_CFG_PERIOD
      flags := 2 * b2n pfail + 4 * b2n unsched + 16 * b2n merged
      tstart := d.led.lastSwap, tend := d.time, ecoef := (List.range 8).map (ecoef d)
      cfgAt := d.regs.filter fun (p : Nat × Nat) => p.1 / 4096 / 32 = 0x7100 }
  let d := { d with led := { d.led with
    active := [], activeD := {}
    frozen := d.led.active.map fun (p : Nat × Bank) => (p.1, p.2.freeze marks)
    frozenD := d.led.activeD.freeze marks
    seq := seq, lastSwap := d.time } }
  -- the safe point of PERIOD and the coefficients (R412): the export keeps those of the period that ends
  let d := takeCaptured 7 0 0 (d.wr F.LG_STAT_SEQ seq)
  let d := if unsched then d.wr F.LG_CTL_SNAP 0 else d
  if pfail then { d with led := { d.led with pfailHeld := some e } }
  else if d.on F.LG_CTL_EXPEN then
    startExport e d
  else d

/-- An export runs, or banks a power fail froze are still to be exported: no swap is taken (R351, R352). -/
def swapWaits (d : Dev) : Bool := d.led.run.isSome || d.led.pfailHeld.isSome || d.led.pfailExport.isSome

/-- A swap falling due: taken at once, or delayed behind an export (R348, R351, R352). -/
def dueSwap (k : SwapKind) (d : Dev) : Dev :=
  if swapWaits d then raise 0xC2 ({ d with led := { d.led with due := d.led.due ++ [k] } }.inc F.LG_STAT_LATE)
  else takeSwap k d

/-- The swaps that waited, each before the export it starts (R351). -/
def takeDue : List SwapKind → Dev → Dev
  | [], d => { d with led := { d.led with due := [] } }
  | k :: r, d => if swapWaits d then { d with led := { d.led with due := k :: r } } else takeDue r (takeSwap k d)

/-- A multiple of LG_CFG.PERIOD × 1,000 of LG_TIME: the scheduled swap, once at that instant (R348); while CCLK is stopped it
is merged into the one taken at wake (R352). -/
def scheduledSwap (d : Dev) : Dev :=
  let d := { d with led := { d.led with swapAt := some d.time } }
  if d.cclkOn then dueSwap .scheduled d else { d with led := { d.led with mergedDue := true } }

/-- LEDGER_SWAP (R348). -/
def ledgerSwap (d : Dev) : Dev :=
  if d.time % (1000 * d.rd F.LG_CFG_PERIOD) ≠ 0 ∨ d.led.swapAt = some d.time then d else scheduledSwap d

/-- The merged swap at wake (R352). -/
def ledgerWake (d : Dev) : Dev :=
  if d.led.mergedDue then dueSwap .merged { d with led := { d.led with mergedDue := false } } else d

/-- Zero the banks and cap use of a range of tenants and mark their new active bank (R355). -/
def zeroTenants (first last : Nat) (d : Dev) : Dev :=
  let keep := fun (p : Nat × Bank) => p.1 < first || last < p.1
  let fresh : Bank := { flags := 2 ^ 15 }
  let d :=
    if first = 0 ∧ last = 4095 then
      { d with led := { d.led with active := [], activeD := fresh, frozen := [], frozenD := {}, capNs := [] } }
    else
      let ts := (List.range (last + 1 - first)).map (· + first)
      { d with led := { d.led with
        active := ts.foldl (fun m t => ins m t fresh) (d.led.active.filter keep)
        frozen := ts.foldl (fun m t => ins m t {}) (d.led.frozen.filter keep)
        capNs := d.led.capNs.filter fun (p : Nat × Nat) => p.1 < first || last < p.1 } }
  let d := { d with regs := d.regs.filter fun p =>
    !(p.1 / 4096 == F.TN_CAPUSE_USE.off * 32 && first ≤ p.1 % 4096 && p.1 % 4096 ≤ last) }
  raise 0xC4 { d with led := { d.led with resetMark := true } }

/-- A sealed tenant ledger reset: at once, or after the running export (R355). -/
def ledgerReset (first last : Nat) (d : Dev) : Dev :=
  if d.led.run.isSome then
    ({ d with led := { d.led with resets := d.led.resets ++ [(first, last)] } }).wr F.LG_STAT_RSTBUSY 1
  else zeroTenants first last d

/-- The end of an export: waiting resets and a delayed swap follow, the swap first (R351, R355, R356). -/
def exportDone (d : Dev) : Dev :=
  let d := ({ d with led := { d.led with run := none } }).wr F.LG_STAT_EXPBUSY 0
  let d := takeDue d.led.due d
  if d.led.run.isSome then d
  else
    (Dev.each d.led.resets (fun r d => zeroTenants r.1 r.2 d)
      { d with led := { d.led with resets := [] } }).wr F.LG_STAT_RSTBUSY 0

/-- A cap interval begins (R353), the safe point of CAPINT (R412). -/
def capStart (d : Dev) : Dev :=
  let d := takeCaptured 7 0 1 { d with led := { d.led with capAt := some d.time } }
  { (d.clearField F.TN_CAPUSE_USE).clearField F.TN_USE_CAPPED with led := { d.led with capNs := [] } }

/-- CAP_INTERVAL_BOUNDARY (R353): at a multiple of LG_CFG.CAPINT × 1,000 of LG_TIME, once at that instant. -/
def capBoundary (d : Dev) : Dev :=
  if d.time % (1000 * d.rd F.LG_CFG_CAPINT) ≠ 0 ∨ d.led.capAt = some d.time then d else capStart d

/-- LG_TIME has moved from `old`: the boundaries passed act, each once (R348, R353, R356). -/
def timePassed (old : Nat) (d : Dev) : Dev :=
  let passed (p : Nat) := d.time % p == 0 && d.time != old || old < d.time && old / p < d.time / p
  if d.inReset then d
  else
    let d' := if passed (1000 * d.rd F.LG_CFG_PERIOD) then scheduledSwap d else d
    if passed (1000 * d.rd F.LG_CFG_CAPINT) then capStart d' else d'

/-- LG_TIME takes a new value; passing a swap instant swaps once (R356, R358). -/
def setTime (t : Nat) (d : Dev) : Dev := timePassed d.time (d.wr64 F.LG_TIME_LO_TIME F.LG_TIME_HI_TIME t)

/-- A write of LG_TIME_HI with the held LG_TIME_LO (R358). -/
def timeWrite (hi : Nat) (d : Dev) : Dev :=
  let lo := d.led.timeHeld.getD (d.rd F.LG_TIME_LO_TIME)
  setTime (hi * 2 ^ 32 + lo) { d with led := { d.led with timeHeld := none } }

/-- A read of a word of a tenant's record (R341, R365, region 5). -/
def tenantReading (m : Mem) (d : Dev) : Dev :=
  match memFinds d 5 m with
  | .uncorr w s => tenantWordLost w (readMem 5 (.uncorr w s) d)
  | o => readMem 5 o d

/-- Word `w` of a tenant's bank (TN_LIVEw, TN_SNAPw). -/
def bankWord (b : Bank) (w : Nat) : Nat := leAt b.bytes (4 * w) 4

end Sys2Proof.Machine
end

