-- ==== Sys2Proof/Machine/Fabric.lean ====
section
/-!
DEFINITION. The four fabric ports (R290–R300): requests, arbitration and tags, responses, timeouts and the error log.
What a response does in its unit is in `Machine/Deliver.lean`.
-/

namespace Sys2Proof.Machine

def Dev.prt (d : Dev) (p : Nat) : Port := (look d.fab p).getD {}

def Dev.setPort (d : Dev) (p : Nat) (x : Port) : Dev := { d with fab := ins d.fab p x }

/-- One direction of a port. -/
def Port.dir (x : Port) (write : Bool) : Dir := if write then x.wr else x.rd

def Port.setDir (x : Port) (write : Bool) (y : Dir) : Port := if write then { x with wr := y } else { x with rd := y }

/-- Place a request at the end of its port's queue (R299). -/
def Dir.push (x : Dir) (r : Req) : Dir :=
  match r.kind with
  | .ctrl => { x with ctrl := x.ctrl ++ [r] }
  | .data => { x with data := x.data ++ [r] }
  | .dma => { x with dma := x.dma ++ [r] }

def request (p : Nat) (write : Bool) (r : Req) (d : Dev) : Dev :=
  let x := d.prt p
  d.setPort p (x.setDir write ((x.dir write).push r))

/-- The pieces (address, offset, length) of a range, none crossing a 4 KiB boundary (R291). -/
def pagePieces : Nat → Nat → Nat → Nat → List (Nat × Nat × Nat)
  | 0, _, _, _ => []
  | fuel + 1, addr, off, len =>
    if len = 0 then []
    else
      let n := min len (4096 - addr % 4096)
      (addr, off, n) :: pagePieces fuel (addr + n) (off + n) (len - n)

def pieces (addr len : Nat) : List (Nat × Nat × Nat) := pagePieces (len / 4096 + 2) addr 0 len

/-- The bytes a request touches: a write its own, a read every whole beat that holds one of its own (R291). -/
def Req.span (r : Req) (write : Bool) : Nat × Nat :=
  if write then (r.addr, r.addr + r.len) else (r.addr / 64 * 64, (r.addr + r.len + 63) / 64 * 64)

def spansMeet (a b : Nat × Nat) : Bool := a.1 < b.2 && b.1 < a.2

/-- The DMA channel a request belongs to. -/
def Req.dmaOf (r : Req) : Option Nat :=
  match r.what with
  | .dmaRead c _ => some c
  | .dmaWrite c _ => some c
  | .dmaFrond c => some c
  | _ => none

/-- Two requests whose order R296 guards: all but those of two different DMA channels (R312). -/
def ordered (a b : Req) : Bool := a.dmaOf.isNone || b.dmaOf.isNone || a.dmaOf == b.dmaOf

/-- R296, over all four ports: no two outstanding writes overlap, and no outstanding read overlaps an outstanding write. -/
def overlaps (d : Dev) (write : Bool) (r : Req) : Bool :=
  d.fab.any fun p =>
    (p.2.wr.out.any fun o => spansMeet (r.span write) (o.2.req.span true) && ordered r o.2.req) ||
    (write && p.2.rd.out.any fun o => spansMeet (r.span true) (o.2.req.span false) && ordered r o.2.req)

def Dir.held (x : Dir) (k : Kind) : Nat := (x.out.filter fun o => o.2.req.kind = k).length

/-- Tags neither outstanding nor quarantined. -/
def Dir.free (x : Dir) : Nat := 256 - x.out.length - x.quar.length

/-- The tag rule of R299. -/
def tagAllowed (d : Dev) (p : Nat) (x : Dir) (k : Kind) : Bool :=
  let keep := d.rd F.FP_CFG_RSVCTL p - x.held .ctrl
  match k with
  | .ctrl => 0 < x.free
  | .data => 0 < x.free && keep ≤ x.free - 1
  | .dma => 0 < x.free && keep ≤ x.free - 1 && x.held .dma < d.rd F.FP_CFG_DMAMAX p

/-- The head of a queue when it may be granted now. -/
def ready (d : Dev) (p : Nat) (write : Bool) (q : List Req) : Option Req :=
  match q with
  | [] => none
  | r :: _ => if tagAllowed d p ((d.prt p).dir write) r.kind && !overlaps d write r then some r else none

/-- A new round: the credits of FP_ARB (R299). -/
def Dir.newRound (d : Dev) (p : Nat) (x : Dir) : Dir :=
  { x with gCtrl := d.rd F.FP_ARB_WCTL p, gData := d.rd F.FP_ARB_WDATA p, gDma := d.rd F.FP_ARB_WDMA p }

/-- The request the arbiter grants with the credits a direction holds (R299). -/
def pickWith (d : Dev) (p : Nat) (write : Bool) (x : Dir) : Option Req :=
  match (if x.gCtrl = 0 then none else ready d p write x.ctrl) with
  | some r => some r
  | none => match (if x.gData = 0 then none else ready d p write x.data) with
    | some r => some r
    | none => if x.gDma = 0 then none else ready d p write x.dma

/-- Take the head of its queue and one credit. A round goes from CTRL to DATA to DMA: the queues passed over get nothing
more in it (R299). -/
def Dir.take (x : Dir) (r : Req) : Dir :=
  match r.kind with
  | .ctrl => { x with ctrl := x.ctrl.drop 1, gCtrl := x.gCtrl - 1 }
  | .data => { x with data := x.data.drop 1, gCtrl := 0, gData := x.gData - 1 }
  | .dma => { x with dma := x.dma.drop 1, gCtrl := 0, gData := 0, gDma := x.gDma - 1 }

/-- Every queue of a direction is empty or has had its grants: a new round starts (R299). -/
def Dir.roundOver (x : Dir) : Bool :=
  (x.ctrl.isEmpty || x.gCtrl == 0) && (x.data.isEmpty || x.gData == 0) && (x.dma.isEmpty || x.gDma == 0)

/-- The port is between two rounds (R412). -/
def portRoundOver (d : Dev) (p : Nat) : Bool := (d.prt p).rd.roundOver || (d.prt p).wr.roundOver

def setOut (p : Nat) (write : Bool) (d : Dev) : Dev :=
  d.wr (if write then F.FP_STAT_WROUT else F.FP_STAT_RDOUT) ((d.prt p).dir write).out.length p

/-! ### The cluster exchange (R25) -/

/-- The cluster served next among those that offer traffic to a destination: the first after the one granted last. -/
def xchTurn (d : Dev) (dest : Nat) (waiting : List Nat) : Option Nat :=
  ((List.range 4).map fun i => ((look d.xch dest).getD 3 + 1 + i) % 4).find? fun q => waiting.contains q

def xchGrant (dest cl : Nat) (d : Dev) : Dev := { d with xch := ins d.xch dest cl }

/-- FABRIC_REQUEST_GRANT (R299): one grant with tag `tag`, which Rinva is free to choose among the free ones. -/
def fabricGrant (p : Nat) (write : Bool) (tag : Nat) (d : Dev) : Dev :=
  let x := (d.prt p).dir write
  if (look x.out tag).isSome || x.quar.contains tag then d
  else
    let (y, d) := match pickWith d p write x with
      | some r => (some (r, x), d)
      | none =>
        -- the port's next round: its waiting fields come into force (R299, R412)
        let d := takeCaptured 1 p 1 d
        ((pickWith d p write (x.newRound d p)).map fun r => (r, x.newRound d p), d)
    match y with
    | none => d
    | some (r, x) =>
      let x := x.take r
      -- a round ends as its last queue runs empty or out of grants; the next takes the waiting fields (R299, R412)
      let (x, d) := if x.roundOver then let d := takeCaptured 1 p 1 d; (x.newRound d p, d) else (x, d)
      setOut p write (d.setPort p ((d.prt p).setDir write { x with out := ins x.out tag { req := r } }))

/-- A bus error is counted, logged and reported (R300). Codes: 1 TERR, 2 DERR, 3 POISON, 4 TIMEOUT. -/
def busError (p : Nat) (write : Bool) (tag code : Nat) (r : Req) (d : Dev) : Dev :=
  let d := match code with
    | 1 => d.inc F.FP_ERR_TERR p
    | 2 => d.inc F.FP_ERR_DERR p
    | 3 => d.inc F.FP_ERR_POISON p
    | _ => d.inc F.FP_ERR_TIMEOUT p
  let d := d.wr64 F.FP_ELOG_LO_ADDR F.FP_ELOG_HI_ADDR (r.addr / 64 * 64) p
  let d := d.wr F.FP_ELOGK_KIND (match r.kind with | .ctrl => 0 | .data => 1 | .dma => 2) p
  let d := ((d.put F.FP_ELOGK_WR write p).wr F.FP_ELOGK_CODE code p).wr F.FP_ELOGK_TAG tag p
  produce 0x76 (raise (0x60 + p) d)

/-- A response on a tag that is not outstanding: late on a quarantined tag, else stray (R295). A read response is its whole
burst, counted at its last beat (assumption 70). -/
def strayResponse (p : Nat) (write : Bool) (tag : Nat) (last : Bool) (d : Dev) : Dev :=
  let x := (d.prt p).dir write
  if !last then d
  else if x.quar.contains tag then
    let d := d.setPort p ((d.prt p).setDir write { x with quar := x.quar.erase tag })
    let d := d.wr (if write then F.FP_QUAR_WRQ else F.FP_QUAR_RDQ) (x.quar.erase tag).length p
    raise (0x60 + p) (d.inc F.FP_STRAY_LATE p)
  else raise (0x60 + p) (d.inc F.FP_STRAY_STRAY p)

/-- Close an outstanding request; a bus error is recorded. -/
def closeReq (p : Nat) (write : Bool) (tag code : Nat) (r : Req) (d : Dev) : Dev :=
  let x := (d.prt p).dir write
  let d := setOut p write (d.setPort p ((d.prt p).setDir write { x with out := del x.out tag }))
  if code = 0 then d else busError p write tag code r d

/-- A read-data beat (R291, R293): the finished request, its code and the bytes asked for, once LAST arrives. -/
def takeReadBeat (p tag : Nat) (bytes : List Byte) (last : Bool) (resp : Nat) (d : Dev) : Dev × Option (Req × Nat × List Byte) :=
  let x := (d.prt p).rd
  match look x.out tag with
  | none => (strayResponse p false tag last d, none)
  | some o =>
    let err := if o.err = 0 then resp else o.err
    let got := if err = 0 then o.got ++ fitTo 64 0 bytes else o.got
    if last then
      (closeReq p false tag err o.req d, some (o.req, err, (got.drop (o.req.addr % 64)).take o.req.len))
    else
      (d.setPort p { d.prt p with rd := { x with out := ins x.out tag { o with got := got, err := err } } }, none)

/-- A write response (R293): POISON counts as TERR. -/
def takeWriteResp (p tag resp : Nat) (d : Dev) : Dev × Option (Req × Nat) :=
  match look (d.prt p).wr.out tag with
  | none => (strayResponse p true tag true d, none)
  | some o =>
    let code := if resp = 3 then 1 else resp
    (closeReq p true tag code o.req d, some (o.req, code))

/-- FABRIC_TIMEOUT (R295): a bus error of kind TIMEOUT, and the tag is quarantined. -/
def takeTimeout (p : Nat) (write : Bool) (tag : Nat) (d : Dev) : Dev × Option Req :=
  match look ((d.prt p).dir write).out tag with
  | none => (d, none)
  | some o =>
    let d := closeReq p write tag 4 o.req d
    let x := (d.prt p).dir write
    let d := d.setPort p ((d.prt p).setDir write { x with quar := x.quar ++ [tag] })
    (d.wr (if write then F.FP_QUAR_WRQ else F.FP_QUAR_RDQ) (x.quar.length + 1) p, some o.req)

/-- FP_CTL.UNQUAR (R295). -/
def unquarantine (p : Nat) (d : Dev) : Dev :=
  let x := d.prt p
  ((d.setPort p { rd := { x.rd with quar := [] }, wr := { x.wr with quar := [] } }).wr F.FP_QUAR_RDQ 0 p).wr F.FP_QUAR_WRQ 0 p

/-- No request outstanding on any port (R297). -/
def fabricQuiet (d : Dev) : Bool :=
  d.fab.all fun p => p.2.rd.out.isEmpty && p.2.wr.out.isEmpty

/-- The KIND, NS, ATOMIC and QOS attribute byte of a request (R292). -/
def Req.attr (r : Req) : Nat :=
  let k := match r.kind with | .ctrl => 0 | .data => 1 | .dma => 2
  let q := match r.kind with | .ctrl => 0xC | .data => 0x8 | .dma => if r.hipri then 0xA else 0x4
  k + 4 * b2n r.ns + 8 * b2n r.atomic + 16 * q

/-- A value the spec leaves open: the next count of the model's counter, under `Config.freeValue`. -/
def Dev.fresh (d : Dev) : Nat × Dev := (Config.freeValue d.freeCtr, { d with freeCtr := d.freeCtr + 1 })

end Sys2Proof.Machine
end

