-- ==== Sys2Proof/Machine/Tickets.lean ====
section
/-!
DEFINITION. Tickets and their fields (R41–R43), cells and die queues (R52–R61), completion rings and records (R60–R68),
telemetry (R69–R71).
-/

namespace Sys2Proof.Machine

/-- Field of a ticket: `n` bytes from `off`, bits from `lo`, width `w` (R41). -/
def tf (t : List Byte) (off n lo w : Nat) : Nat := fld (leAt t off n) lo w

def tOpc (t : List Byte) : Nat := tf t 0 1 0 4
def tClass (t : List Byte) : Nat := tf t 0 1 4 2
def tPfp (t : List Byte) : Nat := tf t 0 1 6 1
def tIrq (t : List Byte) : Bool := tf t 0 1 7 1 == 1
def tCprof (t : List Byte) : Nat := tf t 1 1 0 3
def tMpl (t : List Byte) : Bool := tf t 1 1 3 1 == 1
def tLmap (t : List Byte) : Bool := tf t 1 1 4 1 == 1
def tStr (t : List Byte) : Bool := tf t 1 1 5 1 == 1
def tTlm (t : List Byte) : Bool := tf t 1 1 6 1 == 1
def tPlanes (t : List Byte) : Nat := leAt t 2 1
def tCq (t : List Byte) : Nat := tf t 3 1 0 6
def tDix (t : List Byte) : Nat := tf t 4 2 0 10
def tTenant (t : List Byte) : Nat := tf t 6 2 0 12
def tBlock (t : List Byte) : Nat := tf t 8 2 0 13
def tPage (t : List Byte) : Nat := leAt t 10 2
def tCwFirst (t : List Byte) : Nat := leAt t 12 1
def tCwCnt (t : List Byte) : Nat := leAt t 13 1
def tAcc (t : List Byte) : Nat := tf t 14 2 0 6
def tMember (t : List Byte) : Nat := tf t 14 2 6 6
def tClose (t : List Byte) : Bool := tf t 14 2 12 1 == 1
def tDbuf (t : List Byte) : Nat := leAt t 16 8
def tMbuf (t : List Byte) : Nat := leAt t 24 8
def tTag (t : List Byte) : Nat := leAt t 48 8
/-- COPY arguments (R43). -/
def tTdix (t : List Byte) : Nat := tf t 32 2 0 10
def tTblock (t : List Byte) : Nat := tf t 34 2 0 13
def tTpage (t : List Byte) : Nat := leAt t 36 2
def tTplanes (t : List Byte) : Nat := leAt t 38 1
def tTprof (t : List Byte) : Nat := tf t 39 1 0 3
def tBitmap (t : List Byte) : Nat := leAt t 40 8
/-- OPARG byte 32 and length (R43). -/
def tArg (t : List Byte) : Nat := leAt t 32 1
def tLen (t : List Byte) : Nat := leAt t 34 2
def tRoutine (t : List Byte) : Nat := leAt t 32 2

/-- Opcodes (R42). -/
def opRead : Nat := 1
def opProgram : Nat := 2
def opErase : Nat := 3
def opCopy : Nat := 4
def opStatus : Nat := 5
def opSetFeat : Nat := 6
def opGetFeat : Nat := 7
def opDieReset : Nat := 8
def opReadId : Nat := 9
def opParam : Nat := 10
def opCal : Nat := 11
def opRoutine : Nat := 12

/-- Cluster of a die, and channel of a die (R5, R6). -/
def dixCh (x : Nat) : Nat := x / 32 % 32
def dixCl (x : Nat) : Nat := x / 256 % 4
def chCl (c : Nat) : Nat := c / 8

def Dev.cell (d : Dev) (c : Nat) : Cell := (look d.cells c).getD {}

def Dev.setCell (d : Dev) (c : Nat) (x : Cell) : Dev := { d with cells := ins d.cells c x }

/-- Change a cell that holds a ticket. -/
def Dev.onCell (c : Nat) (f : Cell → Cell) (d : Dev) : Dev :=
  match look d.cells c with
  | none => d
  | some x => d.setCell c (f x)

/-- A die queue by its key (R59): four queues per die. -/
def qkey (dix cls : Nat) : Nat := dix * 4 + cls

def Dev.queue (d : Dev) (k : Nat) : List Nat := (look d.dq k).getD []

/-- Replace a die queue; its COUNT follows (R59, DQ_STATc). -/
def Dev.setQueue (d : Dev) (k : Nat) (q : List Nat) : Dev :=
  { d with dq := putD d.dq k q [] }.wr (F.DQ_STAT_COUNT.ix (k % 4)) q.length (k / 4)

/-- NEXT of a cell on its die queue (R53): 0xF_FFFF at the end. -/
def nextOf : List Nat → Nat → Nat
  | a :: b :: r, c => if a = c then b else nextOf (b :: r) c
  | _, _ => 0xFFFFF

/-- The 64 bytes of a cell in system memory (R53). -/
def cellBytes (x : Cell) (next st : Nat) : List Byte :=
  let b := x.tkt.take 56 ++ leBytes 4 (next + 2 ^ 20 * st + 2 ^ 23 * b2n (x.sq == 0xFF) + 2 ^ 24 * x.sq)
  b ++ leBytes 4 (crc32c b)

def thlBase (d : Dev) : Nat := d.rd64 F.THL_BASE_LO_ADDR F.THL_BASE_HI_ADDR

def cellAddr (d : Dev) (c : Nat) : Nat := thlBase d + 64 * c

/-- The port of free-list and admission traffic of a ring (R298). -/
def sqPort (sq : Nat) : Nat := if sq = 0xFF then 0 else sq % 4

/-- The queue a cell is linked on: that of its die and class at admission (R59, R499). -/
def cellKey (x : Cell) : Nat := qkey x.dix x.qcls

/-- DQ_STATc.BROKEN of a queue (R57). -/
def queueBroken (d : Dev) (k : Nat) : Bool := d.on (F.DQ_STAT_BROKEN.ix (k % 4)) (k / 4)

/-- The port of a cell's write-back (R298): its ring's while it is newly admitted, then its die's cluster. -/
def backPort (x : Cell) : Nat := if x.fresh then sqPort x.sq else dixCl x.dix

/-- Write a cell back (R298, R493, CELL_LINK). -/
def writeBackAs (c next st : Nat) (d : Dev) : Dev :=
  let x := d.cell c
  request (backPort x) true { what := .cellWrite c, addr := cellAddr d c, len := 64, data := cellBytes x next st } d

/-- Write a queued cell back. -/
def writeBackQueued (c : Nat) (d : Dev) : Dev := writeBackAs c (nextOf (d.queue (cellKey (d.cell c))) c) 1 d

/-- Fetch a queued cell into the cache (R56). -/
def fetchCell (c : Nat) (d : Dev) : Dev :=
  let x := d.cell c
  request (dixCl x.dix) false { what := .cellFetch c false, addr := cellAddr d c, len := 64 }
    (d.setCell c { x with fetching := true })

/-- Keep the first 15 cells of a die queue in the cache (R56); a broken queue reads no more (R57). -/
def prefetchQueue (k : Nat) (d : Dev) : Dev :=
  if queueBroken d k then d
  else Dev.each ((d.queue k).take 15) (fun c d =>
    let x := d.cell c
    if x.cached || x.fetching then d else fetchCell c d) d

/-- Take a cell off its die queue, wherever it stands; the predecessor's NEXT changes and is written back (R493). -/
def unlink (c : Nat) (d : Dev) : Dev :=
  let k := cellKey (d.cell c)
  let q := d.queue k
  let pre := (q.takeWhile (· != c)).getLast?
  let d := d.setQueue k (q.filter (· != c))
  let d := match pre with
    | some b => if q.contains c then writeBackQueued b d else d
    | none => d
  prefetchQueue k d

/-- The die a ticket counts as started on: a COPY's source until the target side's grant, then its target (R233). -/
def startedDie (x : Cell) : Nat := if x.onTgt then x.tdix else x.dix

/-- Started tickets of a die, until their records are written (R114). -/
def placesOn (d : Dev) (dix : Nat) : Nat :=
  (d.cells.filter fun p => p.2.started && startedDie p.2 == dix).length

/-- The head of the free list, as NEXT shows it (R53, R54). -/
def freeHead (d : Dev) : Nat :=
  match d.adm.free with
  | [] => 0xFFFFF
  | (a, _, _) :: _ => a

/-- Take the head of the free list (R54). A cell that has been returned before is read from memory for its NEXT. -/
def takeFree (port : Nat) (d : Dev) : Option (Nat × Dev) :=
  match d.adm.free with
  | [] => none
  | (a, n, back) :: r =>
    let d := { d with adm := { d.adm with free := if n ≤ 1 then r else (a + 1, n - 1, back) :: r } }
    let d := d.decr F.THL_FREE_FREE
    let d := if back then request port false { what := .cellFetch a true, addr := cellAddr d a, len := 64 } d else d
    some (a, d)

/-- The free list has a cell for a ticket (R55): always for a direct or a class-0 one, else above THL_RSV. -/
def freeFor (d : Dev) (h : Hand) : Bool :=
  d.adm.free != [] && !d.on F.ADM_STAT_FLBROKEN &&
  (h.sq == 0xFF || tClass h.bytes == 0 || d.rd F.THL_RSV_RSV < d.rd F.THL_FREE_FREE)

def sqSize (d : Dev) (k : Nat) : Nat := 2 ^ d.rd (F.SQ_CFG_SIZE.ix k)

/-- Tickets pending on a ring (R44). -/
def sqPending (d : Dev) (k : Nat) : Nat :=
  (d.rd (F.SQ_DB_TAIL.ix k) + sqSize d k - d.rd (F.SQ_DB_HEAD.ix k)) % sqSize d k

/-- ADM_STAT.STALL (R55): a ticket in hand waits for a free cell, or the free list is empty and a ring has tickets to fetch. -/
def admStall (d : Dev) : Dev :=
  let waits := (d.adm.hand ++ d.adm.direct.toList).any fun h => !freeFor d h
  let rings := (d.adm.free.isEmpty || d.on F.ADM_STAT_FLBROKEN) && d.on F.ADM_CTL_EN &&
    (List.range 64).any fun k => d.on (F.SQ_CFG_EN.ix k) && sqPending d k != 0
  d.put F.ADM_STAT_STALL (waits || rings)

/-- Link a cell at the head of the free list (R54): written back with STATE 0 and NEXT the former head (R493). `b` are the
bytes 0–55 it holds, `port` the port of its traffic. -/
def freePush (c port sq : Nat) (b : List Byte) (d : Dev) : Dev :=
  let d := request port true
    { what := .freeWrite c sq, addr := cellAddr d c, len := 64, data := cellBytes { tkt := b, sq := sq } (freeHead d) 0 } d
  admStall ({ d with adm := { d.adm with free := (c, 1, true) :: d.adm.free } }.inc F.THL_FREE_FREE)

def Dev.cqs (d : Dev) (j : Nat) : CqSt := (look d.cq j).getD {}

def Dev.setCq (d : Dev) (j : Nat) (x : CqSt) : Dev := { d with cq := ins d.cq j x }

/-- A record is issued, or its cell is freed: it counts among its ring's pending records no more (R67). -/
def pendDrop (j c : Nat) (d : Dev) : Dev :=
  let x := d.cqs j
  d.setCq j { x with pend := x.pend.filter (· != c)
                     first := if (x.pend.take x.first).contains c then x.first - 1 else x.first }

/-- Return a ticket's cell to the free list; its tenant's count of cells falls (R54, R341). -/
def freeCell (c : Nat) (d : Dev) : Dev :=
  match look d.cells c with
  | none => d
  | some x =>
    let d := pendDrop (tCq x.tkt) c ({ d with cells := del d.cells c }.decr F.TN_USE_CELLS x.uten)
    freePush c (sqPort x.sq) x.sq x.tkt d

/-- Slots of completion ring `j` that are free (R60): of S − 1, less records not consumed and slots reserved. -/
def cqFree (d : Dev) (j : Nat) : Nat :=
  if !d.on (F.CQ_CFG_EN.ix j) then 0
  else
    let s := 2 ^ d.rd (F.CQ_CFG_SIZE.ix j)
    let held := (d.rd (F.CQ_DB_TAIL.ix j) + s - d.rd (F.CQ_DB_HEAD.ix j)) % s
    s - 1 - held - (d.cqs j).reserved

/-- The ring has a free slot for a head: the free slots outnumber the records waiting for it (R60). -/
def cqReady (d : Dev) (j : Nat) : Bool := (d.cqs j).waiting.length < cqFree d j

/-- The rings of tickets that are to start together have a free slot for each (R60). -/
def slotsFor (d : Dev) (ks : List Nat) : Bool :=
  ks.all fun k =>
    let j := tCq (d.cell k).tkt
    (d.cqs j).waiting.length + (ks.filter fun i => tCq (d.cell i).tkt == j).length ≤ cqFree d j

/-- The head of a die queue waits for a completion slot (R60, R113, DQ_STATc.HEADBLK). -/
def headBlocked (d : Dev) (k : Nat) : Bool :=
  match (d.queue k).head? with
  | none => false
  | some h => !cqReady d (tCq (d.cell h).tkt)

def reserveSlot (j : Nat) (d : Dev) : Dev := d.setCq j { d.cqs j with reserved := (d.cqs j).reserved + 1 }

def releaseSlot (j : Nat) (d : Dev) : Dev := d.setCq j { d.cqs j with reserved := (d.cqs j).reserved - 1 }

/-! ### What every ending does: stripes, streams, timeouts in a row -/

/-- The 64-bit member masks of accumulator `n` (R222). -/
def accClaim (d : Dev) (n : Nat) : Nat := d.rd64 F.ACC_CLAIM_LO_MASK F.ACC_CLAIM_HI_MASK n
def accTaken (d : Dev) (n : Nat) : Nat := d.rd64 F.ACC_TAKEN_LO_MASK F.ACC_TAKEN_HI_MASK n
def accDrop (d : Dev) (n : Nat) : Nat := d.rd64 F.ACC_DROP_LO_MASK F.ACC_DROP_HI_MASK n
def accFail (d : Dev) (n : Nat) : Nat := d.rd64 F.ACC_FAIL_LO_MASK F.ACC_FAIL_HI_MASK n
def setClaim (n v : Nat) (d : Dev) : Dev := d.wr64 F.ACC_CLAIM_LO_MASK F.ACC_CLAIM_HI_MASK v n
def setTaken (n v : Nat) (d : Dev) : Dev := d.wr64 F.ACC_TAKEN_LO_MASK F.ACC_TAKEN_HI_MASK v n
def setDrop (n v : Nat) (d : Dev) : Dev := d.wr64 F.ACC_DROP_LO_MASK F.ACC_DROP_HI_MASK v n
def setFail (n v : Nat) (d : Dev) : Dev := d.wr64 F.ACC_FAIL_LO_MASK F.ACC_FAIL_HI_MASK v n

/-- ACC_STAT.STATE (R210). -/
def accState (d : Dev) (n : Nat) : Nat := d.rd F.ACC_STAT_STATE n

/-- Transfers in progress into a stripe that is discarded run to their end and are discarded (R217). -/
def lostTakes (x : AccSt) : AccSt := { takes := x.takes.map fun t => { t with lost := true } }

/-- Back to IDLE with the contents and the error bits gone (R210). -/
def accToIdle (n : Nat) (d : Dev) : Dev :=
  let d := (((d.wr F.ACC_STAT_STATE 0 n).wr F.ACC_STAT_ABORTING 0 n).wr F.ACC_STAT_UE 0 n).wr F.ACC_STAT_EMITERR 0 n
  { d.wr F.ACC_STAT_MOVERR 0 n with acc := putD d.acc n (lostTakes ((look d.acc n).getD {})) {} }

/-- An ABORT waiting for claims ends with the last of them (R210). -/
def accSettle (n : Nat) (d : Dev) : Dev :=
  if d.on F.ACC_STAT_ABORTING n && accClaim d n == 0 then accToIdle n d else d

/-- A member that ends before its commit point is dropped (R213). -/
def memberDrop (x : Cell) (d : Dev) : Dev :=
  match x.claim with
  | none => d
  | some (n, m, close) =>
    if !bit (accClaim d n) m then d
    else
      let d := setDrop n (setBit (accDrop d n) m) (setClaim n (clrBit (accClaim d n) m) d)
      accSettle n (if close then d.wr F.ACC_STAT_CLOSED 0 n else d)

/-- An outcome of row 4 of R237: the target side lost its die before its commit, held or not. -/
def targetLost (o : Outcome) : Bool :=
  (o.status == 0x30 || o.status == 0x31) && (o.detail == 4 || o.detail / 4 == 0x21)

/-- A COPY's stream is free again. -/
def releaseStream (c : Nat) (d : Dev) : Dev :=
  let x := d.cell c
  match x.stream with
  | none => d
  | some s =>
    let cl := dixCl x.dix
    let d := d.setCell c { x with stream := none }
    let d := d.wr F.TRV_STAT_BUSY (clrBit (d.rd F.TRV_STAT_BUSY cl) s) cl
    (((d.wr (F.TRV_STR_STATE.ix s) 0 cl).wr (F.TRV_STR_XCL.ix s) 0 cl).wr (F.TRV_STR_SRCDIX.ix s) 0 cl).wr (F.TRV_STR_TGTDIX.ix s) 0 cl

/-- The counts of a COPY that ends, whether it has held a stream or not (R241). -/
def copyCounts (c : Nat) (o : Outcome) (d : Dev) : Dev :=
  let x := d.cell c
  if tOpc x.tkt != opCopy then d
  else
    let cl := dixCl x.dix
    let d := d.incW F.TRV_DONE_CNT cl
    if o.status = 0x10 ∨ o.status = 0x11 then d.inc F.TRV_FAIL_SRC cl
    else if o.status = 0x20 ∨ (o.status = 0x7F ∧ o.detail = 0x30 ∧ x.onTgt) ∨ targetLost o
    then d.inc F.TRV_FAIL_TGT cl
    else if o.status ≤ 2 then d.incW F.TRV_CW_CNT cl x.relocated
    else d

/-- The common part of every ending. -/
def ticketEnds (c : Nat) (o : Outcome) (d : Dev) : Dev :=
  let x := d.cell c
  let d := if x.committed then d else memberDrop x d
  let d := releaseStream c (copyCounts c o d)
  if o.status = 0x30 then d else d.wr F.DIE_STAT_TOCONS 0 (startedDie x)

/-- The outcome of a started ticket is decided; its record follows when its data writes have returned (R38, R67). -/
def finishStarted (c : Nat) (o : Outcome) (d : Dev) : Dev :=
  match look d.cells c with
  | none => d
  | some x =>
    let o := if tOpc x.tkt = opCopy ∨ tOpc x.tkt = opRead then { o with result := x.corrected } else o
    if x.out.isSome then d
    else
      let d := Dev.onCell c (fun x => { x with out := some o, st := 4 }) (ticketEnds c o d)
      let j := tCq x.tkt
      d.setCq j { d.cqs j with pend := (d.cqs j).pend ++ [c] }

/-! ### Records that wait for a slot (R56, R62) -/

/-- The cell of a ticket that ended without starting, in the cache's last 1,024 places. -/
def inOther (x : Cell) : Bool := !x.started && x.out.isSome && !x.fresh && (x.cached || x.fetching)

def otherCells (d : Dev) : Nat := (d.cells.filter fun p => inOther p.2).length

/-- The cells on the waiting list of a ring, in order. -/
def waitCells (d : Dev) (j : Nat) : List Nat :=
  (d.cqs j).waiting.filterMap fun r => match r with
    | .cell c => some c
    | .reject _ => none

/-- Such a cell leaves the cache: written back with STATE 4 (R493). -/
def waitLeaves (c : Nat) (d : Dev) : Dev :=
  Dev.onCell c (fun x => { x with cached := false })
    (writeBackAs c (nextOf (waitCells d (tCq (d.cell c).tkt)) c) 4 d)

/-- Make room among the 1,024 places: a cell that is not the first waiting for its ring leaves. -/
def waitRoom (d : Dev) : Dev :=
  if otherCells d < 1024 then d
  else match d.cells.find? fun p => inOther p.2 && p.2.cached && (d.cqs (tCq p.2.tkt)).waiting.head? != some (.cell p.1) with
    | some p => waitLeaves p.1 d
    | none => d

/-- The cell of the first record that waits for a ring is fetched again when a slot has freed. -/
def waitRecall (j : Nat) (d : Dev) : Dev :=
  match (d.cqs j).waiting.head? with
  | some (.cell c) =>
    let x := d.cell c
    if x.cached || x.fetching || x.bad || cqFree d j = 0 then d else fetchCell c (waitRoom d)
  | _ => d

/-- A ticket ends without having started: off its queue, onto the waiting list of its ring (R62). Its cell, where the cache
holds it, stays only while the 1,024 places of R56 last. -/
def finishQueued (c : Nat) (o : Outcome) (d : Dev) : Dev :=
  let x := d.cell c
  if x.out.isSome || x.started then d
  else
    let full := 1024 ≤ otherCells d
    let d := unlink c (ticketEnds c o d)
    let d := Dev.onCell c (fun x => { x with out := some o, st := 4, stg := 0, tstg := 0, fetching := x.fetching && !full }) d
    let j := tCq x.tkt
    let d := d.setCq j { d.cqs j with waiting := (d.cqs j).waiting ++ [.cell c] }
    waitRecall j (if full && x.cached && !x.fresh then waitLeaves c d else d)

/-- End a ticket by whether it has started. -/
def finish (c : Nat) (o : Outcome) (d : Dev) : Dev :=
  match look d.cells c with
  | none => d
  | some x => if x.started then finishStarted c o d else finishQueued c o d

/-- A telemetry record (R69, R70, TELEMETRY_RECORD). `payload` is the 18-bit payload. -/
def telemetry (ty dix payload : Nat) (d : Dev) : Dev :=
  Dev.each (List.range 16) (fun q d =>
    if d.on (F.TQ_CFG_EN.ix q) && ty != 0 && bit (d.rd (F.TQ_CFG_TYPES.ix q)) (ty - 1) then
      let x := (look d.tq q).getD {}
      let op := x.opened ++ [ty * 2 ^ 28 + dix % 1024 * 2 ^ 18 + payload % 2 ^ 18]
      if op.length < 8 then
        { d with tq := ins d.tq q { x with opened := op } }.wr (F.TQ_STAT_OPEN.ix q) 1
      else
        let full := x.closed.length = 64
        let cl := (if full then x.closed.drop 1 else x.closed) ++ [op]
        let d := if full then d.incW (F.TQ_LOST_LOST.ix q) 0 8 else d
        let d := ({ d with tq := ins d.tq q { closed := cl, opened := [] } }.wr (F.TQ_STAT_OPEN.ix q) 0).wr (F.TQ_STAT_WORDS.ix q) cl.length
        if !full && cl.length == d.rd (F.TQ_CFG_WM.ix q) then produce (0x40 + q) d else d
    else d) d

/-- A telemetry record of a ticket: only when its TLM bit is 1 (R69). -/
def telemetryOf (c ty dix payload : Nat) (d : Dev) : Dev :=
  if tTlm (d.cell c).tkt then telemetry ty dix payload d else d

/-- The registers TQq_WORD0–7 (R76). -/
def tqWord (w : Nat) : Fld :=
  { F.TQ_WORD0_WORD with off := F.TQ_WORD0_WORD.off + 4 * w }

/-- TQ_POP (R71). `m` is the reading of the queue's buffer: an uncorrectable word's closed record word is discarded (R365,
region 10). -/
def tqPop (q : Nat) (m : Mem) (d : Dev) : Dev :=
  let x := (look d.tq q).getD {}
  let m := memFinds d 10 m
  let d := readMem 10 m d
  let lost := m.isUe && !x.closed.isEmpty
  let d := if lost then d.incW (F.TQ_LOST_LOST.ix q) 0 8 else d
  let x := if lost then { x with closed := x.closed.drop 1 } else x
  let (w, valid, y) := match x.closed with
    | w :: r => (w, 32, { x with closed := r })
    | [] => (x.opened, 4 * x.opened.length, { x with opened := [] })
  let d := Dev.each (List.range 8) (fun i d => d.wr ((tqWord i).ix q) (w.getD i 0)) d
  let d := d.wr (F.TQ_WTAG_VALID.ix q) valid
  let d := if valid = 0 then d else d.incW (F.TQ_WTAG_SEQ.ix q)
  ({ d with tq := ins d.tq q y }.put (F.TQ_STAT_OPEN.ix q) (!y.opened.isEmpty)).wr (F.TQ_STAT_WORDS.ix q) y.closed.length

/-- The 32 bytes of a completion record or manifest entry (R64, R73). -/
def recordBytes (t : List Byte) (sq slot : Nat) (o : Outcome) (retry susp lat : Nat) (phase : Bool) : List Byte :=
  let b := leBytes 8 (tTag t) ++ leBytes 2 (tDix t + 2 ^ 15 * b2n phase) ++ leBytes 1 o.status ++ leBytes 1 o.detail ++
    leBytes 2 (tTenant t + 2 ^ 12 * tOpc t) ++ leBytes 2 (min retry 255 + 2 ^ 8 * min susp 15) ++
    leBytes 4 (min lat (2 ^ 32 - 1)) ++ leBytes 4 (min o.result (2 ^ 32 - 1)) ++
    leBytes 2 (if sq = 0xFF then 0 else slot) ++ leBytes 1 sq ++ leBytes 1 0
  b ++ leBytes 4 (crc32c b)

/-- The charges applied at the issue of a started ticket's record or manifest entry (R343, R344, R346). -/
def chargeTicket (x : Cell) (d : Dev) : Dev :=
  let t := tTenant x.tkt
  let o := tOpc x.tkt
  let d := if o = opRead then charge t .reads 1 d
    else if o = opProgram then charge t .programs 1 d
    else if o = opErase then charge t .erases 1 d
    else if o = opCopy then charge t .programs 1 (charge t .reads 1 d)
    else charge t .others 1 d
  let d := charge t .rdcw x.rdcw d
  let d := if o = opProgram ∧ x.committed then charge t .wrcw (tCwCnt x.tkt * popc 8 (tPlanes x.tkt)) d else d
  let d := if o = opCopy ∧ x.committed then charge t .reloccw x.relocated d else d
  chargeEvents t 4 x.xfer (chargeEvents t 3 x.enc d)

/-- A context still works for a ticket whose outcome is decided: its routine runs to its end (R100). -/
def stillRuns (d : Dev) (c : Nat) : Bool :=
  ((look d.chs (dixCh (startedDie (d.cell c)))).getD {}).ctxs.any fun p => p.2.cells.contains c

/-- The charges of a cell's ticket, once (R344). -/
def chargeCell (c : Nat) (d : Dev) : Dev :=
  let x := d.cell c
  if x.charged || !x.started then d else chargeTicket x (Dev.onCell c (fun x => { x with charged := true }) d)

/-- Records of the ring are held, and the ring is to be recovered (R67). -/
def ringHeld (x : CqSt) : Bool := !x.held.isEmpty || (x.failed && !x.pend.isEmpty)

/-- The cell and outcome of a record that may be issued now. -/
def recHand (d : Dev) (r : Rec) : Option (List Byte × Nat × Nat × Nat × Outcome × Nat × Nat) :=
  match r with
  | .cell c => match look d.cells c with
    | none => none
    | some x => match x.out with
      | none => none
      | some o => if x.writes = 0 && x.rxLeft == 0 && !x.taking && !stillRuns d c then some (x.tkt, x.sq, x.slot, tCq x.tkt, o, x.retry, x.susp) else none
  | .reject k => match d.adm.rejects.find? fun r => r.hand.sq = k with
    | none => none
    | some r => some (r.hand.bytes, r.hand.sq, r.hand.slot, r.cq, r.out, 0, 0)

/-- Whether a record holds a slot reserved at its ticket's start. -/
def recReserved (d : Dev) : Rec → Bool
  | .cell c => (d.cell c).started
  | .reject _ => false

/-- The record write itself (R64, R66, R68), poisoned where a staged word of it is uncorrectable (R365, region 8): the interrupt source and producer `j` follow. -/
def writeRecord (j : Nat) (r : Rec) (tries lat : Nat) (poison : Bool) (d : Dev) : Dev :=
  match recHand d r with
  | none => d
  | some (t, sq, slot, _, o, retry, susp) =>
    let tail := d.rd (F.CQ_DB_TAIL.ix j)
    let base := d.rd64 (F.CQ_BASE_LO_ADDR.ix j) (F.CQ_BASE_HI_ADDR.ix j)
    let d := d.setCq j { d.cqs j with busy := some r, tries := tries }
    let d := request (j % 4) true
      { what := .record j tail, addr := base + 32 * tail, len := 32, atomic := true, poison := poison
        data := recordBytes t sq slot o retry susp lat (d.cqs j).phase } d
    if tries = 0 then
      let d := if tIrq t || d.on (F.CQ_CFG_IRQALL.ix j) then raise j d else d
      produce j d
    else d

end Sys2Proof.Machine
end

