-- ==== Sys2Proof/Machine/Queues.lean ====
section
/-!
DEFINITION. Submission rings and the direct path (R44–R48), cell traffic and pool sweeps (R54–R58), completion rings
(R62–R68), the manifest region (R74, R494).
-/

namespace Sys2Proof.Machine

/-! ### Answers waiting for a step of their own -/

/-- Take the oldest answer whose purpose satisfies a test. -/
def takeAnswer (p : Purpose → Bool) (d : Dev) : Option (Answer × Dev) :=
  match pull (fun a => p a.what) d.answers with
  | none => none
  | some (a, r) => some (a, { d with answers := r })

/-- Issue a request again after a bus error (R298). -/
def again (p : Nat) (write : Bool) (a : Answer) (d : Dev) : Dev := request p write { a.req with tries := a.req.tries + 1 } d

/-! ### Submission -/

def Dev.sqs (d : Dev) (k : Nat) : SqSt := (look d.adm.sq k).getD {}

def Dev.setSq (d : Dev) (k : Nat) (x : SqSt) : Dev := { d with adm := { d.adm with sq := ins d.adm.sq k x } }

/-- Enabling a ring (R44). -/
def sqEnable (k : Nat) (d : Dev) : Dev := ((d.setSq k { gen := (d.sqs k).gen + 1 }).wr (F.SQ_DB_TAIL.ix k) 0).wr (F.SQ_DB_HEAD.ix k) 0

/-- Whether admission may fetch from a ring now (R46, R55, R62). -/
def sqVisitable (d : Dev) (k : Nat) : Bool :=
  d.on (F.SQ_CFG_EN.ix k) && sqPending d k != 0 && !(d.sqs k).fetching &&
  d.adm.hand.all (fun h => h.sq != k) && d.adm.rejects.all (fun r => r.hand.sq != k)

/-- The ring to visit: the one whose visit is unfinished, else the next in round-robin order (R46). -/
def nextRing (d : Dev) : Option Nat :=
  if (d.sqs d.adm.lastRing).left != 0 && sqVisitable d d.adm.lastRing then some d.adm.lastRing
  else ((List.range 64).map fun i => (d.adm.lastRing + 1 + i) % 64).find? (sqVisitable d)

/-- A power-state request is pending (R387). -/
def pmPending (d : Dev) : Bool := d.rd F.PM_STAT_STATE == 2

/-- Admission takes nothing new: EN is 0, fetching is halted, a power-state request is pending, or a sweep runs (R58, R72,
R76, R387). -/
def admStopped (d : Dev) : Bool := !d.on F.ADM_CTL_EN || d.adm.halted || pmPending d || d.adm.sweep.isSome

/-- Newly admitted cells that wait for their write-back (R56). -/
def freshCells (d : Dev) : Nat := (d.cells.filter fun p => p.2.fresh).length

/-- All admission stalls: no free cell, a broken free list, or the cache's 1,024 places for new cells taken (R55–R57). -/
def admStalled (d : Dev) : Bool := d.adm.free.isEmpty || d.on F.ADM_STAT_FLBROKEN || 1024 ≤ freshCells d

/-- TICKET_FETCH (R46, R372): one read of up to 8 tickets, within the visit's weight and one 4 KiB page. -/
def ticketFetch (d : Dev) : Dev :=
  if admStopped d || !admReady d then d
  else if admStalled d then admStall d
  else match nextRing d with
    | none => d
    | some k =>
      let w := d.rd (F.SQ_CFG_WEIGHT.ix k)
      let x := d.sqs k
      let left := if k = d.adm.lastRing ∧ x.left ≠ 0 then x.left else if w = 0 then 16 else w
      let h := d.rd (F.SQ_DB_HEAD.ix k)
      let n := min (min 8 left) (min (sqPending d k) (min (sqSize d k - h) (64 - h % 64)))
      let base := d.rd64 (F.SQ_BASE_LO_ADDR.ix k) (F.SQ_BASE_HI_ADDR.ix k)
      let d := { d with adm := { d.adm with lastRing := k } }
      request (k % 4) false { what := .ticketFetch k h n x.gen, addr := base + 64 * h, len := 64 * n }
        (d.setSq k { fetching := true, left := left, gen := x.gen })

/-- Cut a byte string into tickets. -/
def ticketsOf : Nat → List Byte → List (List Byte)
  | 0, _ => []
  | n + 1, b => fitTo 64 0 b :: ticketsOf n (b.drop 64)

/-- A fetch of tickets ends (R46, R298): on a bus error HEAD does not advance. Tickets whose ring has been enabled anew
since lie no longer between HEAD and TAIL and are dropped (R44, assumption 78). `ues` are the outcomes of the writes into
staging, a word each in order (R364). -/
def ticketsArrive (k slot n gen code : Nat) (b : List Byte) (ues : List Bool) (d : Dev) : Dev :=
  let x := d.sqs k
  if x.gen != gen then d
  else if code != 0 then d.setSq k { gen := gen }
  else
    let hs := (ticketsOf n b).zipIdx.map fun p => 
      ({ sq := k, slot := slot + p.2, bytes := p.1, ue := ((ues.drop (8 * p.2)).take 8).any id } : Hand)
    let d := d.setSq k { fetching := false, left := x.left - n, gen := gen }
    let d := d.wr (F.SQ_DB_HEAD.ix k) ((slot + n) % sqSize d k)
    admStall { d with adm := { d.adm with hand := d.adm.hand ++ hs } }

/-- The 64 bytes of TKT_DATA0–15. -/
def directBytes (d : Dev) : List Byte := (List.range 16).flatMap fun i => leBytes 4 (d.rd (F.TKT_DATA_DATA.ix i))

/-- TKT_GO (R48): dropped and counted while BUSY, and while the direct path rejects it (R72, R387, R456). -/
def tktGo (d : Dev) : Dev :=
  if d.on F.TKT_STAT_BUSY || d.adm.halted || pmPending d then d.inc F.TKT_STAT_DROP
  else { d with adm := { d.adm with direct := some { sq := 0xFF, slot := 0, bytes := directBytes d } } }.wr F.TKT_STAT_BUSY 1

/-- No fetch and no ticket in admission (ADM_STAT.IDLE). -/
def admIdle (d : Dev) : Bool :=
  d.adm.sq.all (fun p => !p.2.fetching) && d.adm.hand.isEmpty && d.adm.direct.isNone && d.adm.rejects.isEmpty

/-- The free list over all cells in index order (R54). -/
def freeAll (d : Dev) : Dev := { d with adm := { d.adm with free := [(0, 1048576, false)] } }.wr F.THL_FREE_FREE 0x100000

/-! ### Cells -/

/-- The free list fails (R57, R298): admission stalls. -/
def freeListBroken (d : Dev) : Dev := raise 0x64 (admStall (d.wr F.ADM_STAT_FLBROKEN 1))

/-- A cell's write-back has been answered with OK (R56). -/
def cellWritten (c : Nat) (x : Cell) (d : Dev) : Dev :=
  if !x.fresh then d
  else if x.out.isSome ∧ !x.started then
    let d' := d.setCell c { x with fresh := false }
    if otherCells d < 1024 then d' else waitLeaves c d'
  else d.setCell c { x with fresh := false, cached := x.started || ((d.queue (cellKey x)).take 15).contains c }

/-- CELL_WRITEBACK_RESPONSE (R56, R298): up to 4 retries; then a new cell's or a free one's breaks the free list, and any other
cell stays in the cache. -/
def cellWriteBack (c : Nat) (d : Dev) : Dev :=
  match takeAnswer (fun p => match p with | .cellWrite k => k == c | .freeWrite k _ => k == c | _ => false) d with
  | none => d
  | some (a, d) => match a.what, look d.cells c with
    | .freeWrite _ sq, _ =>
      if a.code = 0 then d
      else if a.req.tries < 4 then again (sqPort sq) true a d
      else freeListBroken d
    | _, none => d
    | _, some x =>
      if a.code = 0 then cellWritten c x d
      else if a.req.tries < 4 then again (backPort x) true a d
      else if x.fresh then freeListBroken d
      else d.setCell c { x with cached := true }

/-- A cell's check (R57): CCRC good, STATE legal and as the list requires. -/
def cellCheck (b : List Byte) (st : Nat) : Bool := crc32c (b.take 60) == leAt b 60 4 && tf b 56 4 20 3 == st

/-- A broken link (R57, BROKEN_LINK): on a die queue, or at a cell whose record waits, which is fetched no more before a
sweep (assumption 80). -/
def brokenLink (c : Nat) (crcFail : Bool) (d : Dev) : Dev :=
  let x := d.cell c
  let d := if crcFail then d.inc F.THL_CECNT_CRCF else d
  let d := d.setCell c { x with fetching := false, bad := x.out.isSome }
  raise 0x64 (if x.out.isSome then d else (d.wr (F.DQ_STAT_BROKEN.ix x.qcls) 1 x.dix).wr F.DQ_BADCELL_CELL c x.dix)

/-- CELL_FETCH_RETURN (R56, R57, R298, R499). -/
def cellFetchReturn (c : Nat) (d : Dev) : Dev :=
  match takeAnswer (fun p => p = .cellFetch c true || p = .cellFetch c false) d with
  | none => d
  | some (a, d) =>
    let fl := a.what = .cellFetch c true
    let port := match look d.cells c with
      | some x => if fl then sqPort x.sq else dixCl x.dix
      | none => c % 4
    if a.code != 0 ∧ a.req.tries < 4 then again port false a d
    else if a.ue then d
    else if fl then
      if a.code = 0 ∧ cellCheck a.bytes 0 then d
      else freeListBroken (if a.code = 0 then d.inc F.THL_CECNT_CRCF else d)
    else match look d.cells c with
      | none => d
      | some x =>
        if !x.fetching then d
        else if a.code = 0 ∧ x.out.isSome ∧ (cellCheck a.bytes 4 ∨ cellCheck a.bytes 1) then
          d.setCell c { x with fetching := false, cached := true }
        else if a.code = 0 ∧ x.out.isNone ∧ cellCheck a.bytes 1 then
          d.setCell c { x with fetching := false, cached := true, tkt := a.bytes.take 56 ++ x.tkt.drop 56 }
        else brokenLink c (a.code == 0) d

/-! ### Pool sweep (R58) -/

/-- The next cell a sweep reads: cells the cache holds for started tickets are left alone (R493), and so are cells whose
first write-back has no answer (assumption 79). -/
def sweepSkip : Nat → Dev → Nat → Nat
  | 0, _, i => i
  | n + 1, d, i => match look d.cells i with
    | some x => if x.started || x.fresh then sweepSkip n d (i + 1) else i
    | none => i

/-- Read the next cell of the sweep, through port i mod 4. -/
def sweepStep (d : Dev) : Dev :=
  match d.adm.sweep with
  | none => d
  | some w =>
    let i := sweepSkip (d.cells.length + 1) d w.next
    if i < 1048576 then
      request (i % 4) false { what := .sweepCell i, addr := cellAddr d i, len := 64 }
        { d with adm := { d.adm with sweep := some { w with next := i, reading := true } } }
    else { d with adm := { d.adm with sweep := some { w with next := 1048576, reading := false } } }

/-- THL_SWEEP.START (R58). A rebuild begins with an empty free list. -/
def sweepStart (d : Dev) : Dev :=
  if d.adm.sweep.isSome then d
  else
    let rb := d.on F.THL_SWEEP_REBUILD || d.on F.ADM_STAT_FLBROKEN
    let d := if rb then { d with adm := { d.adm with free := [] } }.wr F.THL_FREE_FREE 0 else d
    sweepStep (({ d with adm := { d.adm with sweep := some { rebuild := rb } } }.wr F.THL_SWEEP_START 1).wr F.THL_SWEEP_LOST 0)

/-- A cell is on the free list. -/
def onFreeList (d : Dev) (c : Nat) : Bool := d.adm.free.any fun r => r.1 ≤ c && c < r.1 + r.2.1

/-- Link a cell that no ticket holds, with bytes 0–55 as the sweep read them. -/
def sweepFree (c : Nat) (b : List Byte) (d : Dev) : Dev :=
  if onFreeList d c then d else freePush c (c % 4) 0 (fitTo 56 0 b) d

/-- A ticket lost in its cell (R58): off its list, with what it claimed, and its cell reclaimed; it ends with no
completion. -/
def sweepLose (c : Nat) (x : Cell) (b : List Byte) (d : Dev) : Dev :=
  let d := d.inc F.THL_SWEEP_LOST
  let d := releaseStream c (if x.committed then d else memberDrop x d)
  let j := tCq x.tkt
  let d := if x.out.isSome then d.setCq j { d.cqs j with waiting := (d.cqs j).waiting.filter (· != .cell c) } else unlink c d
  waitRecall j (sweepFree c b ({ d with cells := del d.cells c }.decr F.TN_USE_CELLS x.uten))

/-- One cell read by the sweep (R58). -/
def sweepCell (c code : Nat) (b : List Byte) (d : Dev) : Dev :=
  match d.adm.sweep with
  | none => d
  | some w =>
    let st := tf b 56 4 20 3
    let good := code == 0 && crc32c (b.take 60) == leAt b 60 4 && st ≤ 4
    let d := { d with adm := { d.adm with sweep := some { w with next := c + 1, reading := false } } }
    sweepStep (match look d.cells c with
      | some x =>
        if x.started || x.fresh then d
        else if !good then sweepLose c x b d
        else if x.out.isSome then waitRecall (tCq x.tkt) (d.setCell c { x with bad := false })
        else if st = 1 ∧ queueBroken d (cellKey x) then finishQueued c { status := 0x50, detail := 2 } d
        else d
      | none =>
        if !good then sweepFree c b (d.inc F.THL_SWEEP_LOST)
        else if st = 0 ∧ w.rebuild then sweepFree c b d
        else d)

/-- THL_SWEEP_END (R58): broken queues restart empty and the flags clear. What a queue that broke behind the sweep still
holds is completed as the sweep completes it; the cell whose fetch broke it is reclaimed (assumption 79). -/
def sweepEnd (d : Dev) : Dev :=
  match d.adm.sweep with
  | none => d
  | some w =>
    if w.reading || w.next < 1048576 then d
    else
      let broken := d.dq.filter fun (p : Nat × List Nat) => queueBroken d p.1
      let d := Dev.each broken (fun p d =>
        Dev.each p.2 (fun c d =>
          let x := d.cell c
          if d.rd F.DQ_BADCELL_CELL (p.1 / 4) = c ∧ !x.cached then sweepLose c x x.tkt d
          else finishQueued c { status := 0x50, detail := 2 } d) d) d
      let d := Dev.each (List.range 4) (fun c d => d.clearField (F.DQ_STAT_BROKEN.ix c)) d
      admStall (({ d with adm := { d.adm with sweep := none } }.wr F.ADM_STAT_FLBROKEN 0).wr F.THL_SWEEP_START 0)

/-! ### Completion rings -/

/-- A completion ring enabled by a write of EN from 0 to 1 (R63), or recovered under R67: the failed record is written at
once, unless it has ended unwritten (R62), and the records pending with it come before any later one. -/
def cqEnable (j : Nat) (d : Dev) : Dev :=
  let x := d.cqs j
  match x.held with
  | [] =>
    if x.failed && !x.pend.isEmpty then d.setCq j { x with failed := false, first := x.pend.length }
    else waitRecall j (((d.setCq j { x with phase := true, failed := false }).wr (F.CQ_DB_HEAD.ix j) 0).wr (F.CQ_DB_TAIL.ix j) 0)
  | (r, q) :: _ =>
    let d := request (j % 4) true { q with tries := 0 } (d.setCq j { x with busy := some r, tries := 0, first := x.pend.length })
    match recHand d r with
    | some (t, _) => produce j (if tIrq t || d.on (F.CQ_CFG_IRQALL.ix j) then raise j d else d)
    | none => d

/-- A HEAD write in the range from HEAD to TAIL, in circular order (R63). -/
def cqHeadOk (d : Dev) (j v : Nat) : Bool :=
  let s := 2 ^ d.rd (F.CQ_CFG_SIZE.ix j)
  let h := d.rd (F.CQ_DB_HEAD.ix j)
  v < s && (v + s - h) % s ≤ (d.rd (F.CQ_DB_TAIL.ix j) + s - h) % s

/-- The ring of a record. -/
def recRing (d : Dev) : Rec → Option Nat
  | .cell c => (look d.cells c).map fun x => tCq x.tkt
  | .reject k => (d.adm.rejects.find? fun r => r.hand.sq = k).map (·.cq)

/-- The write of a further record would make TAIL equal HEAD (R63). -/
def cqFull (d : Dev) (j : Nat) : Bool :=
  (d.rd (F.CQ_DB_TAIL.ix j) + 1) % 2 ^ d.rd (F.CQ_CFG_SIZE.ix j) == d.rd (F.CQ_DB_HEAD.ix j)

/-- A record may be issued to its ring now: nothing in flight there, held records first in the order of their outcomes, and
a slot reserved or free (R60, R62, R63, R67). -/
def recordDue (d : Dev) (j : Nat) (r : Rec) : Bool :=
  let x := d.cqs j
  let next := x.first == 0 && x.waiting.head? == some r && cqFree d j != 0
  d.on (F.CQ_CFG_EN.ix j) && x.busy.isNone && x.held.isEmpty && (recHand d r).isSome && !cqFull d j &&
  (match r with
   | .cell c =>
     let y := d.cell c
     !y.manifest && (if y.started then
         x.first == 0 || (x.pend.take x.first).find? (fun k => (recHand d (.cell k)).isSome && !(d.cell k).manifest) == some c
       else y.cached && next)
   | .reject _ => next)

/-- COMPLETION_RECORD_WRITE (R38, R62, R67): `lat` is the time from linking to now in units of 10 ns, `m` the reading of the
record's staging (R365). -/
def completionWrite (r : Rec) (lat : Nat) (m : Mem) (d : Dev) : Dev :=
  match recRing d r with
  | none => d
  | some j =>
    if !recordDue d j r then d
    else
      let d := match r with
        | .cell c => if (d.cell c).started then pendDrop j c (chargeCell c d) else d
        | .reject _ => d
      let d := if recReserved d r then d
        else waitRecall j (d.setCq j { d.cqs j with waiting := (d.cqs j).waiting.drop 1, reserved := (d.cqs j).reserved + 1 })
      let m := memFinds d 8 m
      writeRecord j r 0 lat m.isUe (readMem 8 m d)

/-- What happens when a record is in memory: its slot counts, its cell or hand is released (R54, R60, R62). -/
def recordWritten (j : Nat) (r : Rec) (d : Dev) : Dev :=
  let s := 2 ^ d.rd (F.CQ_CFG_SIZE.ix j)
  let t := (d.rd (F.CQ_DB_TAIL.ix j) + 1) % s
  let d := d.wr (F.CQ_DB_TAIL.ix j) t
  let x := d.cqs j
  let d := d.setCq j { x with busy := none, tries := 0, phase := if t = 0 then !x.phase else x.phase,
                              reserved := x.reserved - 1, held := x.held.filter fun h => h.1 ≠ r }
  match r with
  | .cell c => waitRecall j (freeCell c d)
  | .reject k =>
    let d := waitRecall j { d with adm := { d.adm with rejects := d.adm.rejects.filter fun r => r.hand.sq != k } }
    if k = 0xFF then d.wr F.TKT_STAT_BUSY 0 else d

/-- COMPLETION_WRITE_RESPONSE (R67). -/
def completionResponse (j : Nat) (d : Dev) : Dev :=
  match takeAnswer (fun p => match p with | .record i _ => i = j | _ => false) d with
  | none => d
  | some (a, d) =>
    let x := d.cqs j
    match x.busy with
    | none => d
    | some r =>
      if a.code = 0 then recordWritten j r d
      else if a.req.tries < 4 then again (j % 4) true a d
      else ((d.setCq j { x with busy := none, tries := 0, held := [(r, a.req)] }).wr (F.CQ_CFG_EN.ix j) 0).wr (F.CQ_CFG_FERR.ix j) 1

/-! ### The manifest region (R74, R494) -/

def pfmBase (d : Dev) : Nat := d.rd64 F.PFM_BASE_LO_ADDR F.PFM_BASE_HI_ADDR

/-- PFMEN or PFM_BASE has changed: the region is to be read where PFMEN is 1 and PFM_BASE non-zero, and a read in progress is
given up (R494). -/
def pfmDue (d : Dev) : Dev :=
  { d with pfm := { d.pfm with armDue := d.on F.ADM_CTL_PFMEN && pfmBase d != 0, reading := false, got := [], bad := false } }.wr
    F.PFM_STAT_ARMED 0

def pfmReq (d : Dev) (off : Nat) : Req := { what := .pfmRegion d.pfm.gen off, addr := pfmBase d + off, len := 4096 }

/-- PFM_ARM (R494): the read of both halves begins. -/
def pfmArm (d : Dev) : Dev :=
  if d.pfm.armDue then
    let d := { d with pfm := { d.pfm with armDue := false, reading := true, got := [], bad := false, gen := d.pfm.gen + 1 } }
    request 0 false (pfmReq d 0) d
  else d

/-- A page of the region has been read. -/
def pfmPage (gen off code : Nat) (b : List Byte) (d : Dev) : Dev :=
  if gen != d.pfm.gen || !d.pfm.reading then d
  else
  let d := { d with pfm := { d.pfm with got := d.pfm.got ++ fitTo 4096 0 b, bad := d.pfm.bad || code != 0 } }
  if off + 4096 < 139264 then request 0 false (pfmReq d (off + 4096)) d else d

/-- The test of R74 on a half: its SEQ when SIG, COMPLETE and MCRC are good. -/
def halfSeq (b : List Byte) : Option Nat :=
  let n := leAt b 10 2
  if leAt b 0 4 = 0x50464D31 ∧ leAt b 12 4 % 2 = 1 ∧ n ≤ 2048 ∧
     crc32c (b.take 60 ++ (b.drop 4096).take (32 * n)) = leAt b 60 4 then some (leAt b 4 4) else none

/-- PFM_REGION_READ_END (R494). -/
def pfmReadEnd (d : Dev) : Dev :=
  if !d.pfm.reading || d.pfm.got.length < 139264 then d
  else
    let a := if d.pfm.bad then none else halfSeq (d.pfm.got.take 69632)
    let b := if d.pfm.bad then none else halfSeq (d.pfm.got.drop 69632)
    let (half, seq) := match a, b with
      | none, none => (1, 0)
      | some x, none => (0, x)
      | none, some y => (1, y)
      | some x, some y => if x < y then (1, y) else (0, x)
    (({ d with pfm := { d.pfm with reading := false, got := [], seq := seq } }.wr F.PFM_STAT_LASTHALF half).wr
      F.PFM_STAT_LASTSEQ seq).wr F.PFM_STAT_ARMED 1

end Sys2Proof.Machine
end

