-- ==== Sys2Proof/Machine/Lift.lean ====
section
/-!
DEFINITION. The Lift gate (R129–R136, R138): requests, grants, tokens, reservation.
-/

namespace Sys2Proof.Machine

def isWake (r : LReq) : Bool := r.who == .wake

/-- Tokens held on each rail (R129). -/
def useArray (d : Dev) : Nat := sumL (d.lift.toks.map (·.array))
def useIO (d : Dev) : Nat := sumL (d.lift.toks.map (·.io))

/-- Class-1 and class-2 requests that hold ARRAY tokens (R134). -/
def pgmsHeld (d : Dev) : Nat := (d.lift.toks.filter fun t => t.pgm && t.array != 0).length

/-- LIFT_USE, LIFT_STAT follow the tokens and requests held (R138); a count its field cannot hold reads as the field's
greatest value (assumption 85). -/
def liftRegs (d : Dev) : Dev :=
  let d := d.wr F.LIFT_USE_ARRAY (min (useArray d) 4095)
  let d := d.wr F.LIFT_USE_IO (min (useIO d) 4095)
  let d := d.wr F.LIFT_STAT_PGMS (min (pgmsHeld d) 255)
  let d := d.wr F.LIFT_STAT_PEND d.lift.reqs.length
  d.put F.LIFT_STAT_RESV d.lift.resv.isSome

def Dev.setLift (d : Dev) (x : LiftSt) : Dev := liftRegs { d with lift := x }

/-- SLM_STAT.WAITLIFT and WAITWAKE of a channel (R138). -/
def slmWait (c : Nat) (d : Dev) : Dev :=
  (d.put F.SLM_STAT_WAITLIFT (d.lift.reqs.any fun r => r.ch == c && !isWake r) c).put
    F.SLM_STAT_WAITWAKE (d.lift.reqs.any fun r => r.ch == c && isWake r) c

/-- Place a request: one candidate and one wake per channel (R131, R138). -/
def liftAsk (r : LReq) (d : Dev) : Dev :=
  if d.lift.reqs.any fun q => q.ch == r.ch && isWake q == isWake r then d
  else slmWait r.ch (d.setLift { d.lift with reqs := d.lift.reqs ++ [{ r with cycle := d.lift.cycle }] })

/-- A command's requests are placed in a CCLK cycle of their own, or in that of the requests placed last (R132). -/
def liftCycle (same : Bool) (d : Dev) : Dev :=
  if same then d else { d with lift := { d.lift with cycle := d.lift.cycle + 1 } }

/-- The aged request that becomes reserved when no reservation stands (R132). -/
def liftReserve (d : Dev) : Dev :=
  match d.lift.resv with
  | some _ => d
  | none => match d.lift.reqs.find? (·.aged) with
    | none => d
    | some r => (d.setLift { d.lift with resv := some (r.ch, isWake r) }).wr F.LIFT_FLAG_AGED 1

/-- Remove a channel's candidate or wake request; its reservation ends with it. -/
def liftDrop (c : Nat) (wake : Bool) (d : Dev) : Dev :=
  let resv := if d.lift.resv = some (c, wake) then none else d.lift.resv
  slmWait c (liftReserve (d.setLift { d.lift with reqs := d.lift.reqs.filter (fun q => !(q.ch == c && isWake q == wake)), resv := resv }))

/-- A channel's candidate at Lift. -/
def candidate (d : Dev) (c : Nat) : Option LReq := d.lift.reqs.find? fun r => r.ch == c && !isWake r

/-- A broken queue starts nothing: a start of its cells that waits at Lift is withdrawn (R57). -/
def withdrawBroken (k : Nat) (d : Dev) : Dev :=
  let x := d.cell k
  match candidate d (dixCh x.dix) with
  | some r => match r.who with
    | .start ks _ => if queueBroken d (cellKey x) && ks.any fun j => cellKey (d.cell j) == cellKey x then liftDrop r.ch false d else d
    | _ => d
  | none => d

/-- Cost of a class on a rail (R130). -/
def costA (d : Dev) (k : Nat) : Nat := d.rd (F.LIFT_COST_ARRAY.ix k)
def costI (d : Dev) (k : Nat) : Nat := d.rd (F.LIFT_COST_IO.ix k)

/-- The tokens of a rail suffice, or the cost exceeds the budget and the rail is free (R132, R135). -/
def railOk (cost budget use : Nat) : Bool :=
  cost == 0 || (if budget < cost then use == 0 else cost ≤ budget - use)

/-- The conditions of R132 on a request; `gapA`, `gapI` are the times since the last spaced grant on each rail, in units
of 10 ns. -/
def grantable (d : Dev) (gapA gapI : Nat) (r : LReq) : Bool :=
  d.on F.LIFT_CFG_BYPASS ||
  (let a := costA d r.cost
   let i := costI d r.cost
   railOk a (d.rd F.LIFT_BUDGET_ARRAY) (useArray d) && railOk i (d.rd F.LIFT_BUDGET_IO) (useIO d) &&
   (!d.on (F.LIFT_COST_SPACE.ix r.cost) ||
     ((a == 0 || d.rd F.LIFT_SPACE_ARRAY ≤ gapA) && (i == 0 || d.rd F.LIFT_SPACE_IO ≤ gapI))) &&
   (!(r.cost == 1 || r.cost == 2) || d.rd F.LIFT_STAT_PGMLIM == 255 || pgmsHeld d < d.rd F.LIFT_STAT_PGMLIM) &&
   (match d.lift.resv with
    | none => true
    | some (c, w) =>
      (r.ch == c && isWake r == w) ||
      (match d.lift.reqs.find? fun q => q.ch == c && isWake q == w with
       | none => true
       | some q => !((a != 0 && costA d q.cost != 0) || (i != 0 && costI d q.cost != 0)))))

/-- How long before another a request is considered (R132): by the cycle it was placed in, then by the distance of its
channel after the one granted last. -/
def liftBefore (d : Dev) (a b : LReq) : Bool :=
  let dist := fun (r : LReq) => (r.ch + 31 - d.lift.last) % 32
  a.cycle < b.cycle || (a.cycle == b.cycle && dist a < dist b)

/-- Requests in the order of `liftBefore`, each after those it does not precede. -/
def liftOrder (d : Dev) : List LReq → List LReq
  | [] => []
  | r :: rs =>
    let l := liftOrder d rs
    l.takeWhile (fun q => liftBefore d q r) ++ r :: l.dropWhile (fun q => liftBefore d q r)

/-- The first request in rank order, arrival order within a rank, that can be granted (R132). -/
def pickGrant (d : Dev) (gapA gapI : Nat) : Option LReq :=
  ((List.range 5).flatMap fun k => liftOrder d (d.lift.reqs.filter fun r => r.rank == k)).find? (grantable d gapA gapI)

/-- Take a request's tokens (R131, R135); `ctx` names the context that holds them. A grant under BYPASS sets no OVERCOST
(assumption 112). -/
def takeTokens (r : LReq) (ctx : Option Nat) (d : Dev) : Dev :=
  let hold := fun (cost budget : Nat) => min cost budget
  let a := costA d r.cost
  let i := costI d r.cost
  let exceeds := !d.on F.LIFT_CFG_BYPASS && (d.rd F.LIFT_BUDGET_ARRAY < a || d.rd F.LIFT_BUDGET_IO < i)
  let d := if exceeds then d.wr F.LIFT_FLAG_OVERCOST 1 else d
  let t : Tok := { ch := r.ch, ctx := ctx, array := hold a (d.rd F.LIFT_BUDGET_ARRAY), io := hold i (d.rd F.LIFT_BUDGET_IO)
                   pgm := r.cost == 1 || r.cost == 2 }
  d.setLift { d.lift with toks := d.lift.toks ++ [t], last := r.ch }

/-- Keep the tokens that are not empty. -/
def dropEmpty (ts : List Tok) : List Tok := ts.filter fun t => t.array != 0 || t.io != 0

/-- Release a context's IO tokens: at its first park, slice park or end (R131). -/
def freeIO (c id : Nat) (d : Dev) : Dev :=
  d.setLift { d.lift with toks := dropEmpty (d.lift.toks.map fun t =>
    if (t.ch == c && t.ctx == some id) then { t with io := 0 } else t) }

/-- Release a context's ARRAY tokens (R131), of whichever class (assumption 116). -/
def freeArray (c id : Nat) (d : Dev) : Dev :=
  d.setLift { d.lift with toks := dropEmpty (d.lift.toks.map fun t =>
    if (t.ch == c && t.ctx == some id) then { t with array := 0 } else t) }

/-- ARRAY_TOKEN_TIMEOUT (R131): the tokens of a routine that ended after its commit point without ready. The context
must be gone. -/
def arrayTimeout (c id : Nat) (gone : Bool) (d : Dev) : Dev := if gone then freeArray c id d else d

/-- LIFT_WAKEHOLD_EXPIRY (R131): the tokens of the channel's oldest class-4 grant (assumption 116). -/
def wakeHoldExpiry (c : Nat) (d : Dev) : Dev :=
  match pull (fun (t : Tok) => t.ch == c && t.ctx.isNone) d.lift.toks with
  | some (_, r) => d.setLift { d.lift with toks := r }
  | none => d

/-- LIFT_AGE_EXPIRY (R132). -/
def liftAge (c : Nat) (wake : Bool) (d : Dev) : Dev :=
  let mark := fun (q : LReq) => if (q.ch == c && isWake q == wake) then { q with aged := true } else q
  liftReserve (d.setLift { d.lift with reqs := d.lift.reqs.map mark })

/-- Wait accounting of a grant (R138): `wait` in CCLK cycles of 0.8 ns. -/
def liftWaited (wait : Nat) (d : Dev) : Dev :=
  let w := min (wait * 8 / 100) (2 ^ 16 - 1)
  let d := if d.rd F.LIFT_WAIT_MAXWAIT < w then d.wr F.LIFT_WAIT_MAXWAIT w else d
  if 4 < wait then d.incW F.LIFT_WAIT_DELAYED else d

/-- Power fail and fail-safe entry withdraw every pending request (R136). -/
def liftClear (d : Dev) : Dev :=
  Dev.each (List.range 32) slmWait (d.setLift { d.lift with reqs := [], resv := none })

end Sys2Proof.Machine
end

