-- ==== Sys2Proof/Machine/Microcode.lean ====
section
/-!
DEFINITION. Microcode: the address spaces and match redirect (R79, R80), microwords (R81, R82), nanowords (R83–R86), the
routine index table (R89), and what one nanoword does to its context.
-/

namespace Sys2Proof.Machine

def Dev.chn (d : Dev) (c : Nat) : Ch := (look d.chs c).getD {}

def Dev.setCh (d : Dev) (c : Nat) (x : Ch) : Dev := { d with chs := ins d.chs c x }

def Dev.die (d : Dev) (x : Nat) : Die := (look d.dies x).getD {}

def Dev.setDie (d : Dev) (x : Nat) (y : Die) : Dev := { d with dies := ins d.dies x y }

def Dev.clu (d : Dev) (n : Nat) : Cl := (look d.cls n).getD {}

def Dev.setClu (d : Dev) (n : Nat) (x : Cl) : Dev := { d with cls := ins d.cls n x }

/-- SEQ and NPTR of a microword (R81). -/
def mwSeq (w : Nat) : Nat := fld w 12 4
def mwNptr (w : Nat) : Nat := fld w 0 12

/-- The standard routines (R89): index, entry microword, commit microword. -/
def romIndex : List (Nat × Nat × Nat) := [
  (0x000, 0x0040, 0x0059), (0x001, 0x0080, 0x00B3), (0x002, 0x00C0, 0x00D1), (0x003, 0x00E0, 0x00E9),
  (0x004, 0x0100, 0x0127), (0x005, 0x0140, 0x0171), (0x006, 0x0180, 0x7FFF), (0x010, 0x0200, 0x0214),
  (0x011, 0x0240, 0x0271), (0x012, 0x0280, 0x0294), (0x013, 0x02C0, 0x02D4), (0x018, 0x0300, 0x0309),
  (0x019, 0x0320, 0x0341), (0x020, 0x0380, 0x0380), (0x021, 0x03A0, 0x03A0), (0x022, 0x03C0, 0x03C0),
  (0x023, 0x03E0, 0x03E0), (0x030, 0x0400, 0x7FFF), (0x031, 0x0420, 0x7FFF), (0x038, 0x0440, 0x0440),
  (0x039, 0x0460, 0x0460), (0x03A, 0x0480, 0x7FFF), (0x03B, 0x04A0, 0x7FFF), (0x040, 0x0500, 0x0500),
  (0x041, 0x0510, 0x0510), (0x042, 0x0520, 0x0520), (0x048, 0x0540, 0x7FFF), (0x049, 0x0560, 0x0563),
  (0x04A, 0x0580, 0x0583), (0x050, 0x0600, 0x0600), (0x051, 0x0610, 0x0610), (0x052, 0x0620, 0x7FFF),
  (0x053, 0x0660, 0x7FFF), (0x054, 0x06A0, 0x06A0), (0x058, 0x0700, 0x0700)]

/-- A word of the microcode ROM. Its contents are not printed; R89–R91 and R500 fix which of its words are COMMIT: those that
the index names, and no others. -/
def romWord (a : Nat) : Nat :=
  let w := Config.romMicroword a % 2 ^ 16
  if romIndex.any fun r => r.2.2 == a then 0x1000 + mwNptr w else if mwSeq w = 1 then mwNptr w else w

/-- The match register that redirects a ROM address, the lowest first (R80). -/
def matchAt (d : Dev) (cl a : Nat) : Option Nat :=
  ((List.range 64).find? fun m => d.on (F.MATCH_V.ix m) cl && d.rd (F.MATCH_ROMADDR.ix m) cl == a).map
    fun m => d.rd (F.MATCH_PADDR.ix m) cl

/-- A microword fetch: the address it comes from and the word; none for an illegal address (R79, R80). Sequencing goes on
from the address answered. -/
def mwFetch (d : Dev) (cl a : Nat) : Option (Nat × Nat) :=
  if a ≤ 0x3FFF then
    match matchAt d cl a with
    | some p => some (0x4000 + p, (look (d.clu cl).pmw p).getD 0)
    | none => some (a, romWord a)
  else if a ≤ 0x43FF then some (a, (look (d.clu cl).pmw (a - 0x4000)).getD 0)
  else none

/-- A nanoword fetch, never redirected (R79, R80). -/
def nwFetch (d : Dev) (cl n : Nat) : Option Nat :=
  if n ≤ 0x7FF then some (Config.romNanoword n % 2 ^ 128)
  else if n ≤ 0x8FF then some ((look (d.clu cl).pnw (n - 0x800)).getD 0)
  else none

/-- The fields of a nanoword (R83). -/
def nwLen (w : Nat) : Nat := fld w 0 6 + 1
def nwScale (w : Nat) : Nat := 8 ^ fld w 6 2
def nwCyc (w : Nat) : Nat := fld w 8 4
def nwImm (w : Nat) : Nat := fld w 12 8
def nwOsrc (w : Nat) : Nat := fld w 20 4
def nwOidx (w : Nat) : Nat := fld w 24 4
def nwCem (w : Nat) : Nat := fld w 28 2
def nwWph (w : Nat) : Bool := w.testBit 30
def nwStcap (w : Nat) : Bool := w.testBit 31
def nwBrcond (w : Nat) : Nat := fld w 32 4
def nwBrtgt (w : Nat) : Nat := fld w 36 15
def nwTocls (w : Nat) : Nat := fld w 51 3
def nwDsrc (w : Nat) : Nat := fld w 54 2
def nwCnt16 (w : Nat) : Nat := fld w 56 16
def nwSuspok (w : Nat) : Bool := w.testBit 72
def nwLdloop (w : Nat) : Bool := w.testBit 73
def nwPlnext (w : Nat) : Bool := w.testBit 74
def nwDecnote (w : Nat) : Bool := w.testBit 75
def nwPark (w : Nat) : Bool := w.testBit 76
def nwStage (w : Nat) : Bool := w.testBit 77
def nwReent (w : Nat) : Bool := w.testBit 78

/-- Branch targets in legal range (R79, R85). -/
def tgtLegal (a : Nat) : Bool := a ≤ 0x43FF || a == 0x7FFE || a == 0x7FFF

/-- A nanoword's codes are legal (R83–R86): the kind, operand source, condition and chip-enable codes, the reserved bits. -/
def nwLegal (w : Nat) : Bool :=
  nwCyc w ≤ 9 && nwOsrc w ≤ 8 && nwBrcond w ≤ 9 && nwCem w ≤ 2 && w / 2 ^ 79 == 0 &&
  (fld w 6 2 == 0 || nwCyc w == 0 || nwCyc w == 7 || nwCyc w == 6) &&
  (!(nwCyc w == 3 || nwCyc w == 4) || nwStage w || (1 ≤ nwCnt16 w && nwCnt16 w ≤ 16))

/-- The entry and commit microwords of an index in a cluster: a patch entry, else the ROM's (R87, R89, R106). -/
def indexEntry (d : Dev) (cl i : Nat) : Option (Nat × Nat) :=
  match look (d.clu cl).rix i with
  | some p => some p
  | none => (romIndex.find? fun r => r.1 = i).map (·.2)

/-- The microword of a context: the address it comes from and its 16 bits. A ROM word that the context's index entry names
is its COMMIT microword (R89, R90). -/
def mwOf (d : Dev) (cl : Nat) (x : Ctx) : Option (Nat × Nat) :=
  (mwFetch d cl x.mw).map fun p => if p.1 ≤ 0x3FFF ∧ x.mw = x.commitAt then (p.1, 0x1000 + mwNptr p.2) else p

/-- The nanoword in progress of a context, with its microword and where that comes from. -/
def nanoOf (d : Dev) (c : Nat) (x : Ctx) : Option (Nat × Nat × Nat) :=
  match mwOf d (chCl c) x with
  | none => none
  | some (a, mw) => (nwFetch d (chCl c) (mwNptr mw)).map fun w => (a, mw, w)

/-- What the sequencer does after a nanoword (R81, R85). -/
inductive After
  | go (mw : Nat)
  | endRoutine
  | abort
  | restart
  | illegal
deriving DecidableEq, Repr

/-- The 16-bit loop counter decremented (R77, R85). -/
def loopDown (n : Nat) : Nat := (n + 65535) % 65536

/-- The branch condition of a nanoword on its context (R85); `fb` says that the die's group is in the polling fallback. -/
def brHolds (x : Ctx) (lmap fb : Bool) (w : Nat) : Bool :=
  match nwBrcond w with
  | 0 => true
  | 1 => x.status.testBit 0
  | 2 => !x.status.testBit 6
  | 3 => loopDown x.loop != 0
  | 4 => 1 < popc 8 x.left
  | 5 => x.cache
  | 6 => nwSuspok w && x.suspAsk
  | 7 => lmap && x.offs.any (· != 0)
  | 8 => x.work == .retry
  | 9 => fb
  | _ => false

/-- Where execution goes (R81, R82, R85), with the context's stack, loop counter, commit flag and re-entry point. `a` is
the address the microword came from. A BRTGT out of range is an illegal state where its branch is taken (assumption 98). -/
def afterNano (x : Ctx) (lmap fb : Bool) (a mw w : Nat) : Ctx × After :=
  let jump := fun (x : Ctx) (t : Nat) =>
    if t = 0x7FFE then (x, After.abort) else if t = 0x7FFF then (x, After.restart)
    else if t ≤ 0x43FF then (x, After.go t) else (x, After.illegal)
  match mwSeq mw with
  | 0 => (x, .go (a + 1))
  | 1 => ({ x with committed := true }, .go (a + 1))
  | 2 => (x, .endRoutine)
  | 3 =>
    let h := brHolds x lmap fb w
    let x := if nwBrcond w = 3 then { x with loop := loopDown x.loop } else x
    if h then jump x (nwBrtgt w) else (x, .go (a + 1))
  | 4 =>
    if nwBrtgt w = 0x7FFE ∨ nwBrtgt w = 0x7FFF then jump x (nwBrtgt w)
    else if 4 ≤ x.stack.length then (x, .illegal)
    else jump { x with stack := (a + 1) :: x.stack } (nwBrtgt w)
  | 5 => match x.stack with
    | [] => (x, .illegal)
    | r :: rs => ({ x with stack := rs }, .go r)
  | 6 => ({ x with reentry := some a }, .go (a + 1))
  | _ => (x, .illegal)

/-- Half PHY periods of a nanoword (R86): its ticks, and for a burst the data time and the postamble. `waits` counts the
re-test intervals of a WAITRDY. -/
def nanoUnits (tdiv bytes waits w : Nat) : Nat :=
  let tick := 2 * 2 ^ tdiv
  let pre := nwLen w * nwScale w * tick
  match nwCyc w with
  | 3 => 2 * pre + bytes
  | 4 => 2 * pre + bytes
  | 6 => pre * max waits 1
  | 9 => tick
  | _ => pre

/-- Bus time in ns of a number of half periods at a rate in units of 100 MT/s (R248, R98): a half period is 10 / rate ns. -/
def unitsNs (rate u : Nat) : Nat := if rate = 0 then u * Config.sdrHalfPeriod else u * 10 / rate

/-- The next plane named in PLANES (R83, PLNEXT); after the last one the pass begins again. -/
def nextPlane (x : Ctx) : Ctx :=
  match lowest 8 x.left with
  | none => x
  | some p =>
    let l := clrBit x.left p
    { x with left := if l = 0 then x.planes else l }

/-- The plane in hand. -/
def planeOf (x : Ctx) : Nat := (lowest 8 x.left).getD 0

/-- What the cycle of a nanoword does to its context (R83, R84), given the bytes the die drove; bytes past the end of the
scratch are dropped (assumption 107). -/
def cycleEffect (x : Ctx) (data : List Byte) (w : Nat) : Ctx :=
  let p := planeOf x
  match nwCyc w with
    | 4 =>
      if nwDecnote w || nwStage w then { x with dout := ins x.dout p ((look x.dout p).getD [] ++ data) }
      else { x with scratch := patchAt (fitTo 16 0 x.scratch) (nwOidx w) ((data.take (nwCnt16 w)).take (16 - nwOidx w)) }
    | 5 =>
      if nwStcap w then
        let s := (data.getD 0 0).toNat
        { x with status := s, stats := ins x.stats p s }
      else x
    | _ => x

/-- The word at a microword address, or the nanoword it names, comes from the cluster's patch store (R79, R80). -/
def fromStore (d : Dev) (cl a : Nat) : Bool :=
  match mwFetch d cl a with
  | none => false
  | some (b, w) => 0x3FFF < b || (0x7FF < mwNptr w && mwNptr w ≤ 0x8FF)

/-- Record a microword in the trace buffer (R110). -/
def traceMw (c a : Nat) (d : Dev) : Dev :=
  if d.on F.SEQ_CFG_TRACE c then
    let p := d.rd F.SEQ_TRPTR_PTR c
    (d.setCh c { d.chn c with trace := ins (d.chn c).trace p a }).wr F.SEQ_TRPTR_PTR (p + 1) c
  else d

/-- The column and row address bytes of a context (R85, R496): `col` the byte offset, and the row from page, block with
its plane-select bits, and LUN, at the widths recorded with the die's geometry. -/
def rowAddr (l : Layout) (page blk plane lun : Nat) : Nat :=
  page % 2 ^ l.pageW + (plane % 2 ^ l.planeW) * 2 ^ l.planeLo + blk * 2 ^ (l.pageW + l.planeW) +
    lun * 2 ^ (l.pageW + l.planeW + l.blkW)

/-- The operand byte OIDX of an operand source (R85); a byte beyond its source reads 0 (assumption 108). SET_TIMING's three feature writes have an address each: byte OIDX of
the three packed in `feat` (R251). -/
def operandByte (d : Dev) (x : Ctx) (feat : Nat) (parms args : List Byte) (col page blk w : Nat) : Nat :=
  let i := nwOidx w
  match nwOsrc w with
  | 0 => nwImm w
  | 1 => col / 256 ^ i % 256
  | 2 => rowAddr (d.die x.dix).layout page blk (planeOf x) (x.dix % 4) / 256 ^ i % 256
  | 3 => if x.work = .setTiming then feat / 256 ^ i % 256 else feat
  | 4 => (parms.getD i 0).toNat
  | 5 => (x.offs.getD i 0).toNat
  | 6 => (args.getD i 0).toNat
  | 7 => (x.scratch.getD i 0).toNat
  | 8 => x.status
  | _ => 0

end Sys2Proof.Machine
end

