-- ==== Sys2Proof/Machine/Read.lean ====
section
/-!
DEFINITION. The read path (R139–R165, R497): code profiles, the randomiser, the splitter, hard and soft decodes, erased
pages, the retry ladder, delivery and the ticket's status.
-/

namespace Sys2Proof.Machine

/-! ### Profiles and geometry -/

/-- The fields of code profile `n` in force (R165). -/
def profile (d : Dev) (n : Nat) : Prof :=
  { parity := d.rd (F.CP_CFG_PARITY.ix n), cwpp := d.rd (F.CP_CFG_CWPP.ix n) + 1, rand := d.on (F.CP_CFG_RAND.ix n)
    raw := d.on (F.CP_CFG_RAW.ix n), hiter := d.rd (F.CP_CFG_HITER.ix n), valid := d.on (F.CP_CFG_VALID.ix n)
    rtbase := d.rd (F.CP_RTY_RTBASE.ix n), rtyn := d.rd (F.CP_RTY_RTYN.ix n), softd := d.rd (F.CP_SOFT_SOFTD.ix n)
    sstep := d.rd (F.CP_SOFT_SSTEP.ix n), scentre := d.rd (F.CP_SOFT_SCENTRE.ix n), siter := d.rd (F.CP_SOFT_SITER.ix n)
    erthr := d.rd (F.CP_ERAS_ERTHR.ix n), erfill := d.on (F.CP_ERAS_ERFILL.ix n) }

/-- Codeword length L (R139). -/
def Prof.len (p : Prof) : Nat := 4128 + 256 + 32 * p.parity

/-- The page length of a die, spare included (DIE_GEOM1.PGLEN). -/
def pageLen (d : Dev) (dix : Nat) : Nat := d.rd F.DIE_GEOM1_PGLEN dix

/-- A profile is configured for a die (R141). -/
def profOk (d : Dev) (p : Prof) (dix : Nat) : Bool := p.valid && p.cwpp * p.len ≤ pageLen d dix

/-- The profile a cell works under: its copy, else the one in force (R142). -/
def cellProf (d : Dev) (x : Cell) : Prof := x.prof.getD (profile d (tCprof x.tkt))

/-! ### Randomiser -/

/-- One step of the Galois LFSR: output bit and next state (R144). -/
def lfsrStep (s : Nat) : Nat × Nat :=
  let b := s / 2 ^ 31 % 2
  let s := s * 2 % 2 ^ 32
  (b, if b = 1 then s ^^^ 0x00400007 else s)

/-- Eight steps: the XOR byte, first output in bit 0, and the next state (R144). -/
def lfsrByte (s : Nat) : Nat × Nat :=
  let a0 := lfsrStep s
  let a1 := lfsrStep a0.2
  let a2 := lfsrStep a1.2
  let a3 := lfsrStep a2.2
  let a4 := lfsrStep a3.2
  let a5 := lfsrStep a4.2
  let a6 := lfsrStep a5.2
  let a7 := lfsrStep a6.2
  (a0.1 + 2 * a1.1 + 4 * a2.1 + 8 * a3.1 + 16 * a4.1 + 32 * a5.1 + 64 * a6.1 + 128 * a7.1, a7.2)

/-- XOR a byte string with the sequence from a state (R144). Its own inverse. -/
def randomise : Nat → List Byte → List Byte
  | _, [] => []
  | s, b :: r => (b ^^^ BitVec.ofNat 8 (lfsrByte s).1) :: randomise (lfsrByte s).2 r

/-- The seed of a codeword (R145). -/
def seedOf (dix blk page prof cw salt : Nat) : Nat :=
  let c := crc32c (leBytes 2 (dix % 1024) ++ leBytes 2 (blk % 8192) ++ leBytes 2 page ++ leBytes 1 (prof % 8 + 8 * (cw % 8)) ++ leBytes 2 salt)
  if c = 0 then 0x80000000 else c

/-- 0 bits of a byte string (R150). -/
def zeroBits : List Byte → Nat
  | [] => 0
  | b :: r => (8 - popc 8 b.toNat) + zeroBits r

/-! ### Contexts -/

def Dev.ctx (d : Dev) (c id : Nat) : Option Ctx := look (d.chn c).ctxs id

def Dev.setCtx (d : Dev) (c id : Nat) (x : Ctx) : Dev := d.setCh c { d.chn c with ctxs := ins (d.chn c).ctxs id x }

def Dev.onCtx (c id : Nat) (f : Ctx → Ctx) (d : Dev) : Dev :=
  match d.ctx c id with
  | none => d
  | some x => d.setCtx c id (f x)

/-- A context kept for a target side that has not been granted: the COPY counts on its source die (R233). -/
def waitsTarget (d : Dev) (x : Ctx) : Bool := x.work == .target && x.cells.all fun k => !(d.cell k).onTgt

/-- Contexts of the channel that are parked (R77): of started tickets but for the one on the bus, a COPY between its sides
included, and of parked routines without a ticket. -/
def parkedCtxs (d : Dev) (c : Nat) : Nat :=
  let h := d.chn c
  (h.ctxs.filter fun p => h.run != some p.1 &&
    (if p.2.cells.isEmpty then p.2.st == .parked || p.2.st == .ready || p.2.st == .sliced else !waitsTarget d p.2)).length +
  (d.cells.filter fun p => p.2.started && p.2.out.isNone && p.2.between && dixCh p.2.dix == c).length

/-- Started work becomes ready: its age counts from here (R116). -/
def nowReady (c id : Nat) (d : Dev) : Dev :=
  let h := d.chn c
  match look h.ctxs id with
  | none => d
  | some x => d.setCh c { h with tick := h.tick + 1, ctxs := ins h.ctxs id { x with since := h.tick + 1 } }

/-- SEQ_CTX.PARKED (R111), and SLM_STAT.SUSPOPEN: a suspended ticket of the channel has not been resumed (R138). -/
def seqParked (c : Nat) (d : Dev) : Dev :=
  (d.wr F.SEQ_CTX_PARKED (parkedCtxs d c) c).put F.SLM_STAT_SUSPOPEN
    ((d.chn c).ctxs.any fun p => p.2.cells.any fun k => (d.cell k).st == 3) c

/-- HDP_STAT (R165). -/
def hdpStat (cl : Nat) (d : Dev) : Dev :=
  let x := d.clu cl
  (d.wr F.HDP_STAT_BUSY (x.hdec.filter fun p => !p.2.isEmpty).length cl).wr F.HDP_STAT_QUEUED (min x.staged.length 255) cl

/-- Change the codewords a cluster's decoders and staging hold. -/
def mapCws (cl : Nat) (f : List Cw → List Cw) (d : Dev) : Dev :=
  let x := d.clu cl
  hdpStat cl (d.setClu cl { x with staged := f x.staged, hdec := x.hdec.map fun p => (p.1, f p.2) })

/-- A codeword of a context whose bytes are still arriving. -/
def Cw.comes (c id : Nat) (w : Cw) : Bool := !w.whole && w.ch == c && w.ctx == id

/-- The codewords of a context that were arriving, and whose bytes no longer come, leave their places (R99, R163). -/
def dropPartial (c id : Nat) (of : Cw → Bool) (d : Dev) : Dev :=
  let x := d.clu (chCl c)
  if (x.staged ++ x.hdec.flatMap (·.2)).any (Cw.comes c id) then
    mapCws (chCl c) (fun ws => ws.filter fun w => !(w.comes c id && of w)) d
  else d

/-- Remove a context. -/
def dropCtx (c id : Nat) (d : Dev) : Dev :=
  let d := dropPartial c id (fun _ => true) d
  let h := d.chn c
  seqParked c (d.setCh c { h with ctxs := del h.ctxs id, run := if h.run = some id then none else h.run })

/-- Add a context; the answer is its number. -/
def addCtx (c : Nat) (x : Ctx) (d : Dev) : Nat × Dev :=
  let h := d.chn c
  (h.nextId, seqParked c (d.setCh c { h with ctxs := ins h.ctxs h.nextId x, nextId := h.nextId + 1 }))

/-- Release a cell's staging reservations (R29, R195). -/
def releaseStaging (cell : Nat) (d : Dev) : Dev :=
  Dev.onCell cell (fun x => if x.taking then x else { x with stg := 0, tstg := 0 }) d

/-- A routine of the context is on its way: it runs to its end whatever becomes of its tickets (R100). -/
def ctxRuns (x : Ctx) : Bool := x.st == .running || x.st == .gap || x.st == .parked || x.st == .ready || x.st == .sliced

/-- A started ticket's outcome is decided and it leaves its context (R121), at the end of the routine that runs for it; the
die's place for it ends with the last. -/
def endInCtx (c id cell : Nat) (o : Outcome) (d : Dev) : Dev :=
  let d := releaseStaging cell (finishStarted cell o d)
  match d.ctx c id with
  | none => d
  | some x =>
    if ctxRuns x then d
    else
    let rest := x.cells.filter (· != cell)
    if rest.isEmpty && x.work != .target then dropCtx c id d
    else dropPartial c id (fun w => w.cell == cell) (d.setCtx c id { x with cells := rest })

/-! ### Splitting -/

/-- The cell of a context whose PLANES names a plane. -/
def cellOfPlane (d : Dev) (x : Ctx) (p : Nat) : Option Nat := x.cells.find? fun c => bit (tPlanes (d.cell c).tkt) p

/-- The index m of a codeword within its ticket (R159). -/
def cwIndex (x : Cell) (plane k : Nat) : Nat :=
  popc 8 (tPlanes x.tkt % 2 ^ plane) * tCwCnt x.tkt + (k - tCwFirst x.tkt)

/-- A COPY reads only the codewords its bitmap marks valid (R231). -/
def cwValid (x : Cell) (plane k : Nat) : Bool :=
  match x.bitmap with
  | none => true
  | some b => bit b (cwIndex x plane k)

/-- Codewords of a plane that a run brings out, in order: all of the ticket's on a first read, else those still failing
(R153, R155). -/
def wantedCws (x : Cell) (first : Bool) (p : Nat) : List Nat :=
  let all := ((List.range (tCwCnt x.tkt)).map (· + tCwFirst x.tkt)).filter (cwValid x p)
  if first then all else all.filter fun k => (look x.cws (p * 8 + k)) == some .failing

/-- The codewords that the run in hand brings out of a plane of a ticket: those it was placed for (R153, R155). -/
def runCws (x : Ctx) (y : Cell) (p : Nat) : List Nat := if x.work == .first then wantedCws y true p else x.want

/-- The ticket and the codeword that a run takes next from a plane. -/
def nextCw (d : Dev) (x : Ctx) (p : Nat) : Option (Nat × Nat) :=
  match cellOfPlane d x p with
  | none => none
  | some k => ((runCws x (d.cell k) p)[(look x.cuts p).getD 0]?).map fun i => (k, i)

/-- A decoded codeword of a READ still leaves its decoder's buffer: one of its data writes waits for its port (R147). -/
def writesOut (d : Dev) (cl : Nat) (w : Cw) : Bool :=
  (d.prt cl).wr.data.any fun r => r.what == .readData w.cell w.plane w.idx false || r.what == .readData w.cell w.plane w.idx true

/-- A decoder still holds a codeword (R147). -/
def cwHeld (d : Dev) (cl : Nat) (w : Cw) : Bool := !w.done || writesOut d cl w

/-- The lowest-numbered hard decoder that accepts a codeword (R147): its ingest stage is idle, for it holds at most one that is
not decoded, and that one is whole; and it holds fewer than 8. -/
def freeDecoder (d : Dev) (cl : Nat) : Option Nat :=
  (List.range 10).find? fun n =>
    let ws := (look (d.clu cl).hdec n).getD []
    let open_ := ws.filter fun w => !w.done
    decide ((ws.filter (cwHeld d cl)).length < 8) && decide (open_.length < 2) && open_.all (·.whole)

/-- Codewords that have been written out leave the decoders of a cluster. -/
def decodersSweep (cl : Nat) (d : Dev) : Dev :=
  let x := d.clu cl
  hdpStat cl (d.setClu cl { x with hdec := x.hdec.map fun p => (p.1, p.2.filter (cwHeld d cl)) })

/-- Offer a codeword to the cluster's hard decoders (R147), unless staged codewords are ahead of it. -/
def offerCw (cl : Nat) (w : Cw) (d : Dev) : Dev :=
  let x := d.clu cl
  match (if x.staged.isEmpty then freeDecoder d cl else none) with
  | some n => hdpStat cl (d.setClu cl { x with hdec := ins x.hdec n (((look x.hdec n).getD []) ++ [w]) })
  | none => hdpStat cl (d.setClu cl { x with staged := x.staged ++ [w] })

/-- The first byte of the next codeword of a plane comes in: the splitter offers the codeword (R147). Soft reads and RAW
codewords go to no hard decoder. -/
def beginCw (c id p : Nat) (d : Dev) : Dev :=
  match d.ctx c id with
  | none => d
  | some x => match nextCw d x p with
    | none => d
    | some (k, i) =>
      let y := d.cell k
      let z := d.clu (chCl c)
      if x.work == .soft || (cellProf d y).raw || (z.staged ++ z.hdec.flatMap (·.2)).any (Cw.comes c id) then d
      else offerCw (chCl c) { cell := k, ten := tTenant y.tkt, ch := c, ctx := id, plane := p, idx := i, first := x.work == .first
                              zeros := 0, bytes := [], offs := x.offs, whole := false } d

/-- A codeword as the splitter de-randomises it (R144, R145). -/
def plainCw (d : Dev) (y : Cell) (k : Nat) (raw : List Byte) : List Byte :=
  let t := y.tkt
  if (cellProf d y).rand then randomise (seedOf (tDix t) (tBlock t) (tPage t) (tCprof t) k y.salt) raw else raw

/-- Combine a soft read into a codeword's soft plane (R156): the first, at position C, gives the hard decisions (R162). -/
def softCombine (x : SoftCw) (b : List Byte) : SoftCw :=
  let hard := if x.count = 0 then b else x.hard
  let at_ := fun (l : List Byte) (i : Nat) => l.getD i 0
  let rs := b.mapIdx fun i v => Config.softBits x.count (at_ hard i) v (at_ x.r0 i, at_ x.r1 i, at_ x.r2 i)
  { count := x.count + 1, hard := hard, r0 := rs.map (·.1), r1 := rs.map (·.2.1), r2 := rs.map (·.2.2) }

/-- A codeword of a soft read goes to the buffer of the soft decoder that its plane holds (R156). -/
def softTake (c id k : Nat) (b : List Byte) (d : Dev) : Dev :=
  match d.sdp.held.find? fun q => q.2.2.1 == c && q.2.2.2.1 == id with
  | none => d
  | some (n, _) =>
    let t := (look d.sdp.buf n).getD []
    { d with sdp := { d.sdp with buf := ins d.sdp.buf n (ins t k (softCombine ((look t k).getD {}) b)) } }

/-- Write a codeword's user data and metadata to DBUF and MBUF (R159): `m` is its index in the ticket. The bytes of a RAW
codeword go to DBUF + L × m, as R198 has a PROGRAM take them (assumption 118). -/
def deliverCw (cell m plane k : Nat) (user mdata : List Byte) (d : Dev) : Dev :=
  let x := d.cell cell
  let port := dixCl x.dix
  let put := fun (isMeta : Bool) (a : Nat) (b : List Byte) (d : Dev) =>
    Dev.each (pieces a b.length) (fun q d =>
      request port true { what := .readData cell plane k isMeta, addr := q.1, len := q.2.2, kind := .data
                          data := (b.drop q.2.1).take q.2.2 }
        (Dev.onCell cell (fun x => { x with writes := x.writes + 1 }) d)) d
  let d := put false (tDbuf x.tkt + user.length * m) user d
  if tMbuf x.tkt = 0 ∨ mdata.isEmpty then d else put true (tMbuf x.tkt + 32 * m) mdata d

/-- The last byte of a codeword has arrived (R144, R147, R149 for RAW, R150 for the 0 bits). -/
def arriveCw (c id : Nat) (plane k cell : Nat) (raw : List Byte) (d : Dev) : Dev :=
  let y := d.cell cell
  let p := cellProf d y
  let bytes := plainCw d y k raw
  if p.raw then
    let d := deliverCw cell (cwIndex y plane k) plane k bytes [] d
    Dev.onCell cell (fun y => { y with cws := ins y.cws (plane * 8 + k) .okFirst, rdcw := y.rdcw + 1, xfer := y.xfer + 1 }) d
  else
    let d := Dev.onCell cell (fun y => { y with cws := ins y.cws (plane * 8 + k) .pending }) d
    mapCws (chCl c) (fun ws => ws.map fun w =>
      if w.comes c id then { w with zeros := zeroBits raw, bytes := bytes, whole := true } else w) d

/-- Cut the codewords from the bytes a plane's bursts have brought (R147). Soft reads go to the soft decoder (R156). -/
def cutCws : Nat → Nat → Nat → Nat → Dev → Dev
  | 0, _, _, _, d => d
  | fuel + 1, c, id, p, d =>
    match d.ctx c id with
    | none => d
    | some x => match nextCw d x p with
      | none => d
      | some (cell, k) =>
        let y := d.cell cell
        let buf := (look x.dout p).getD []
        let l := (cellProf d y).len
        if buf.isEmpty then d
        else
          let d := beginCw c id p d
          if buf.length < l then d
          else
            let d := d.setCtx c id { x with cuts := ins x.cuts p ((look x.cuts p).getD 0 + 1), dout := ins x.dout p (buf.drop l) }
            let d := if x.work == .soft then softTake c id k (plainCw d y k (buf.take l)) d else arriveCw c id p k cell (buf.take l) d
            cutCws fuel c id p d

/-! ### Outcomes -/

/-- STATUS, DETAIL and RESULT of a ticket from its codeword outcomes (R160–R162, READ_STATUS_COMBINE). -/
def readOutcome (x : Cell) : Outcome :=
  let ks := (bitsOf 8 (tPlanes x.tkt)).flatMap fun p => (List.range (tCwCnt x.tkt)).map fun i => (p, tCwFirst x.tkt + i)
  let os := ks.map fun q => if cwValid x q.1 q.2 then some ((look x.cws (q.1 * 8 + q.2)).getD .uncorr) else none
  let raw := match x.prof with
    | some p => p.raw
    | none => false
  let good := os.any fun o => o == some .okFirst || o == some .okLadder || o == some .okSoft
  let det := fun (o : CwOut) => (os.findIdx (· == some o)) % 64 + 64 * b2n (1 < (os.filter (· == some o)).length) + 128 * b2n good
  let res := if raw then 0 else x.corrected
  if os.contains (some .uncorr) then { status := 0x10, detail := det .uncorr, result := res }
  else if os.contains (some .erased) then { status := 0x11, detail := det .erased, result := res }
  else if os.contains (some .okSoft) then { status := 0x02, result := res }
  else if os.contains (some .okLadder) then { status := 0x01, result := res }
  else { status := 0x00, result := res }

/-- Codewords the ticket reads. -/
def cwReads (x : Cell) : Nat := sumL ((bitsOf 8 (tPlanes x.tkt)).map fun p => (wantedCws x true p).length)

/-- Every codeword the ticket reads has arrived and none is being decoded. -/
def cwsSettled (x : Cell) : Bool := x.cws.length == cwReads x && x.cws.all fun p => p.2 != .pending

def hasFailing (x : Cell) : Bool := x.cws.any fun p => p.2 == .failing

/-- The ticket climbs the ladder: codewords failing and none erased (R153). -/
def climbs (x : Cell) : Bool := hasFailing x && x.cws.all fun p => p.2 != .erased

def giveUp (x : Cell) : Cell := { x with cws := x.cws.map fun p => (p.1, if p.2 = .failing then .uncorr else p.2) }

/-- Planes with failing codewords of the context's tickets that climb and whose ladder reaches step `s`. -/
def ladderPlanes (d : Dev) (x : Ctx) (s : Nat) : List Nat :=
  (List.range 8).filter fun p => match cellOfPlane d x p with
    | none => false
    | some c =>
      let y := d.cell c
      s ≤ (cellProf d y).rtyn && climbs y && (y.cws.any fun q => q.1 / 8 == p && q.2 == .failing)

/-- Planes to be soft-read (R155). -/
def softPlanes (d : Dev) (x : Ctx) : List Nat :=
  (List.range 8).filter fun p => match cellOfPlane d x p with
    | none => false
    | some c =>
      let y := d.cell c
      (cellProf d y).softd != 0 && climbs y && (y.cws.any fun q => q.1 / 8 == p && q.2 == .failing)

/-- Signed delta `i` of ladder step `s` of a profile (R151). -/
def ladderDelta (d : Dev) (p : Prof) (s i : Nat) : Int :=
  let e := (p.rtbase + s - 1) % 256
  signed 8 (if i < 4 then d.rd (F.RTY_DLO_D.ix i) e else d.rd (F.RTY_DHI_D.ix (i - 4)) e)

def satByte (v : Int) : Byte := BitVec.ofNat 8 (wrapInt 8 (clampInt (-128) 127 v))

/-- Offsets of a ladder step on base offsets B (R152). -/
def ladderOffs (d : Dev) (p : Prof) (base : List Int) (s : Nat) : List Byte :=
  (List.range 8).map fun i => satByte (base.getD i 0 + ladderDelta d p s i)

/-- The n-th soft position as a multiple of S (R155): 0, −1, +1, −2, +2, −3, +3. -/
def softPos (n : Nat) : Int := if n = 0 then 0 else if n % 2 = 1 then -((n + 1) / 2 : Nat) else ((n / 2 : Nat) : Int)

/-- Offsets of a soft read (R155). -/
def softOffs (d : Dev) (p : Prof) (base : List Int) (n : Nat) : List Byte :=
  (List.range 8).map fun i =>
    let c := if p.scentre = 0 then base.getD i 0 else clampInt (-128) 127 (base.getD i 0 + ladderDelta d p p.scentre i)
    satByte (c + softPos n * p.sstep)

/-- Place the next run of a context as started work (R115, R153, RETRY_STEP_REQUEST). -/
def placeRun (c id : Nat) (w : Work) (step plane pos : Nat) (d : Dev) : Dev :=
  let want := match d.ctx c id with
    | some x => match cellOfPlane d x plane with
      | some k => wantedCws (d.cell k) false plane
      | none => []
    | none => []
  nowReady c id (Dev.onCtx c id (fun x => { x with work := w, step := step, plane := plane, pos := pos, planes := 2 ^ plane
                                                   left := 2 ^ plane, want := want, cost := 0, st := .eligible, dout := [], cuts := []
                                                   stats := [] }) d)

def sdpStat (d : Dev) : Dev := (d.wr F.SDP_STAT_BUSY d.sdp.held.length).wr F.SDP_STAT_WAIT (min d.sdp.queue.length 255)

/-- Ask for a soft decoder for a plane (R156). -/
def askSoft (c id plane : Nat) (d : Dev) : Dev :=
  sdpStat (Dev.onCtx c id (fun x => { x with work := .soft, plane := plane, pos := 0, st := .decoding })
    { d with sdp := { d.sdp with queue := d.sdp.queue ++ [(chCl c, c, id, plane)] } })

/-- The context holds a place in the queue for a soft decoder. -/
def waitsSoft (d : Dev) (c id : Nat) : Bool := d.sdp.queue.any fun q => q.2.1 == c && q.2.2.1 == id

/-- A soft decoder is free again. -/
def freeSoft (n : Nat) (d : Dev) : Dev := sdpStat { d with sdp := { d.sdp with held := del d.sdp.held n, buf := del d.sdp.buf n } }

/-- Release the soft decoders and requests of a context (R156, R163). -/
def dropSoft (c id : Nat) (d : Dev) : Dev :=
  let mine := fun (q : Nat × Nat × Nat × Nat × Nat) => q.2.2.1 == c && q.2.2.2.1 == id
  let d := Dev.each (d.sdp.held.filter mine) (fun q d => freeSoft q.1 d) d
  sdpStat { d with sdp := { d.sdp with queue := d.sdp.queue.filter fun q => !(q.2.1 == c && q.2.2.1 == id) } }

/-- After a change of codeword outcomes (R121, R153, R155, R160): tickets whose outcome is settled end; when nothing is
being decoded, the next ladder step, the soft stage or the end of the failing codewords follows. `cp` settles the source
side of a COPY; `pf` says that a power fail has been recognised: a failing codeword then ends its ticket (R163). -/
def readProgress (cp : Nat → Dev → Dev) (pf : Bool) (c id : Nat) (d : Dev) : Dev :=
  let settle := fun (cell : Nat) (d : Dev) =>
    let y := d.cell cell
    if y.out.isSome || !cwsSettled y then d
    else if pf && hasFailing y then endInCtx c id cell { status := 0x40, detail := 1 } d
    else if hasFailing y && climbs y then d
    else
      let d := Dev.onCell cell giveUp d
      if tOpc y.tkt = opCopy then cp cell d else endInCtx c id cell (readOutcome (giveUp y)) d
  let cells := match d.ctx c id with
    | some x => x.cells
    | none => []
  let d := Dev.each cells settle d
  match d.ctx c id with
  | none => d
  | some x =>
    if x.st != .decoding || x.cells.any (fun k => (d.cell k).out.isNone && !cwsSettled (d.cell k)) then d
    else if x.cells.all fun k => !climbs (d.cell k) then d
    else
      let s := if x.work = .retry then x.step else 0
      let soft := fun (d : Dev) => match softPlanes d x with
        | p :: _ => askSoft c id p d
        | [] =>
          Dev.each x.cells (fun k d =>
            if climbs (d.cell k) then
              let d := Dev.onCell k giveUp d
              if tOpc (d.cell k).tkt = opCopy then cp k d else endInCtx c id k (readOutcome (d.cell k)) d
            else d) d
      if x.work = .soft then soft d
      else match (if s = 0 then none else (ladderPlanes d x s).find? fun p => x.plane < p) with
        | some p => placeRun c id .retry s p 0 d
        | none => match ladderPlanes d x (s + 1) with
          | p :: _ => placeRun c id .retry (s + 1) p 0 d
          | [] => soft d

/-- A read's ticket ends because of its own data (R163, R497); the rest of its codewords are discarded. -/
def readFault (c id cell : Nat) (o : Outcome) (d : Dev) : Dev :=
  if (d.cell cell).out.isSome then d else endInCtx c id cell o d

/-! ### Decodes -/

/-- Deliver a decoded codeword: to DBUF and MBUF for a READ, to the source reservation for a COPY (R159, R232). -/
def takeDecoded (cell plane k : Nat) (o : CwOut) (f : DecodeFound) (d : Dev) : Dev :=
  let y := d.cell cell
  let d := Dev.onCell cell (fun y => { y with cws := ins y.cws (plane * 8 + k) o, corrected := y.corrected + f.corrected }) d
  if tOpc y.tkt = opCopy then
    Dev.onCell cell (fun y => { y with plain := ins y.plain (cwIndex y plane k) (fitTo 4096 0 f.user ++ fitTo 32 0 f.mdata) }) d
  else
    let d := Dev.onCell cell (fun y => { y with rdcw := y.rdcw + 1, xfer := y.xfer + 1 }) d
    deliverCw cell (cwIndex y plane k) plane k (fitTo 4096 0 f.user) (fitTo 32 0 f.mdata) d

/-- An erased codeword (R150, ERASED_DETECT). -/
def takeErased (cell plane k : Nat) (d : Dev) : Dev :=
  let y := d.cell cell
  let d := Dev.onCell cell (fun y => { y with cws := ins y.cws (plane * 8 + k) .erased }) d
  if tOpc y.tkt != opCopy && (cellProf d y).erfill then
    deliverCw cell (cwIndex y plane k) plane k (List.replicate 4096 0xFF) (List.replicate 32 0xFF) d
  else d

/-- A decode result goes to the drift tracker of its cluster when R181 lets the tracker use it; its queue holds 64, and a
result that finds it full is dropped. A loopback channel feeds nothing (R470). -/
def feedTracker (cl : Nat) (w : Cw) (f : DecodeFound) (d : Dev) : Dev :=
  let y := d.cell w.cell
  let x := d.clu cl
  if !d.on F.LM_CTL_TRKEN || !d.on F.LM_CTL_EN || !tLmap y.tkt || !d.on F.LM_DIE_TRK y.dix || d.on F.TST_LBCTL_DEPTH w.ch then d
  else if 64 ≤ x.trk.length then d.inc F.LM_TCNT3_DROP
  else d.setClu cl { x with trk := x.trk ++ [{ dix := y.dix, blk := tBlock y.tkt, page := tPage y.tkt, offs := w.offs
                                               n1 := f.n1, n0 := f.n0, first := w.first, cell := w.cell, tlm := tTlm y.tkt }] }

/-- A telemetry record for a ladder run of a plane, once its decodes have ended (R164). -/
def ladderRecord (c id : Nat) (d : Dev) : Dev :=
  match d.ctx c id with
  | none => d
  | some x => match cellOfPlane d x x.plane with
    | none => d
    | some cell =>
      let y := d.cell cell
      let here := y.cws.filter fun q => q.1 / 8 == x.plane
      if x.work = .retry ∧ x.st = .decoding ∧ here.all (fun q => q.2 != .pending) then
        telemetryOf cell 1 (tDix y.tkt)
          (x.step * 2 ^ 12 + x.plane * 2 ^ 9 + (here.filter fun q => q.2 == .failing).length * 2 ^ 5 + tCprof y.tkt * 4) d
      else d

/-- The codeword a hard decoder is working on: its oldest that is not decoded, once it is whole. -/
def decoderHead (d : Dev) (cl n : Nat) : Option Cw :=
  match ((look (d.clu cl).hdec n).getD []).find? fun w => !w.done with
  | some w => if w.whole then some w else none
  | none => none

/-- The first of a list that is not decoded yet has been. -/
def markDone : List Cw → List Cw
  | [] => []
  | w :: r => if w.done then w :: markDone r else { w with done := true } :: r

/-- The decoder's codeword in hand has been decoded and waits for its write-out. -/
def popDecoder (cl n : Nat) (d : Dev) : Dev :=
  let x := d.clu cl
  d.setClu cl { x with hdec := ins x.hdec n (markDone ((look x.hdec n).getD [])) }

/-- The ticket of a codeword still waits for it: its context holds its cell, and its outcome is open (R163). -/
def cwLive (d : Dev) (w : Cw) : Bool :=
  match d.ctx w.ch w.ctx with
  | none => false
  | some x => x.cells.contains w.cell && (d.cell w.cell).out.isNone

/-- HARD_DECODE_END (R148–R150, R163): the syndrome was zero within the profile's limit of iterations, or the decode has
failed; `ue` says that a decoder-buffer word read as uncorrectable. -/
def hardDecodeEnd (cp : Nat → Dev → Dev) (pf : Bool) (cl n : Nat) (f : DecodeFound) (ue : Bool) (d : Dev) : Dev :=
  match decoderHead d cl n with
  | none => d
  | some w =>
    let d := chargeEvents w.ten 1 1 (popDecoder cl n d)
    decodersSweep cl <| match look d.cells w.cell with
    | none => d
    | some y =>
      if !cwLive d w then d
      else if ue then readProgress cp pf w.ch w.ctx (readFault w.ch w.ctx w.cell { status := 0x7F, detail := 0x31 } (d.inc F.RD_UECNT_DECBUF))
      else
        let d :=
          if f.ok && decide (f.iters ≤ (cellProf d y).hiter) then
            let d := d.incW F.HD_OKCNT_CNT cl
            let d := takeDecoded w.cell w.plane w.idx (if w.first then .okFirst else .okLadder) f d
            feedTracker cl w f d
          else
            let d := d.incW F.HD_FAILCNT_CNT cl
            if w.first && w.zeros ≤ (cellProf d y).erthr then takeErased w.cell w.plane w.idx (d.incW F.ERCNT_CNT cl)
            else Dev.onCell w.cell (fun y => { y with cws := ins y.cws (w.plane * 8 + w.idx) .failing }) d
        readProgress cp pf w.ch w.ctx (ladderRecord w.ch w.ctx d)

/-- STAGED_CODEWORD_DISPATCH (R147, R163): the oldest staged codeword goes to the lowest free decoder; `ue` says that a
staging word of it read as uncorrectable. -/
def stagedDispatch (cp : Nat → Dev → Dev) (pf : Bool) (cl : Nat) (ue : Bool) (d : Dev) : Dev :=
  let x := d.clu cl
  match x.staged, freeDecoder d cl with
  | w :: r, some n =>
    if !w.whole then d
    else if ue || (d.cell w.cell).rxUe then
      let d := hdpStat cl (d.setClu cl { x with staged := r })
      if !cwLive d w then d
      else readProgress cp pf w.ch w.ctx (readFault w.ch w.ctx w.cell { status := 0x7F, detail := 0x30 } (d.inc F.RD_UECNT_STAGE))
    else hdpStat cl (d.setClu cl { x with staged := r, hdec := ins x.hdec n (((look x.hdec n).getD []) ++ [w]) })
  | _, _ => d

/-- Clusters that wait for a soft decoder. -/
def softWaiting (d : Dev) : List Nat := d.sdp.queue.map (·.1)

/-- SOFT_DECODER_GRANT (R157). -/
def softGrant (d : Dev) : Dev :=
  match (List.range 8).find? fun n => (look d.sdp.held n).isNone with
  | none => d
  | some n =>
    let heldBy := fun (cl : Nat) => (d.sdp.held.filter fun q => q.2.1 == cl).length
    let may := fun (q : Nat × Nat × Nat × Nat) =>
      heldBy q.1 < d.rd F.SDP_CFG_CLMAX || (softWaiting d).all (· == q.1)
    match pull may d.sdp.queue with
    | none => d
    | some (q, r) =>
      let d := xchGrant 5 q.1 d
      let d := sdpStat { d with sdp := { queue := r, held := ins d.sdp.held n q, buf := del d.sdp.buf n } }
      placeRun q.2.1 q.2.2.1 .soft 0 q.2.2.2 0 d

/-- SOFT_DECODE_END (R158, R163, R164): the next codeword of the plane a soft decoder holds. -/
def softDecodeEnd (cp : Nat → Dev → Dev) (pf : Bool) (n : Nat) (f : DecodeFound) (ue : Bool) (d : Dev) : Dev :=
  match look d.sdp.held n with
  | none => d
  | some (_, c, id, plane) =>
    match d.ctx c id with
    | none => freeSoft n d
    | some x => match cellOfPlane d x plane with
      | none => freeSoft n d
      | some cell =>
        if x.st != .decoding then d
        else
          let y := d.cell cell
          match wantedCws y false plane with
          | [] => readProgress cp pf c id (freeSoft n d)
          | k :: ks =>
            let t := tTenant y.tkt
            let d := chargeEvents t 2 1 (charge t .softdec 1 d)
            if ue then
              let d := freeSoft n d
              readProgress cp pf c id (readFault c id cell { status := 0x7F, detail := 0x31 } (d.inc F.RD_UECNT_DECBUF))
            else
              let p := cellProf d y
              let ok := f.ok && decide (f.iters ≤ p.siter)
              let d := telemetryOf cell 2 (tDix y.tkt)
                (plane * 2 ^ 15 + k * 2 ^ 12 + p.softd * 2 ^ 10 + b2n ok * 2 ^ 9 + (min f.iters p.siter - 1) % 64 * 8) d
              let d := if ok then takeDecoded cell plane k .okSoft f (d.incW F.SD_OKCNT_CNT)
                else Dev.onCell cell (fun y => { y with cws := ins y.cws (plane * 8 + k) .uncorr }) (d.incW F.SD_FAILCNT_CNT)
              if ks.isEmpty then readProgress cp pf c id (freeSoft n d)
              else d

/-- A write response of a READ's data (R38, R163): a bus error ends the ticket with 0x50 once; the rest of its group goes on
(R497). -/
def readDataWritten (cp : Nat → Dev → Dev) (pf : Bool) (cell code : Nat) (d : Dev) : Dev :=
  let d := Dev.onCell cell (fun x => { x with writes := x.writes - 1 }) d
  if code = 0 then d
  else
    let y := d.cell cell
    let c := dixCh y.dix
    let d := Dev.onCell cell (fun x => { x with rdcw := 0, xfer := 0, corrected := 0 }) d
    match ((d.chn c).ctxs.find? fun p => p.2.cells.contains cell), y.out with
    | some (id, _), none => readProgress cp pf c id (endInCtx c id cell { status := 0x50, detail := 1 } d)
    | _, some _ => Dev.onCell cell (fun x => { x with out := some { status := 0x50, detail := 1 } }) d
    | none, none => finishStarted cell { status := 0x50, detail := 1 } d

end Sys2Proof.Machine
end

