-- ==== Sys2Proof/Machine/Stripe.lean ====
section
/-!
DEFINITION. Parity accumulators (R209–R217, R449): takes, emission, spill and restore, commands.
-/

namespace Sys2Proof.Machine

/-! ### Frames put on the ring -/

/-- The link may carry frames of this instance: it takes part in the ring, or is turned back on itself (R438, R469). -/
def ringUp (d : Dev) : Bool := d.ring.active || d.on F.TST_RINGLB_EN

/-- A local frame waits for the link (R439, R441): it carries the sender's ID and epoch, and takes its SEQ as it is sent. A
FENCED instance and one whose power fail is recognised originate none (R446, R450). -/
def ringPush (ty dst arg flags : Nat) (payload : List Byte) (d : Dev) : Dev :=
  if !ringUp d || d.pfSeen || d.rd F.RG_STAT_STATE == 2 then d
  else
    let f : Frame :=
      { dst := dst, src := d.rd F.RG_ID_ID, ty := ty, flags := flags, epoch := d.rd64 F.RG_EPOCH_LO_EPOCH F.RG_EPOCH_HI_EPOCH
        arg := arg, payload := payload }
    { d with ring := { d.ring with own := d.ring.own ++ [f] } }

/-! ### Contents -/

def Dev.accu (d : Dev) (n : Nat) : AccSt := (look d.acc n).getD {}

def Dev.setAcc (d : Dev) (n : Nat) (x : AccSt) : Dev := { d with acc := ins d.acc n x }

def accCwn (d : Dev) (n : Nat) : Nat := d.rd F.ACC_CFG_CWN n

/-- The codeword length of an accumulator's stripe. -/
def accLen (d : Dev) (n : Nat) : Nat := (profile d (d.rd F.ACC_CFG_CPROF n)).len

/-- Slot `m`, `L` bytes. -/
def accSlot (d : Dev) (n m : Nat) : List Byte := fitTo (accLen d n) 0 ((look (d.accu n).slots m).getD [])

/-- XOR codewords into consecutive slots (R212). -/
def xorSlots : List (List Byte) → Nat → Tbl (List Byte) → Tbl (List Byte)
  | [], _, t => t
  | b :: r, m, t => xorSlots r (m + 1) (ins t m (xorBytes ((look t m).getD []) b))

/-- The 65,536 bytes of an accumulator: its slots one after another, then what lies behind them. -/
def accContents (d : Dev) (n : Nat) : List Byte :=
  fitTo 65536 0 (((List.range (accCwn d n)).flatMap fun m => accSlot d n m) ++ (d.accu n).tail)

/-- XOR a run of bytes at an offset of the contents (R449). -/
def xorContents (off : Nat) (b : List Byte) (n : Nat) (d : Dev) : Dev :=
  let l := accLen d n
  let all := accContents d n
  let all := patchAt all off (xorBytes ((all.drop off).take b.length) b)
  d.setAcc n { d.accu n with slots := (List.range (accCwn d n)).map fun m => (m, (all.drop (l * m)).take l)
                             tail := all.drop (l * accCwn d n) }

/-- A slot's syndrome is zero: its parity is the parity of its data (R214). -/
def synZero (p : Prof) (cw : List Byte) : Bool :=
  let n := 256 + 32 * p.parity
  fitTo n 0 (Config.ldpcParity n (cw.take 4128)) == cw.drop 4128

/-! ### Emission (R214) -/

/-- Frame 0–31 of a SENDER (R449). -/
def fragArg (d : Dev) (n k : Nat) : Nat :=
  d.rd F.ACC_RTAG_TAG n + 2 ^ 16 * k + 2 ^ 21 * d.rd F.ACC_RPEER_RACC n + 2 ^ 27 * d.rd F.ACC_CFG_CPROF n + 2 ^ 30 * accCwn d n

def isSender (d : Dev) (n : Nat) : Bool := d.on F.ACC_CFG_RING n && d.on F.ACC_RPEER_ROLE n
def isReceiver (d : Dev) (n : Nat) : Bool := d.on F.ACC_CFG_RING n && !d.on F.ACC_RPEER_ROLE n

/-- A stripe's RING accumulator fails (R446, R449). -/
def accRingFail (n : Nat) (d : Dev) : Dev :=
  (d.setAcc n { d.accu n with waitAck := false, frag := none }).wr F.ACC_STAT_STATE 5 n |>.wr F.ACC_STAT_EMITERR 1 n

def accWrite (n a off : Nat) (b : List Byte) (spill : Bool) (d : Dev) : Dev :=
  Dev.each (pieces a b.length) (fun q d =>
    let d := d.setAcc n { d.accu n with left := (d.accu n).left + 1 }
    request (n % 4) true { what := if spill then .accSpill n (off + q.2.1) else .accEmit n (off + q.2.1), addr := q.1, len := q.2.2
                           kind := .data, data := (b.drop q.2.1).take q.2.2 } d) d

/-- Emission starts: the syndromes, then the writes, or a SENDER's frames. -/
def emitStart (n : Nat) (d : Dev) : Dev :=
  let cwn := accCwn d n
  let p := profile d (d.rd F.ACC_CFG_CPROF n)
  let syn := (List.range cwn).foldl (fun m k => putBit m k (!synZero p (accSlot d n k))) 0
  let d := (d.wr F.ACC_STAT_STATE 2 n).wr F.ACC_STAT_SYNMASK syn n
  let d := d.setAcc n { d.accu n with left := 0, bad := false, waitAck := isSender d n, frag := none }
  if isSender d n then
    if d.rd F.RG_STAT_STATE != 1 then accRingFail n d
    else
      let all := accContents d n
      Dev.each (List.range 32) (fun k d =>
        ringPush 5 (d.rd F.ACC_RPEER_PEER n) (fragArg d n k) 0 ((all.drop (2048 * k)).take 2048) d) d
  else
    let dst := d.rd64 F.ACC_PDST_LO_ADDR F.ACC_PDST_HI_ADDR n
    Dev.each (List.range cwn) (fun m d =>
      let s := accSlot d n m
      accWrite n (dst + 4096 * cwn + 32 * m) (4096 * cwn + 32 * m) ((s.drop 4096).take 32) false
        (accWrite n (dst + 4096 * m) (4096 * m) (s.take 4096) false d)) d

/-- Emission starts by itself when the stripe is closed and complete; a RECEIVER also waits for its fragments. -/
def emitCheck (n : Nat) (d : Dev) : Dev :=
  let all := 2 ^ (d.rd F.ACC_STAT_LAST n + 1) - 1
  if accState d n = 1 && d.on F.ACC_STAT_CLOSED n && accTaken d n &&& all == all && !d.on F.ACC_STAT_ABORTING n &&
     (!isReceiver d n || d.rd F.ACC_RTAG_RCVD n == d.rd F.ACC_RPEER_RFRAG n) then emitStart n d
  else d

/-- DONE (R214): ACC_DONE, the count, spore 0x73; the stripe source 0x066 is the level of ACC_DONE. -/
def accDone (n : Nat) (d : Dev) : Dev :=
  let d := (d.wr F.ACC_STAT_STATE 3 n).inc F.ACC_CNT_EMIT
  let d := if n < 32 then d.wr F.ACC_DONE_LO_DONE (setBit (d.rd F.ACC_DONE_LO_DONE) n)
    else d.wr F.ACC_DONE_HI_DONE (setBit (d.rd F.ACC_DONE_HI_DONE) (n - 32))
  produce 0x73 d

/-- An uncorrectable word of the accumulator (R217). -/
def accUe (n : Nat) (d : Dev) : Dev := raise 0x67 ((d.wr F.ACC_STAT_STATE 5 n).wr F.ACC_STAT_UE 1 n)

/-- A SENDER's frames not yet on the link are withdrawn. -/
def dropFrags (n : Nat) (d : Dev) : Dev :=
  { d with ring := { d.ring with own := d.ring.own.filter fun f =>
    !(f.ty == 5 && f.dst == d.rd F.ACC_RPEER_PEER n && fld f.arg 0 16 == d.rd F.ACC_RTAG_TAG n && fld f.arg 21 6 == d.rd F.ACC_RPEER_RACC n) } }

/-- ACC_EMIT_END (R214, R217): `m` is the reading of the contents. A SENDER, its contents read, waits for the FRAGACK. -/
def accEmitEnd (n : Nat) (m : Mem) (d : Dev) : Dev :=
  let x := d.accu n
  if accState d n != 2 || x.left != 0 then d
  else
    let m := memFinds d 3 m
    let d := readMem 3 m d
    if m.isUe then accUe n (if x.waitAck then (dropFrags n d).setAcc n { x with waitAck := false } else d)
    else if x.waitAck then d
    else if x.bad then (d.wr F.ACC_STAT_STATE 5 n).wr F.ACC_STAT_EMITERR 1 n
    else accDone n d

/-! ### Members (R211–R213) -/

/-- A member is admitted: its claim (R211). -/
def memberClaim (t : List Byte) (d : Dev) : Dev :=
  let n := tAcc t
  let m := tMember t
  let d := setDrop n (clrBit (accDrop d n) m) (setClaim n (setBit (accClaim d n) m) d)
  if tClose t then (d.wr F.ACC_STAT_CLOSED 1 n).wr F.ACC_STAT_LAST m n else d

/-- The stripe fields of a ticket are valid (R211), with the profile and the plane mask the check uses. -/
def stripeOk (d : Dev) (t : List Byte) (prof planes : Nat) : Bool :=
  let n := tAcc t
  let m := tMember t
  let used := accClaim d n ||| accTaken d n
  accState d n == 1 && !d.on F.ACC_STAT_ABORTING n && !bit used m &&
  prof == d.rd F.ACC_CFG_CPROF n && !(profile d prof).raw && popc 8 planes * tCwCnt t == accCwn d n &&
  (if tClose t then !d.on F.ACC_STAT_CLOSED n && used / 2 ^ (m + 1) == 0
   else !d.on F.ACC_STAT_CLOSED n || m < d.rd F.ACC_STAT_LAST n)

/-- A take starts at the member's commit point (R212). -/
def takeStart (c : Nat) (cws : List (List Byte)) (d : Dev) : Dev :=
  let x := d.cell c
  match x.claim with
  | none => d
  | some (n, m, _) =>
    if !bit (accClaim d n) m then d
    else (d.setCell c { x with taking := true }).setAcc n
      { d.accu n with takes := (d.accu n).takes ++ [{ member := m, cell := c, cws := cws }] }

/-- The program of a member fails: it stays in the stripe (R212). -/
def memberFail (x : Cell) (d : Dev) : Dev :=
  match x.claim with
  | none => d
  | some (n, m, _) => setFail n (setBit (accFail d n) m) d

/-- Clusters whose members' takes wait for the exchange (R25): those of the dies they are programmed on, a COPY's target die
(R236). -/
def takeClusters (d : Dev) : List Nat := d.acc.flatMap fun p => p.2.takes.map fun t => dixCl (startedDie (d.cell t.cell))

/-- ACC_TAKE_END (R212, R217): the exchange serves the clusters in turn (R25, assumption 103); `ws` are the words of the accumulator it writes (R364). -/
def accTakeEnd (n member : Nat) (m : Mem) (ws : List MemWr) (d : Dev) : Dev :=
  let x := d.accu n
  match pull (fun (t : Take) => t.member == member) x.takes with
  | none => d
  | some (t, r) =>
    let cl := dixCl (startedDie (d.cell t.cell))
    if xchTurn d 4 (takeClusters d) != some cl then d
    else
    let d := xchGrant 4 cl d
    let d := d.setAcc n { x with takes := r }
    let d := Dev.onCell t.cell (fun y => { y with taking := false }) d
    let d := if (d.cell t.cell).out.isSome then releaseStaging t.cell d else d
    if t.lost || !bit (accClaim d n) member then d
    else
      let d := setClaim n (clrBit (accClaim d n) member) d
      if d.on F.ACC_STAT_ABORTING n then accSettle n d
      else if accState d n != 1 then d
      else
        let m := memFinds d 3 m
        let (ues, d) := memWrites 3 ws (readMem 3 m d)
        if m.isUe || ues.any id then accUe n d
        else
          let d := d.setAcc n { d.accu n with slots := xorSlots t.cws 0 (d.accu n).slots }
          emitCheck n (setTaken n (setBit (accTaken d n) member) d)

/-! ### Spill and restore (R215) -/

/-- The 65,600-byte image. -/
def accImage (d : Dev) (n : Nat) : List Byte :=
  let b := accContents d n ++ leBytes 4 0x50415331 ++
    leBytes 1 (d.rd F.ACC_CFG_CPROF n + 8 * accCwn d n + 128 * d.rd F.ACC_CFG_RING n) ++
    leBytes 1 (d.rd F.ACC_STAT_LAST n + 64 * d.rd F.ACC_STAT_CLOSED n) ++ leBytes 2 0 ++
    leBytes 8 (d.rd64 F.ACC_PDST_LO_ADDR F.ACC_PDST_HI_ADDR n) ++ leBytes 8 (accTaken d n) ++ leBytes 8 (accDrop d n) ++
    leBytes 8 (accFail d n) ++ leBytes 20 0
  b ++ leBytes 4 (crc32c b)

def accSpillAddr (d : Dev) (n : Nat) : Nat := d.rd64 F.ACC_SPILL_LO_ADDR F.ACC_SPILL_HI_ADDR n

def spillStart (n : Nat) (d : Dev) : Dev :=
  let img := accImage d n
  let d := (d.setAcc n { d.accu n with left := 0, bad := false, spilling := true }).wr F.ACC_STAT_STATE 4 n
  accWrite n (accSpillAddr d n) 0 img true d

def restoreStart (n : Nat) (d : Dev) : Dev :=
  let d := (d.setAcc n { takes := (d.accu n).takes }).wr F.ACC_STAT_STATE 4 n
  Dev.each (pieces (accSpillAddr d n) 65600) (fun q d =>
    let d := d.setAcc n { d.accu n with left := (d.accu n).left + 1 }
    request (n % 4) false { what := .accRestore n q.2.1, addr := q.1, len := q.2.2, kind := .data } d) d

/-- Take a good image into the accumulator: OPEN with its configuration and masks. -/
def accLoad (n : Nat) (b : List Byte) (d : Dev) : Dev :=
  let c := leAt b 65540 1
  let f := leAt b 65541 1
  let d := ((d.wr F.ACC_CFG_CPROF (c % 8) n).wr F.ACC_CFG_CWN (fld c 3 4) n).wr F.ACC_CFG_RING (fld c 7 1) n
  let d := (d.wr F.ACC_STAT_LAST (f % 64) n).wr F.ACC_STAT_CLOSED (fld f 6 1) n
  let d := d.wr64 F.ACC_PDST_LO_ADDR F.ACC_PDST_HI_ADDR (leAt b 65544 8) n
  let d := setFail n (leAt b 65568 8) (setDrop n (leAt b 65560 8) (setTaken n (leAt b 65552 8) (setClaim n 0 d)))
  let l := accLen d n
  (d.setAcc n { takes := (d.accu n).takes, slots := (List.range (accCwn d n)).map fun m => (m, (b.drop (l * m)).take l)
                tail := (b.take 65536).drop (l * accCwn d n) }).wr F.ACC_STAT_STATE 1 n

def flatImage : Tbl (List Byte) → List Byte
  | [] => []
  | (_, b) :: r => b ++ flatImage r

/-- ACC_MOVE_END (R215). -/
def accMoveEnd (n : Nat) (m : Mem) (d : Dev) : Dev :=
  let x := d.accu n
  let err := fun (d : Dev) => (d.wr F.ACC_STAT_STATE 5 n).wr F.ACC_STAT_MOVERR 1 n
  if accState d n != 4 || x.left != 0 then d
  else
    let m := memFinds d 3 m
    let d := readMem 3 m d
    if m.isUe then accUe n d
    else if x.bad then err d
    else if x.spilling then accToIdle n d
    else
      let b := flatImage x.image
      if leAt b 65536 4 = 0x50415331 ∧ crc32c (b.take 65596) = leAt b 65596 4 then accLoad n b d else err d

/-- Answers of the accumulators' requests (R215, R217): an emission write has 4 retries. -/
def accAnswer (n : Nat) (write : Bool) (r : Req) (code : Nat) (b : List Byte) (d : Dev) : Dev :=
  let x := d.accu n
  match r.what with
  | .accEmit _ _ =>
    if code != 0 ∧ r.tries < 4 then request (n % 4) write { r with tries := r.tries + 1 } d
    else d.setAcc n { x with left := x.left - 1, bad := x.bad || code != 0 }
  | .accRestore _ off => d.setAcc n { x with left := x.left - 1, bad := x.bad || code != 0, image := ins x.image off b }
  | _ => d.setAcc n { x with left := x.left - 1, bad := x.bad || code != 0 }

/-! ### Commands (R210) -/

def accReject (n : Nat) (d : Dev) : Dev := (d.wr F.ACC_STAT_CMDERR 1 n).inc F.ACC_CNT_CMDDROP

/-- OPEN zeroes the accumulator and its masks, every one of its words whole (R366, assumption 101). While the region is not
ready the unit is inactive: OPEN and RESTORE are turned away (R372, assumption 122). -/
def accOpen (n : Nat) (d : Dev) : Dev :=
  if accState d n != 0 || d.on F.ACC_STAT_ABORTING n || !regionReady d 3 then accReject n d
  else
    let d := setFail n 0 (setDrop n 0 (setTaken n 0 (setClaim n 0 d)))
    let d := ((d.wr F.ACC_STAT_CLOSED 0 n).wr F.ACC_STAT_LAST 0 n).wr F.ACC_STAT_SYNMASK 0 n
    ((healRange 3 (8192 * n) 8192 (d.setAcc n { takes := (d.accu n).takes })).wr F.ACC_RTAG_RCVD 0 n).wr F.ACC_STAT_STATE 1 n

def accForce (n : Nat) (d : Dev) : Dev :=
  if accState d n = 1 && accClaim d n == 0 && !d.on F.ACC_STAT_ABORTING n then emitStart n d else accReject n d

def accAbort (n : Nat) (d : Dev) : Dev :=
  if (accState d n = 1 || accState d n == 3 || accState d n == 5) && !d.on F.ACC_STAT_ABORTING n then
    if accClaim d n = 0 then accToIdle n d
    else (((d.wr F.ACC_STAT_UE 0 n).wr F.ACC_STAT_EMITERR 0 n).wr F.ACC_STAT_MOVERR 0 n).wr F.ACC_STAT_ABORTING 1 n
  else accReject n d

def accSpill (n : Nat) (d : Dev) : Dev :=
  if accState d n = 1 && accClaim d n == 0 && !d.on F.ACC_STAT_ABORTING n then spillStart n d else accReject n d

def accRestore (n : Nat) (d : Dev) : Dev :=
  if accState d n = 0 && !d.on F.ACC_STAT_ABORTING n && regionReady d 3 then restoreStart n d else accReject n d

def accRelease (n : Nat) (d : Dev) : Dev :=
  if (accState d n = 3 || accState d n == 5) && !d.on F.ACC_STAT_ABORTING n then accToIdle n d else accReject n d

/-- A request of an accumulator. -/
def isAccReq (r : Req) : Bool :=
  match r.what with
  | .accEmit _ _ | .accSpill _ _ | .accRestore _ _ => true
  | _ => false

/-- A port's direction without the accumulators' requests: those waiting leave, those outstanding are answered to no one. -/
def Dir.dropAcc (x : Dir) : Dir :=
  let keep := fun (q : List Req) => q.filter fun r => !isAccReq r
  { x with ctrl := keep x.ctrl, data := keep x.data, dma := keep x.dma
           out := x.out.map fun p => (p.1, if isAccReq p.2.req then { p.2 with req := { p.2.req with what := .dropped } } else p.2) }

/-- Fail-safe entry and power fail: every accumulator is IDLE with its masks and marks cleared, members have no claim left,
and a move in progress stops where it stands (R217). -/
def accClear (d : Dev) : Dev :=
  let fs := [F.ACC_STAT_STATE, F.ACC_STAT_UE, F.ACC_STAT_CMDERR, F.ACC_STAT_EMITERR, F.ACC_STAT_MOVERR, F.ACC_STAT_CLOSED, F.ACC_STAT_LAST,
    F.ACC_STAT_ABORTING, F.ACC_STAT_SYNMASK, F.ACC_CLAIM_LO_MASK, F.ACC_CLAIM_HI_MASK, F.ACC_TAKEN_LO_MASK, F.ACC_TAKEN_HI_MASK,
    F.ACC_DROP_LO_MASK, F.ACC_DROP_HI_MASK, F.ACC_FAIL_LO_MASK, F.ACC_FAIL_HI_MASK]
  let d := Dev.each fs (fun f d => d.clearField f) d
  { d with acc := [], cells := d.cells.map fun (p : Nat × Cell) => (p.1, { p.2 with taking := false, claim := none })
           fab := d.fab.map fun (p : Nat × Port) => (p.1, { rd := p.2.rd.dropAcc, wr := p.2.wr.dropAcc }) }

end Sys2Proof.Machine
end

