-- ==== Sys2Proof/Machine/WritePath.lean ====
section
/-!
DEFINITION. The write path (R195–R208, R498): fetch and encode into staging, the bytes of a programmed page, hold slots.
-/

namespace Sys2Proof.Machine

/-- A codeword of a profile: the data and its LDPC parity (R139, R197). -/
def encodeCw (p : Prof) (data : List Byte) : List Byte :=
  let n := 256 + 32 * p.parity
  fitTo 4128 0 data ++ fitTo n 0 (Config.ldpcParity n (fitTo 4128 0 data))

/-- Codewords a ticket names (R159). -/
def cwTotal (t : List Byte) : Nat := tCwCnt t * popc 8 (tPlanes t)

/-! ### Staging share (R113, R29) -/

/-- A channel's staging share: half of it is the page register in loopback depth 5 (R470). -/
def stagingShare (d : Dev) (c : Nat) : Nat := if d.rd F.TST_LBCTL_DEPTH c = 5 then 65536 else 131072

/-- Bytes reserved in a channel's share, hold slots included. -/
def stagingUsed (d : Dev) (c : Nat) : Nat :=
  sumL (d.cells.map fun p => (if dixCh p.2.dix = c then p.2.stg else 0) + (if dixCh p.2.tdix = c then p.2.tstg else 0)) +
  sumL ((d.chn c).holdStg.map (·.2))

def stagingFits (d : Dev) (c n : Nat) : Bool := stagingUsed d c + n ≤ stagingShare d c

/-- The reservation of the source side, or of a ticket without a target (R113). A hold reference needs none (R204). -/
def stagingNeed (d : Dev) (t : List Byte) : Nat :=
  let p := profile d (tCprof t)
  let n := popc 8 (tPlanes t)
  let o := tOpc t
  if o = opProgram ∨ o = opCopy then n * p.cwpp * p.len
  else if o = opRead then n * tCwCnt t * p.len
  else if o = opReadId ∨ o = opParam then tLen t
  else if o = opRoutine then p.len
  else 0

def targetNeed (d : Dev) (t : List Byte) : Nat :=
  let p := profile d (tTprof t)
  if tOpc t = opCopy then popc 8 (tTplanes t) * p.cwpp * p.len else 0

/-! ### Fetch (R195, R196, R198) -/

/-- Place a PROGRAM's data reads (R195). -/
def fetchStart (c : Nat) (d : Dev) : Dev :=
  let x := d.cell c
  let t := x.tkt
  let p := cellProf d x
  let unit := if p.raw then p.len else 4096
  let ask := fun (isMeta : Bool) (a off n : Nat) (d : Dev) =>
    Dev.each (pieces a n) (fun q d =>
      request (dixCl x.dix) false { what := .progData c (off + q.2.1) isMeta, addr := q.1, len := q.2.2, kind := .data }
        (Dev.onCell c (fun x => { x with rxLeft := x.rxLeft + 1 }) d)) d
  Dev.each (List.range (cwTotal t)) (fun m d =>
    let d := ask false (tDbuf t + unit * m) (unit * m) unit d
    if p.raw || tMbuf t = 0 then d else ask true (tMbuf t + 32 * m) (32 * m) 32 d) d

/-- Encode a PROGRAM's codewords into staging (R197, R198). -/
def encodeAll (c : Nat) (d : Dev) : Dev :=
  let x := d.cell c
  let p := cellProf d x
  let n := cwTotal x.tkt
  let coded := (List.range n).map fun m =>
    let b := (look x.plain m).getD []
    (m, if p.raw then fitTo p.len 0 b else encodeCw p b)
  d.setCell c { x with coded := coded, plain := [], ready := true, enc := if p.raw then 0 else n, xfer := n }

/-- The answer to one of a PROGRAM's data reads; the last leaves the data to the encoder. `ue` says that its write into staging met an uncorrectable word (R364, R207). -/
def progDataRead (c off : Nat) (isMeta : Bool) (code : Nat) (b : List Byte) (ue : Bool) (d : Dev) : Dev :=
  match look d.cells c with
  | none => d
  | some x =>
    let p := cellProf d x
    let unit := if p.raw then p.len else 4096
    let m := if isMeta then off / 32 else off / unit
    let pos := if isMeta then 4096 else off % unit
    let size := if p.raw then p.len else 4128
    let plain := if code = 0 then ins x.plain m (patchAt (fitTo size 0 ((look x.plain m).getD [])) pos b) else x.plain
    let d := d.setCell c { x with plain := plain, rxLeft := x.rxLeft - 1, rxBad := x.rxBad || code != 0, rxUe := x.rxUe || ue }
    let x := d.cell c
    if x.rxLeft != 0 || x.out.isSome then d
    else if x.rxBad then finishQueued c { status := 0x50, detail := 3 } d
    else if x.rxUe then finishQueued c { status := 0x7F, detail := 0x30 } (d.inc F.RD_UECNT_STAGE)
    else d

/-! ### The bytes of a page (R197–R200, R498) -/

/-- The bytes of a programmed page: the codeword positions, then the fill of R199. -/
def pageBytes (p : Prof) (seed : Nat → Nat) (codes : Nat → Option (List Byte)) (pglen : Nat) : List Byte :=
  let one := fun (k : Nat) =>
    let last := k + 1 == p.cwpp
    let fill := if last then pglen - p.cwpp * p.len else 0
    match codes k with
    | some b =>
      let b := fitTo p.len 0 b
      if p.rand then randomise (seed k) (b ++ List.replicate fill 0) else b ++ List.replicate fill 0xFF
    | none =>
      if p.rand then randomise (seed k) (List.replicate (p.len + fill) 0) else List.replicate (p.len + fill) 0xFF
  fitTo pglen 0 ((List.range p.cwpp).flatMap one)

/-- The m-th codeword of a ticket stands at plane `pl` (of mask `planes`), position `k`. -/
def codeIndex (t : List Byte) (planes pl k : Nat) : Option Nat :=
  if tCwFirst t ≤ k ∧ k < tCwFirst t + tCwCnt t then some (popc 8 (planes % 2 ^ pl) * tCwCnt t + (k - tCwFirst t)) else none

/-- The encoded codewords a PROGRAM sends: its own, or its hold slot's (R204). -/
def programCodes (d : Dev) (x : Cell) : Tbl (List Byte) :=
  match x.hold with
  | some s => (look (d.chn (dixCh x.dix)).holds s).getD []
  | none => x.coded

/-- The page a DIN of a ticket's side carries on a plane. -/
def ticketPage (d : Dev) (x : Cell) (target : Bool) (pl : Nat) : List Byte :=
  let t := x.tkt
  if target then
    let p := x.tprof.getD (profile d (tTprof t))
    pageBytes p (fun k => seedOf (tTdix t) (tTblock t) (tTpage t) (tTprof t) k x.salt)
      (fun k => (codeIndex t (tTplanes t) pl k).bind fun m => look x.coded m) (pageLen d x.tdix)
  else
    let p := cellProf d x
    let codes := programCodes d x
    pageBytes p (fun k => seedOf (tDix t) (tBlock t) (tPage t) (tCprof t) k x.salt)
      (fun k => (codeIndex t (tPlanes t) pl k).bind fun m => look codes m) (pageLen d x.dix)

/-- The codewords a member sends to its accumulator, in the order of R159 or R225; invalid positions of a COPY are zero. -/
def memberCodes (d : Dev) (x : Cell) (target : Bool) : List (List Byte) :=
  let p := if target then x.tprof.getD (profile d (tTprof x.tkt)) else cellProf d x
  let codes := if target then x.coded else programCodes d x
  (List.range (cwTotal x.tkt)).map fun m => fitTo p.len 0 ((look codes m).getD [])

/-! ### Hold slots (R203–R205) -/

/-- A PROGRAM whose DBUF names a hold slot (R204). -/
def holdRef (t : List Byte) : Option Nat :=
  if tOpc t = opProgram ∧ tDbuf t / 2 ^ 62 = 3 ∧ tDbuf t % 2 ^ 62 / 2 ^ 8 = 0 then some (tDbuf t / 64 % 4) else none

/-- A hold reference's conditions against slot `s` of channel `c` (R204). -/
def holdMatches (d : Dev) (t : List Byte) (c s : Nat) : Bool :=
  d.on (F.WR_HOLD_V.ix s) c && tMbuf t == 0 && d.rd (F.WR_HOLD_CPROF.ix s) c == tCprof t &&
  d.rd (F.WR_HOLD_PLANES.ix s) c == tPlanes t && d.rd (F.WR_HOLD_CWCNT.ix s) c == tCwCnt t

def holdRelease (s c : Nat) (d : Dev) : Dev :=
  let d := (((d.wr (F.WR_HOLD_V.ix s) 0 c).wr (F.WR_HOLD_DIX.ix s) 0 c).wr (F.WR_HOLD_CPROF.ix s) 0 c).wr (F.WR_HOLD_PLANES.ix s) 0 c
  let d := (d.wr (F.WR_HOLD_CWCNT.ix s) 0 c).wr F.WR_STAT_HELD (clrBit (d.rd F.WR_STAT_HELD c) s) c
  let h := d.chn c
  d.setCh c { h with holds := del h.holds s, holdStg := del h.holdStg s }

/-- WR_HOLDREL (R205). -/
def holdRelWrite (c v : Nat) (d : Dev) : Dev := Dev.each (bitsOf 4 v) (fun s d => holdRelease s c d) d

/-- Fail-safe entry, power fail and resets release every slot (R205). -/
def holdClear (d : Dev) : Dev := Dev.each (List.range 32) (fun c d => holdRelWrite c 15 d) d

/-- Keep a failed ticket's codewords (R203, R238): the slot, when one is taken. `target` names a COPY's target side. -/
def holdKeep (c : Nat) (target : Bool) (d : Dev) : Option Nat × Dev :=
  let x := d.cell c
  let ch := dixCh (if target then x.tdix else x.dix)
  match x.hold with
  | some s => (some s, d)
  | none =>
    if !d.on F.WR_CFG_HOLD ch then (none, d)
    else match (List.range 4).find? fun s => !d.on (F.WR_HOLD_V.ix s) ch with
      | none => (none, d)
      | some s =>
        let t := x.tkt
        let d := (d.wr (F.WR_HOLD_V.ix s) 1 ch).wr (F.WR_HOLD_DIX.ix s) (if target then x.tdix else x.dix) ch
        let d := (d.wr (F.WR_HOLD_CPROF.ix s) (if target then tTprof t else tCprof t) ch).wr (F.WR_HOLD_PLANES.ix s) (if target then tTplanes t else tPlanes t) ch
        let d := (d.wr (F.WR_HOLD_CWCNT.ix s) (tCwCnt t) ch).wr F.WR_STAT_HELD (setBit (d.rd F.WR_STAT_HELD ch) s) ch
        let h := d.chn ch
        let stg := if target then x.tstg else x.stg
        let d := d.setCh ch { h with holds := ins h.holds s x.coded, holdStg := ins h.holdStg s stg }
        (some s, Dev.onCell c (fun x => if target then { x with tstg := 0 } else { x with stg := 0 }) d)

/-! ### Outcomes (R201, R207, R208) -/

/-- DETAIL of a failed program or erase (R207). -/
def failDetail (slot : Option Nat) (aggregate : Bool) : Nat :=
  match slot with
  | some s => 128 + 64 * b2n aggregate + s
  | none => 64 * b2n aggregate

/-- The outcome of a PROGRAM or ERASE whose status has been reported (R201, R203, R207, R208). -/
def writeOutcome (c : Nat) (fail aggregate : Bool) (busy : Nat) (d : Dev) : Outcome × Dev :=
  let x := d.cell c
  let t := x.tkt
  let ch := dixCh x.dix
  if !fail then
    let d := match x.hold with
      | some s => holdRelease s ch d
      | none => d
    ({ status := 0, result := busy }, d)
  else if tOpc t = opErase then
    let d := telemetryOf c 5 (tDix t) (tBlock t * 32 + b2n aggregate * 16) (d.inc F.WR_CNT_EFAIL ch)
    ({ status := 0x21, detail := failDetail none aggregate, result := busy }, d)
  else
    let d := memberFail x (d.inc F.WR_CNT_PFAIL ch)
    let k := holdKeep c false d
    let d := telemetryOf c 4 (tDix t) (tBlock t * 32 + b2n aggregate * 16 + b2n k.1.isSome * 8 + k.1.getD 0 * 2) k.2
    ({ status := 0x20, detail := failDetail k.1 aggregate, result := busy }, d)

end Sys2Proof.Machine
end

