-- ==== Sys2Proof/Machine/Trims.lean ====
section
/-!
DEFINITION. PHY trims and Glide (R268–R269, R280–R281), and the pads' rows (R245, R246).
-/

namespace Sys2Proof.Machine

/-! ### Trims -/

/-- Each trim's field in force, its target, and whether it is signed (R268). -/
def trims : List (Fld × Fld × Bool) :=
  ((List.range 8).map fun i => (F.CAL_RDLY_D.ix i, F.CAL_TRDLY_D.ix i, false)) ++
  ((List.range 8).map fun i => (F.CAL_WDLY_D.ix i, F.CAL_TWDLY_D.ix i, false)) ++
  [(F.CAL_STRB_RDQS, F.CAL_TSTRB_RDQS, false), (F.CAL_STRB_WDQS, F.CAL_TSTRB_WDQS, false),
   (F.CAL_STRB_VREF, F.CAL_TSTRB_VREF, false), (F.CAL_DCC_RE, F.CAL_TDCC_RE, true), (F.CAL_DCC_DQS, F.CAL_TDCC_DQS, true),
   (F.CAL_IMP_PU, F.CAL_TIMP_PU, false), (F.CAL_IMP_PD, F.CAL_TIMP_PD, false), (F.CAL_IMP_ODT, F.CAL_TIMP_ODT, false)]

/-- A trim as the integer it stands for. -/
def trimVal (d : Dev) (f : Fld) (sg : Bool) (c : Nat) : Int := if sg then signed f.w (d.rd f c) else (d.rd f c : Int)

/-- The fused default of a trim or of a PZQ_STAT code. -/
def fusedTrim (d : Dev) (f : Fld) (c : Nat) : Nat := (look d.fuses.trims (f.key c)).getD f.rst

/-- PZQ_STAT's codes at reset, and after the loss of CORE (R289). -/
def pzqFused (d : Dev) : Dev :=
  Dev.each [0, 1, 2, 3] (fun cl d => (d.wr F.PZQ_STAT_PU (fusedTrim d F.PZQ_STAT_PU cl) cl).wr F.PZQ_STAT_PD (fusedTrim d F.PZQ_STAT_PD cl) cl) d

/-- Any trim differs from its target. -/
def trimsDiffer (d : Dev) (c : Nat) : Bool := trims.any fun t => d.rd t.1 c != d.rd t.2.1 c

/-- CAL_STAT.GLIDING follows the trims (R280). -/
def gliding (c : Nat) (d : Dev) : Dev := d.put F.CAL_STAT_GLIDING (trimsDiffer d c) c

/-- One step of a trim toward its target. -/
def trimStep (c : Nat) (t : Fld × Fld × Bool) (d : Dev) : Dev :=
  let a := trimVal d t.1 t.2.2 c
  let b := trimVal d t.2.1 t.2.2 c
  if a < b then d.wr t.1 (wrapInt t.1.w (a + 1)) c else if b < a then d.wr t.1 (wrapInt t.1.w (a - 1)) c else d

/-- The PHY of a channel is awake (R386). -/
def phyAwake (d : Dev) (c : Nat) : Bool := bit (d.rd F.PM_PHYSTAT_ON) c

/-- Move every trim once, or take the targets in full when CAL_CFG.GLIDE is 0 (R280); a channel in a loopback keeps its trims (R283). -/
def glideMove (c : Nat) (d : Dev) : Dev :=
  if !trimsDiffer d c || !phyAwake d c || d.on F.TST_LBCTL_DEPTH c || d.on F.FS_STAT_ACTIVE || d.fs.pfail then gliding c d
  else
    let d := if d.on F.CAL_CFG_GLIDE c then Dev.each trims (trimStep c) d
      else Dev.each trims (fun t d => d.wr t.1 (d.rd t.2.1 c) c) d
    let h := d.chn c
    gliding c ((d.setCh c { h with cal := { h.cal with last := d.time } }).incW F.CAL_CNT2_GSTEPS c)

/-- A Glide point where a context ends or parks (R280): at least GSPACE µs since the last step, measured on LG_TIME, where
trims move in steps. No trim moves while another context's nanoword runs. -/
def glidePoint (c : Nat) (d : Dev) : Dev :=
  if (d.chn c).run.isSome then d
  else if !d.on F.CAL_CFG_GLIDE c || decide (d.rd F.CAL_CFG_GSPACE c ≤ d.time - (d.chn c).cal.last) then glideMove c d else d

/-- CAL_STAT.STALE (R283). -/
def staleShow (c : Nat) (d : Dev) : Dev :=
  d.put F.CAL_STAT_STALE ((d.chn c).cal.stale || d.on F.FS_STAT_ACTIVE || d.rd F.SEQ_STAT_STATE c == 4 || d.on F.TST_LBCTL_DEPTH c) c

/-! ### Pads -/

/-- The rows of R245 a channel's pads can hold. The idle row's keepers follow CH_PAD.KEEP. -/
def padsReset : Pads := {}
def padsHeld (row : Nat) (keep : Bool) : Pads :=
  let k : PadLvl := if keep then .kept else .hiZ
  { row := row, ce := .high, wpN := .low, ale := .low, cle := .low, weN := .high, reT := .high, reC := .low, dqs := k, dqDrive := k }
def padsIdle (keep : Bool) : Pads := padsHeld 1 keep
def padsFail : Pads := padsHeld 3 false
def padsOff : Pads := padsHeld 4 false

def setPads (p : Pads) (c : Nat) (d : Dev) : Dev := d.setCh c { d.chn c with pads := p }

/-- The idle row, but for a channel held in another by the fail-safe state or by its PHY (R245). -/
def idlePads (c : Nat) (d : Dev) : Dev :=
  if d.on F.FS_STAT_ACTIVE then setPads padsFail c d else if phyAwake d c then setPads (padsIdle (d.on F.CH_PAD_KEEP c)) c d else setPads padsOff c d

end Sys2Proof.Machine
end

