-- ==== Sys2Proof/Machine/Runs.lean ====
section
/-!
DEFINITION. What the end of a run does, whatever ended it: bus time (R98, R118, R121, R345), tokens (R131), the
sequencer's registers (R103, R111), and the endings of a context's tickets.
-/

namespace Sys2Proof.Machine

/-- Signed deficit of a tenant group, in ns (R118). -/
def deficit (d : Dev) (c g : Nat) : Int := signed 32 (d.rd (F.SLM_DEF_DEFICIT.ix g) c)

def setDeficit (c g : Nat) (v : Int) (d : Dev) : Dev :=
  d.wr (F.SLM_DEF_DEFICIT.ix g) (wrapInt 32 (clampInt (-2147483648) 2147483647 v)) c

def tenantGroup (d : Dev) (t : Nat) : Nat := d.rd F.TN_CFG_GRP t

/-- A piece of a tenant's bus time: ledger, cap and its group's deficit (R98, R118, R353). -/
def spendBus (c t ns : Nat) (d : Dev) : Dev :=
  if ns = 0 then d
  else
    let d := chargeBus t ns d
    let g := tenantGroup d t
    setDeficit c g (deficit d c g - ns) d

/-- Divide `ns` in proportion to weights of sum `w`, each share the difference of two rounded-down sums (R121;
assumption 10). -/
def sharesFrom (ns w acc : Nat) : List Nat → List Nat
  | [] => []
  | a :: r => (ns * (acc + a) / w - ns * acc / w) :: sharesFrom ns w (acc + a) r

/-- The codewords each ticket of a group names; equal weights where none names any (R121). -/
def busWeights (d : Dev) (cells : List Nat) : List Nat :=
  let ws := cells.map fun k => let t := (d.cell k).tkt; if tOpc t = opErase then 0 else cwTotal t
  if sumL ws = 0 then cells.map fun _ => 1 else ws

/-- Charge a piece of bus time to the tickets of a context, or to LG_SYSBUS for work without a ticket (R121, R345). -/
def spendRun (c : Nat) (cells : List Nat) (ns : Nat) (d : Dev) : Dev :=
  if cells.isEmpty then chargeSysBus ns d
  else
    let ws := busWeights d cells
    Dev.each (cells.zip (sharesFrom ns (sumL ws) 0 ws)) (fun p d => spendBus c (tTenant (d.cell p.1).tkt) p.2 d) d

/-- Time on LG_TIME since the nanoword in progress began, in ns (assumption 119). -/
def sinceBegan (d : Dev) (x : Ctx) : Nat :=
  match x.began with
  | some t => (d.time - t) * 1000
  | none => 0

/-- Half PHY periods of a nanoword that is cut off in the middle (R98): what LG_TIME shows of it, within its own length where
it has one (assumption 119). -/
def cutUnits (d : Dev) (c : Nat) (x : Ctx) : Nat :=
  if x.st = .running && x.began.isSome then
    let rate := d.rd F.CH_STAT_RATE c
    let e := if rate = 0 then sinceBegan d x / Config.sdrHalfPeriod else sinceBegan d x * rate / 10
    match nanoOf d c x with
    | some (_, _, w) => if nwCyc w = 6 then e else min e (nanoUnits (d.rd F.SEQ_CFG_TDIV c) 0 0 w)
    | none => e
  else 0

/-- Charge the bus time a context has taken since it was granted the bus (R86, R98). -/
def chargeRun (c id : Nat) (d : Dev) : Dev :=
  match d.ctx c id with
  | none => d
  | some x =>
    let ns := unitsNs (d.rd F.CH_STAT_RATE c) (x.units + cutUnits d c x)
    d.setCtx c id { x with units := 0, held := 0 } |> spendRun c x.cells ns

/-- Die busy time of a context's operation (R64), a wait in progress included. -/
def busyNow (d : Dev) (c : Nat) (x : Ctx) : Nat :=
  let waits : Bool := match nanoOf d c x with
    | some (_, _, w) => (x.st == .running || x.st == .parked) && nwCyc w == 6
    | none => false
  x.busy + (if waits then sinceBegan d x else 0)

/-- The bus is free again: the sequencer's registers and pads (R103, R245). -/
def busFree (c id : Nat) (d : Dev) : Dev :=
  if (d.chn c).run = some id then
    let d := d.setCh c { d.chn c with run := none }
    let d := if d.rd F.SEQ_STAT_STATE c = 4 then d else (d.wr F.SEQ_STAT_STATE 0 c).wr F.SEQ_STAT_COMMITTED 0 c
    seqParked c (idlePads c d)
  else d

/-- A running context's registers (R111): MWADDR is the address before a match redirects it (assumption 111). -/
def showRun (c : Nat) (x : Ctx) (d : Dev) : Dev :=
  let d := ((d.wr F.SEQ_STAT_STATE 2 c).put F.SEQ_STAT_COMMITTED x.committed c).wr F.SEQ_STAT_MWADDR x.mw c
  (d.wr F.SEQ_STAT_RIDX x.rix c).wr F.SEQ_CTX_DIX x.dix c

/-- Withdraw the request of a channel's candidate when it is for this context. -/
def dropAsk (c id : Nat) (d : Dev) : Dev :=
  match candidate d c with
  | some r => if r.who = .ctx id then liftDrop c false d else d
  | none => d

/-- The operations a power-fail sequence waits for: contexts with a ticket that has not ended (R72, R218). -/
def awaited (d : Dev) : Bool :=
  (List.range 32).any fun c => (d.chn c).ctxs.any fun p => p.2.cells.any fun k => (d.cell k).out.isNone

/-- tw: the wait of R218 has ended; PFM_WAIT.LAST is its length in units of 10 µs. -/
def twReached (d : Dev) : Dev :=
  if d.fs.pfail && !d.fs.tw then { d.wr F.PFM_WAIT_LAST (min ((d.time - d.pfm.t0) / 10) 65535) with fs := { d.fs with tw := true } } else d

/-- tw falls with the end of the last operation waited for (R218). -/
def twTest (d : Dev) : Dev := if awaited d then d else twReached d

/-- A first read of a die has ended: it counts toward the suspension's reads (R125), a group of tickets as one (assumption
113). -/
def readEnded (c : Nat) (x : Ctx) (d : Dev) : Dev :=
  let reads := x.work == .first && x.cells.any fun k => tOpc (d.cell k).tkt == opRead || tOpc (d.cell k).tkt == opCopy
  let h := d.chn c
  if reads then d.setCh c { h with burst := ins h.burst x.dix ((look h.burst x.dix).getD 0 + 1) } else d

/-- A context leaves its sequencer for good: bus time, tokens, soft decoders, its request; `keep` leaves the ARRAY tokens
to ARRAY_TOKEN_TIMEOUT (R131). -/
def closeCtx (c id : Nat) (keep : Bool) (d : Dev) : Dev :=
  let d := freeIO c id (chargeRun c id d)
  let d := if keep then d else freeArray c id d
  let d := dropAsk c id (dropSoft c id d)
  let d := match d.ctx c id with
    | some x => if x.st == .decoding then d else readEnded c x d
    | none => d
  twTest (glidePoint c (dropCtx c id (busFree c id d)))

/-- A type 0x7 record (R285). -/
def calRecord (dix code trig eyemin : Nat) (d : Dev) : Dev :=
  telemetry 7 dix (code % 16 * 2 ^ 14 + trig % 8 * 2 ^ 11 + min eyemin 255 * 2 ^ 3) d

/-- The record of a CAL ticket of kind 0 or 3–5 that an event ends (R285): code 9 after a timeout, 10 after link errors, and a
free value among R278's codes where the event has none (assumption 69). -/
def calEarly (k : Nat) (o : Outcome) (d : Dev) : Dev :=
  let x := d.cell k
  let kind := tArg x.tkt
  if tOpc x.tkt = opCal ∧ (kind = 0 ∨ (3 ≤ kind ∧ kind ≤ 5)) ∧ o.status ≠ 0 then
    let (v, d) := d.fresh
    calRecord x.dix (if o.status = 0x30 then 9 else if o.status = 0x7F ∧ o.detail = 0x21 then 10 else v % 10 + 1) 5 0 d
  else d

/-- End every ticket of a context and the context itself. -/
def endCtx (c id : Nat) (keep : Bool) (o : Nat → Outcome) (d : Dev) : Dev :=
  match d.ctx c id with
  | none => d
  | some x =>
    let busy := busyNow d c x / 1000
    let d := closeCtx c id keep d
    Dev.each x.cells (fun k d =>
      let y := d.cell k
      let r := if tOpc y.tkt = opProgram ∨ tOpc y.tkt = opErase then { o k with result := busy } else o k
      if y.out.isSome then d else releaseStaging k (finishStarted k r (calEarly k r d))) d

/-- The microword a context is at is a COMMIT. -/
def onCommit (d : Dev) (c : Nat) (x : Ctx) : Bool :=
  match mwOf d (chCl c) x with
  | some (_, w) => mwSeq w == 1
  | none => false

/-- The nanoword of a COMMIT is in progress (R90: an event that acts at once), a WAITRDY at which the context is parked
included. -/
def inCommit (d : Dev) (c : Nat) (x : Ctx) : Bool :=
  (x.st == .running || x.st == .parked || (x.st == .ready && !x.rerun)) && onCommit d c x

/-- The context counts as past commit for an event that acts at once. -/
def pastNow (d : Dev) (c : Nat) (x : Ctx) : Bool := x.committed || inCommit d c x

/-- A routine of the context is running or parked, rather than waiting between runs. -/
def inRoutine (x : Ctx) : Bool :=
  x.st == .running || x.st == .gap || x.st == .parked || x.st == .ready || x.st == .sliced || x.st == .halted ||
  (x.st == .eligible && (x.work == .suspend || x.committed))

/-! ### Nanowords and pads (R83–R85, R245) -/

/-- The count of bytes a burst carries (R83, DSRC). -/
def burstCount (d : Dev) (x : Ctx) (w : Nat) : Nat :=
  let cell := match cellOfPlane d x (planeOf x) with
    | some k => some k
    | none => x.cells.head?
  let p := match cell with
    | some k => let y := d.cell k; if x.work = Work.target then y.tprof.getD (profile d (tTprof y.tkt)) else cellProf d y
    | none => profile d x.prof
  let cnt := match cell with
    | some k => tCwCnt (d.cell k).tkt
    | none => x.cwCnt
  let len := match cell with
    | some k => tLen (d.cell k).tkt
    | none => x.len
  if nwCyc w = 3 && !nwStage w then nwCnt16 w
  else if nwCyc w = 4 && !nwStage w && !nwDecnote w then nwCnt16 w
  else match nwDsrc w with
    | 0 => if nwCyc w = 3 then pageLen d x.dix else cnt * p.len
    | 1 => nwCnt16 w
    | 2 => len
    | _ => p.len

/-- The bytes Rinva drives on Fcc_DQ in a CMD, ADDR or DIN cycle (R84, R85, R88, R498). A DIN of operand bytes that passes byte
15 goes on at byte 0 (assumption 107); the column address is 0 but for a READ and a COPY's source side (assumption 109). -/
def drivenBytes (d : Dev) (x : Ctx) (w : Nat) : List Byte :=
  let cell := match cellOfPlane d x (planeOf x) with
    | some k => some k
    | none => x.cells.head?
  let t := match cell with
    | some k => (d.cell k).tkt
    | none => []
  let tgt := x.work == .target
  let blk := if x.cells.isEmpty then x.blk else if tgt then tTblock t else tBlock t
  let page := if x.cells.isEmpty then x.page else if tgt then tTpage t else tPage t
  let feat := if x.cells.isEmpty then x.feat else tArg t
  let parms := if x.cells.isEmpty then x.parms else (t.drop 36).take 4
  let args := (t.drop 34).take 14
  let p := match cell with
    | some k => cellProf d (d.cell k)
    | none => profile d x.prof
  let first := match cell with
    | some k => match (runCws x (d.cell k) (planeOf x))[(look x.cuts (planeOf x)).getD 0]? with
      | some i => i
      | none => tCwFirst t
    | none => x.cwFirst
  let col := if (tOpc t = opRead ∨ tOpc t = opCopy) ∧ ¬ tgt then first * p.len else 0
  let b := fun (w : Nat) => BitVec.ofNat 8 (operandByte d x feat parms args col page blk w)
  match nwCyc w with
  | 1 => [b w]
  | 2 => [b w]
  | 3 =>
    if nwStage w then match cell with
      | some k => (ticketPage d (d.cell k) tgt (planeOf x)).take (burstCount d x w)
      | none => []
    else (List.range (nwCnt16 w)).map fun i => b ((w &&& ((2 ^ 128 - 1) ^^^ (15 * 2 ^ 24))) + (nwOidx w + i) % 16 * 2 ^ 24)
  | _ => []

/-- Pad levels while a nanoword runs (R83, R84, R245): WP_N by its WPH; the chip enables by its CEM, but for the kinds that
change no chip enable (assumption 81); strobes by its kind; a loopback depth keeps every chip enable high (R467). -/
def nanoPads (d : Dev) (c : Nat) (x : Ctx) (w : Nat) : Pads :=
  let p := (d.chn c).pads
  let lb := d.on F.TST_LBCTL_DEPTH c
  let k := nwCyc w
  let ce := match nwCem w with
    | 1 => if lb then 0xFF else if k = 0 ∨ k = 8 ∨ k = 9 then p.ceN else clrBit 0xFF (x.dix / 4 % 8)
    | 2 => if k = 0 ∨ k = 8 ∨ k = 9 then p.ceN else 0xFF
    | _ => p.ceN
  let lvl := fun (b : Bool) => if b then PadLvl.high else .low
  let reads := k = 4 ∨ k = 5
  { row := 2, ceN := ce, ce := .high, wpN := lvl (nwWph w && !lb), ale := lvl (k == 2), cle := lvl (k == 1)
    weN := if k = 1 ∨ k = 2 then .strobe else .high
    reT := if reads then .strobe else .high, reC := if reads then .strobe else .low
    dqs := if k = 3 then .strobe else .hiZ
    dqDrive := if 1 ≤ k ∧ k ≤ 3 then .bytes else if reads then .hiZ else p.dqDrive
    dq := if 1 ≤ k ∧ k ≤ 3 then drivenBytes d x w else p.dq }

/-- The timeout class of a WAITRDY: its TOCLS, but class 7 in an enumeration (R252, R255). -/
def waitClass (d : Dev) (c w : Nat) : Nat := if (d.chn c).enum.isSome then 7 else nwTocls w

/-- A nanoword begins (R83, R84): the loop counter, the timeout class and the pads; a burst to the splitter begins a codeword
(R147). -/
def nanoBegin (c id : Nat) (d : Dev) : Dev :=
  match d.ctx c id with
  | none => d
  | some x => match nanoOf d c x with
    | none => d
    | some (_, _, w) =>
      let x := { x with loop := if nwLdloop w then nwCnt16 w else x.loop, tocls := if nwCyc w = 6 then waitClass d c w else x.tocls
                        began := some d.time }
      let d := if nwLegal w then setPads (nanoPads d c x w) c (d.setCtx c id x) else d
      if nwLegal w && nwCyc w == 4 && nwDecnote w then beginCw c id (planeOf x) d else d

/-! ### Beginning a run (R87, R88, R103) -/

/-- The context with its routine's entry in hand and the per-run state clear (R88). -/
def ctxFresh (x : Ctx) (e cm : Nat) : Ctx :=
  { x with entry := e, commitAt := cm, mw := e, stack := [], loop := 0, status := 0, committed := false, reentry := none
           left := x.planes, dout := [], cuts := [], stats := [], marked := false, susping := false, suspAsk := false
           minrun := false, linkErr := false, rerun := false, resample := false, due := false, began := none, st := .running }

/-- The context takes the bus: its routine's first microword is in progress. None when the index has no entry (R87). -/
def launch (c id : Nat) (d : Dev) : Option Dev :=
  match d.ctx c id with
  | none => none
  | some x => match indexEntry d (chCl c) x.rix with
    | none => none
    | some (e, cm) =>
      let a := ((mwFetch d (chCl c) e).map (·.1)).getD e
      let x := ctxFresh x e cm
      let d := d.setCtx c id x
      let d := if x.work = .sanitise then (d.wr F.SAN_POS_DIX x.dix).wr F.SAN_POS_BLOCK x.blk else d
      some (nanoBegin c id (seqParked c (showRun c x (traceMw c a (d.setCh c { d.chn c with run := some id })))))

end Sys2Proof.Machine
end

