-- ==== Sys2Proof/Machine/FailSafe.lean ====
section
/-!
DEFINITION. The fail-safe state (R455–R460) and the power-fail sequence with its manifest (R72–R75, R218, R219, R239,
R494).
-/

namespace Sys2Proof.Machine

/-! ### Work stopped by either event -/

/-- The geometry fields that an enumeration records (R253). -/
def geom0Fields : List Fld := [F.DIE_GEOM0_NPL, F.DIE_GEOM0_NBLK, F.DIE_GEOM0_PPB]
def geom1Fields : List Fld :=
  [F.DIE_GEOM1_PGLEN, F.DIE_GEOM1_CCYC, F.DIE_GEOM1_RCYC, F.DIE_GEOM1_PPSTAT, F.DIE_GEOM1_SUSP, F.DIE_GEOM1_CACHE, F.DIE_GEOM1_XPT]

/-- What a LUN holds as the enumeration reaches its target (R495). -/
def dieSave (d : Dev) (x : Nat) : DieSave :=
  let y := d.die x
  { die := x, state := d.rd F.DIE_STAT_STATE x, capped := d.rd F.DIE_STAT_CAPPED x
    geom0 := geom0Fields.map fun f => d.rd f x
    geom1 := geom1Fields.map fun f => d.rd f x
    iface := y.iface, layout := y.layout, rates := y.rates }

/-- A LUN has again what it held before the enumeration of its target (R495); a fence made meanwhile stands. -/
def dieRestore (s : DieSave) (d : Dev) : Dev :=
  let x := s.die
  let d := if d.rd F.DIE_STAT_STATE x = 3 then d else d.wr F.DIE_STAT_STATE s.state x
  let d := Dev.each (geom0Fields.zip s.geom0 ++ geom1Fields.zip s.geom1) (fun p d => d.wr p.1 p.2 x) (d.wr F.DIE_STAT_CAPPED s.capped x)
  d.setDie x { d.die x with iface := s.iface, layout := s.layout, rates := s.rates }

/-- R495: an enumeration stopped by a power fail or fail-safe entry. -/
def enumAbort (c : Nat) (d : Dev) : Dev :=
  let h := d.chn c
  match h.enum with
  | none => d
  | some e =>
    let d := Dev.each e.saved dieRestore (d.setCh c { h with enum := none, timing := [], newRate := none })
    let d := if e.step = 6 then
        -- MAXOK has its former value, and no calibration runs for this enumeration
        let d := (d.wr F.CH_STAT_MAXOK e.maxok c).put F.CH_STAT_RECHG h.rateWant c
        let s := d.rd F.CAL_STAT_STATE c
        let d := if h.cal.hold && (s == 2 || s == 3) then d.wr F.CAL_STAT_STATE (b2n h.cal.wasValid) c else d
        d.setCh c { d.chn c with cal := { h.cal with hold := false, forced := false, step := 0 } }
      else d
    { ((d.wr F.CH_STAT_ENUMBUSY 0 c).wr F.CH_ENUM_GO 0 c).wr F.CH_ENUM_ABORTED 1 c with bootCh := clrBit d.bootCh c }

/-- A rate change whose SET_TIMING a power fail or fail-safe entry has ended is requested again (R249, R92). -/
def rateAgain (c : Nat) (d : Dev) : Dev :=
  let h := d.chn c
  if h.newRate.isSome then d.setCh c { h with newRate := none, timing := [], rateWant := true } else d

/-- A die is FENCED from here on (R259). -/
def fenceMark (x cause : Nat) (d : Dev) : Dev :=
  let d := (d.wr F.DIE_STAT_STATE 3 x).wr F.DIE_STAT_FCAUSE cause x
  let d := d.setDie x { d.die x with fenceDue := none }
  telemetry 9 x (2 ^ 17 + cause * 2 ^ 14) (produce 0x74 (raise (0x70 + dixCl x) d))

/-- R288: a calibration run abandoned without counting an abort; it is due again, from step 1. A run that had begun has ended
(R328, producer 0x75). -/
def calAbandon (c : Nat) (d : Dev) : Dev :=
  let h := d.chn c
  let d := if d.rd F.CAL_STAT_STATE c = 3 then produce 0x75 (d.wr F.CAL_STAT_STATE 2 c) else d
  let again := fun (d : Dev) => d.setCh c { h with cal := { h.cal with step := 1, more := [] } }
  match candidate d c with
  | some r => if r.who = .calStep then liftDrop c false (again d) else again d
  | none => again d

/-- A sanitise stops with ABORTED (R433). -/
def sanAbort (d : Dev) : Dev :=
  if d.on F.SAN_STAT_BUSY then { (d.wr F.SAN_STAT_BUSY 0).wr F.SAN_STAT_ABORTED 1 with upd := { d.upd with san := [] } } else d

/-- The session moves to ERROR with a code; source 0x0D2 (R422, R434). -/
def sessionError (err : Nat) (d : Dev) : Dev := raise 0xD2 ((d.wr F.UPD_STAT_STATE 5).wr F.UPD_STAT_ERR err)

/-- An event of R435 ends an update session: ERR 12, once the NOR operation in progress has ended (R422). -/
def sessionAbort (d : Dev) : Dev :=
  let s := d.rd F.UPD_STAT_STATE
  if s = 1 ∨ s = 2 ∨ s = 3 then
    if d.upd.nor = 0 then sessionError 12 d
    else { d with upd := { d.upd with aborting := true } }
  else d

/-- Every context of a channel, with its number. -/
def ctxsOf (d : Dev) : List (Nat × Nat) :=
  (List.range 32).flatMap fun c => (d.chn c).ctxs.map fun p => (c, p.1)

/-- A queued COPY loses its stream and reservations (R239, R205). -/
def copyUntake (c : Nat) (d : Dev) : Dev :=
  let x := d.cell c
  match x.stream with
  | none => d
  | some s =>
    let cl := dixCl x.dix
    let d := d.setCell c { x with stream := none, stg := 0, tstg := 0, bitmap := none, prof := none, tprof := none }
    let d := d.wr F.TRV_STAT_BUSY (clrBit (d.rd F.TRV_STAT_BUSY cl) s) cl
    (((d.wr (F.TRV_STR_STATE.ix s) 0 cl).wr (F.TRV_STR_XCL.ix s) 0 cl).wr (F.TRV_STR_SRCDIX.ix s) 0 cl).wr (F.TRV_STR_TGTDIX.ix s) 0 cl

/-- Records of tickets that never started and are still unwritten: the tickets end as not started, in no manifest, and
their cells are free (R62). A record in flight stays, and so do the records of started tickets that a failed ring holds (R67). -/
def dropWaiting (d : Dev) : Dev :=
  let d := Dev.each d.cq (fun p d =>
    let x := d.cqs p.1
    let lost := x.held.any fun h => !recReserved d h.1
    let failed := x.failed || (lost && !x.pend.isEmpty)
    let cells := (x.waiting ++ x.held.map (·.1)).filterMap fun r => match r with
      | .cell c => if (d.cell c).started then none else some c
      | .reject _ => none
    let d := d.setCq p.1 { x with waiting := [], held := if lost then [] else x.held, failed := failed
                                  reserved := if lost then x.reserved - 1 else x.reserved }
    Dev.each cells freeCell d) d
  let keep := d.adm.rejects.filter fun r => d.cq.any fun p => p.2.busy == some (.reject r.hand.sq)
  let d := if d.adm.rejects.any (fun r => r.hand.sq == 0xFF) && !keep.any (fun r => r.hand.sq == 0xFF) then d.wr F.TKT_STAT_BUSY 0 else d
  { d with adm := { d.adm with rejects := keep } }

/-- What both events release besides contexts: Lift requests, waiting records, hold slots, streams, accumulators,
enumerations, runs, a sanitise (R62, R136, R205, R217, R239, R288, R433, R495). -/
def stopUnits (d : Dev) : Dev :=
  let d := dropWaiting (liftClear { d with adm := { d.adm with halted := true } })
  let d := Dev.each (List.range 32) (fun c d => calAbandon c (rateAgain c (enumAbort c d))) d
  let d := accClear (holdClear d)
  sanAbort (Dev.each (d.cells.map (·.1)) (fun c d => if (d.cell c).started then d else copyUntake c d) d)

/-! ### Fail-safe entry (R455, R456) -/

def resetOnly (cause : Nat) : Bool :=
  cause == 1 || cause == 2 || cause == 3 || cause == 4 || cause == 5 || cause == 9 || cause == 12

/-- What fail-safe entry does to a ticket of a context (R92, R239, R456). -/
def failSafeOutcome (d : Dev) (c : Nat) (x : Ctx) (k : Nat) : Outcome :=
  if (d.cell k).st = 3 then { status := 0x71, detail := 5 }
  else if x.work == .target && x.st == .eligible && !x.committed then { status := 0x71, detail := 3 }
  else if inRoutine x then (if pastNow d c x then { status := 0x71, detail := 2 } else { status := 0x71, detail := 1 })
  else if x.st == .mapWait then { status := 0x71, detail := 1 }
  else if tOpc (d.cell k).tkt = opProgram then { status := 0x71, detail := 2 }
  else { status := 0x71, detail := 6 }

/-- End the tickets of one context at fail-safe entry; those the manifest is to hold are marked (R458). -/
def failSafeCtx (c id : Nat) (d : Dev) : Dev :=
  match d.ctx c id with
  | none => d
  | some x =>
    let live := x.cells.filter fun k => (d.cell k).out.isNone
    let man := d.on F.PFM_STAT_ARMED
    let d := endCtx c id (pastNow d c x) (failSafeOutcome d c x) d
    Dev.each live (fun k d => Dev.onCell k (fun y => { y with manifest := man }) d) d

/-- COPYs between their sides that no context holds. -/
def betweenCells (d : Dev) : List Nat :=
  (d.cells.filter fun p => p.2.started && p.2.out.isNone && p.2.between).map (·.1)

/-- The pads' part of entry, and its registers (R246, R455). -/
def failSafeMark (cause unit idx : Nat) (d : Dev) : Dev :=
  let d := ((d.wr F.FS_STAT_ACTIVE 1).put F.FS_STAT_RESETONLY (resetOnly cause)).wr F.FS_STAT_CAUSE cause
  let d := (((d.wr F.FS_STAT_CLEARED 0).wr F.FS_STAT_DIEIDLE 0).wr F.FS_STAT_MANIFEST 0).wr F.FS_STAT_UNIT unit
  let d := ((d.wr F.FS_STAT_INDEX idx).wr F.FS_LAST_CAUSE cause).wr F.FS_LAST_TIME d.time
  Dev.each (List.range 32) (setPads padsFail) (d.inc F.FS_CNT_ENTRIES)

/-- Loopbacks end at entry (R464, R477), that of the ring too: the instance takes part in the ring again. -/
def loopbacksOff (d : Dev) : Dev :=
  let d := (d.clearField F.TST_LBCTL_DEPTH).clearField F.TST_LBCTL_RUN
  if d.on F.TST_RINGLB_EN then
    let d := ringQuiet (d.wr F.TST_RINGLB_EN 0)
    { d with ring := { d.ring with active := d.live && d.on F.RG_CTL_EN && d.ring.clock } }
  else d

/-- The end of every loopback: the channels' STALE follows (R283). -/
def loopbacksEnd (d : Dev) : Dev := Dev.each (List.range 32) staleShow (loopbacksOff d)

/-- The rest of entry (R456); cause 5 has the pads' part alone. -/
def failSafeBody (d : Dev) : Dev :=
  let d := stopUnits { d with pfm := { d.pfm with t0 := d.time } }
  let d := Dev.each (ctxsOf d) (fun p d => failSafeCtx p.1 p.2 d) d
  let man := d.on F.PFM_STAT_ARMED
  let d := Dev.each (betweenCells d) (fun k d =>
    Dev.onCell k (fun y => { y with manifest := man }) (releaseStaging k (finishStarted k { status := 0x71, detail := 3 } d))) d
  let d := Dev.each (List.range 32) (fun c d => ((d.wr F.SEQ_STAT_STATE 4 c).wr F.CAL_STAT_STALE 1 c)) d
  -- the routine a fence waited for has ended (R258)
  let d := Dev.each d.dies (fun p d => match (d.die p.1).fenceDue with
    | some cause => fenceMark p.1 cause d
    | none => d) d
  let d := loopbacksEnd (sessionAbort d)
  produce 0x71 (safeLink 1 { d with fs := { d.fs with man := man } })

/-- A cause that arrives while the fail-safe state holds (R455): it is counted, its own condition has not cleared, and it
replaces CAUSE, with the machine it names (R461), only where it makes the entry reset-only. -/
def furtherCause (cause unit idx : Nat) (d : Dev) : Dev :=
  let d := d.inc F.FS_CNT_ENTRIES
  if !d.on F.FS_STAT_RESETONLY && resetOnly cause then
    let d := ((d.wr F.FS_STAT_CAUSE cause).wr F.FS_STAT_RESETONLY 1).wr F.FS_STAT_CLEARED 0
    (d.wr F.FS_STAT_UNIT unit).wr F.FS_STAT_INDEX idx
  else if d.rd F.FS_STAT_CAUSE = cause then d.wr F.FS_STAT_CLEARED 0
  else d

/-- A fail-safe cause (R455): entry, a further cause while the state holds, or in Nap or Hibernate a cause that waits for
the wake (R392, R464), but that the watch of AONCLK drives the pads at once (R33). `unit` and `idx` are those of R461, 0 for
none. -/
def enterFailSafe (cause unit idx : Nat) (d : Dev) : Dev :=
  if d.inReset then d
  else if !d.cclkOn then
    let d := if cause = 7 then Dev.each (List.range 32) (setPads padsFail) d else d
    { d with pm := { d.pm with causes := d.pm.causes ++ [cause] } }
  else if d.on F.FS_STAT_ACTIVE then furtherCause cause unit idx d
  else if cause = 5 then failSafeMark cause unit idx d
  else failSafeBody (failSafeMark cause unit idx d)

/-- FS_CLEARED (R455): a recoverable cause's condition has held for its time. The always-on block times it, so AONCLK runs
again (R33), in Nap and Hibernate too. -/
def fsCleared (d : Dev) : Dev :=
  if d.on F.FS_STAT_ACTIVE && !d.on F.FS_STAT_RESETONLY && !(d.rd F.FS_STAT_CAUSE == 11 && bit d.pins.safeIn 0) &&
     !(d.rd F.FS_STAT_CAUSE == 10 && (List.range 40).all fun s => d.rd (F.TS_STATE.ix s) != 0) then
    let d := match d.rd F.FS_STAT_CAUSE with
      | 6 => { d with pins := { d.pins with linkLost := 0 } }
      | 8 => { d with pins := { d.pins with supWarnN := true } }
      | _ => d
    { d.wr F.FS_STAT_CLEARED 1 with pins := { d.pins with aonLost := false } }
  else if d.pm.causes.contains 7 then { d with pins := { d.pins with aonLost := false } }
  else d

/-- FS_DIEIDLE (R457). -/
def fsDieIdle (d : Dev) : Dev := if d.on F.FS_STAT_ACTIVE then d.wr F.FS_STAT_DIEIDLE 1 else d

/-- The conditions of an accepted exit (R459); without AONCLK Rinva is held out of Awake (R33). -/
def exitOk (d : Dev) : Bool :=
  d.on F.FS_STAT_ACTIVE && !d.pins.aonLost && !d.on F.FS_STAT_RESETONLY && d.on F.FS_STAT_CLEARED && d.on F.FS_STAT_DIEIDLE &&
  (!d.on F.PFM_STAT_ARMED || d.on F.FS_STAT_MANIFEST)

/-- FS_EXIT (R459). -/
def fsExit (d : Dev) : Dev :=
  let d := ((d.wr F.FS_STAT_ACTIVE 0).wr F.FS_STAT_CLEARED 0).wr F.FS_STAT_DIEIDLE 0
  let d := (((d.wr F.FS_STAT_MANIFEST 0).wr F.FS_STAT_CAUSE 0).wr F.FS_STAT_UNIT 0).wr F.FS_STAT_INDEX 0
  let d := { d with fs := {}, adm := { d.adm with halted := false }, pfm := { d.pfm with phase := 0, entries := [], cells := [] } }
  let d := accClear (d.setLift { d.lift with toks := [] })
  let d := Dev.each (List.range 32) (fun c d =>
    let d := idlePads c (d.wr F.SEQ_STAT_STATE 0 c)
    let s := d.rd F.CAL_STAT_STATE c
    let h := d.chn c
    staleShow c (if s ≤ 1 then
        (d.setCh c { h with cal := { h.cal with step := 1, trig := 3, forced := false, wasValid := s == 1, more := [] } }).wr F.CAL_STAT_STATE 2 c
      else d)) d
  d.inc F.FS_CNT_EXITS

/-- FS_FLUSH (R460): every queued ticket, die by die in queue order, class 0 first. -/
def fsFlush (d : Dev) : Dev :=
  Dev.each (d.dq.flatMap (·.2)) (fun k d => finishQueued k { status := 0x71, detail := 4 } d) d

/-- FLUSH is taken (R460). -/
def flushOk (d : Dev) : Bool :=
  d.on F.FS_STAT_ACTIVE && d.rd F.FS_STAT_CAUSE != 2 && d.rd F.FS_STAT_CAUSE != 3 && d.rd F.FS_STAT_CAUSE != 5

/-! ### Power fail (R72, R218, R219) -/

/-- A PROGRAM of a cache sequence whose confirm has been given and whose array program is not reported, its last page included (R202, R219). -/
def unreported (d : Dev) (c : Nat) (x : Ctx) (k : Nat) : Bool :=
  tOpc (d.cell k).tkt == opProgram && (x.work == .report || (x.inSeq && pastNow d c x))

/-- What recognition does to a ticket of a context; none for work past commit with PFP = 0, which runs on (R92, R163,
R219, R239). -/
def powerFailOutcome (d : Dev) (c : Nat) (x : Ctx) (k : Nat) : Option Outcome :=
  let y := d.cell k
  if y.st = 3 then some { status := 0x41, detail := 3 }
  else if tOpc y.tkt = opCopy ∧ !y.onTgt then some { status := 0x40, detail := if x.work = .target then 5 else 1 }
  else if unreported d c x k then some { status := 0x41, detail := 4 }
  else if inRoutine x ∧ pastNow d c x then (if tPfp y.tkt = 1 then some { status := 0x41, detail := 1 } else none)
  else some { status := 0x40, detail := 1 }

/-- A CMD cycle in progress is finished (R92): its bus time counts. -/
def finishCmd (c id : Nat) (d : Dev) : Dev :=
  match d.ctx c id with
  | none => d
  | some x => match nanoOf d c x with
    | some (_, _, w) =>
      if x.st = .running ∧ nwCyc w = 1 then
        d.setCtx c id { x with units := x.units + nanoUnits (d.rd F.SEQ_CFG_TDIV c) 0 0 w, began := none }
      else d
    | none => d

/-- End a context's tickets for the power-fail sequence: their outcomes go to the manifest (R73). -/
def powerFailEnd (c id : Nat) (o : Nat → Outcome) (d : Dev) : Dev :=
  match d.ctx c id with
  | none => d
  | some x =>
    let live := x.cells.filter fun k => (d.cell k).out.isNone
    let d := endCtx c id (pastNow d c x) o (finishCmd c id d)
    Dev.each live (fun k d => Dev.onCell k (fun y => { y with manifest := true }) d) d

/-- Recognition stops a context (R92, R219). A routine without a ticket ends as a ticket's does: past commit, the nanoword of
its COMMIT included, it runs on; before it, a CMD cycle in progress is finished first. -/
def powerFailCtx (c id : Nat) (d : Dev) : Dev :=
  match d.ctx c id with
  | none => d
  | some x =>
    match x.cells.head? with
    | none => if inRoutine x && pastNow d c x then d else closeCtx c id false (finishCmd c id d)
    | some k => match powerFailOutcome d c x k with
      | none => d
      | some o => powerFailEnd c id (fun _ => o) d

/-- The outcome of a ticket that the bound overtakes (R163, R218, R219). -/
def expiryOutcome (d : Dev) (k : Nat) : Outcome :=
  if tOpc (d.cell k).tkt = opRead then { status := 0x40, detail := 1 } else { status := 0x41, detail := 2 }

/-- The bound of R218 has run out: what is still awaited ends. -/
def waitBound (d : Dev) : Dev :=
  twReached (Dev.each (ctxsOf d) (fun p d => match d.ctx p.1 p.2 with
    | none => d
    | some x => if x.cells.isEmpty then d else powerFailEnd p.1 p.2 (expiryOutcome d) d) d)

/-- PFM_WAIT_EXPIRY (R218, R219). -/
def pfmWaitExpiry (d : Dev) : Dev := if !d.fs.pfail || d.fs.tw then d else waitBound d

/-- What no ring and no manifest holds when the sequence ends is never reported: no record of it is written any more (R73,
R75). -/
def dropRecords (d : Dev) : Dev :=
  let d := Dev.each d.cq (fun p d => d.setCq p.1 { d.cqs p.1 with pend := [], held := [], first := 0, failed := false }) d
  { d with cells := d.cells.map fun p => (p.1, if p.2.started && p.2.out.isSome then { p.2 with manifest := true } else p.2) }

/-- The fail-safe hold that follows the power-fail sequence (R72, cause 12), and the ledger's swap (R352). -/
def powerFailHold (d : Dev) : Dev :=
  let d := dropRecords (Dev.each (ctxsOf d) (fun p d => closeCtx p.1 p.2 true d) d)
  let d := failSafeMark 12 0 0 (dueSwap .powerFail d)
  let d := Dev.each (List.range 32) (fun c d => (d.wr F.SEQ_STAT_STATE 4 c).wr F.CAL_STAT_STALE 1 c) d
  produce 0x71 (safeLink 1 (loopbacksEnd (sessionAbort { d with fs := { d.fs with pfail := false } })))

/-- LG_TIME at t0: the fall of PFAIL_N, or the recognition where SAFE_IN stands for it (R72, R74, R330). -/
def failTime (d : Dev) : Nat := if d.pins.pfailN then d.time else d.pfm.fell

/-- POWER_FAIL_RECOGNISED (R72, R92, R310, R356, R388, R402, R458). With PFM_WAIT.MAX = 0 nothing is awaited (R221). -/
def powerFail (dmaStop : Dev → Dev) (d : Dev) : Dev :=
  if d.inReset || d.pfSeen || d.pm.causes.contains 12 then d
  else if !d.cclkOn then
    { safeLink 0 (d.wr F.PM_STAT_PFSEEN 1) with pm := { d.pm with causes := d.pm.causes ++ [12] } }
  else if d.rd F.BOOT_STAT_PHASE < 7 then failSafeBody (failSafeMark 12 0 0 (safeLink 0 d))
  else if d.on F.FS_STAT_ACTIVE then
    enterFailSafe 12 0 0 (safeLink 0 (dropWaiting (dmaStop { d with fs := { d.fs with seen := true } })))
  else
    let d := dmaStop (sessionAbort <| stopUnits { d with pfm := { d.pfm with t0 := failTime d, phase := 0, failed := false } })
    let d := Dev.each (ctxsOf d) (fun p d => powerFailCtx p.1 p.2 d) d
    let d := Dev.each (betweenCells d) (fun k d =>
      Dev.onCell k (fun y => { y with manifest := true }) (releaseStaging k (finishStarted k { status := 0x40, detail := 5 } d))) d
    let d := { d with fs := { d.fs with pfail := true, tw := false, armed := d.on F.PFM_STAT_ARMED } }
    safeLink 0 (if d.rd F.PFM_WAIT_MAX = 0 then waitBound d else twTest d)

/-! ### The manifest (R73, R74, R458) -/

/-- Cells whose tickets need an entry. -/
def manifestCells (d : Dev) : List Nat :=
  (d.cells.filter fun p => p.2.started && p.2.out.isSome && (d.fs.pfail || p.2.manifest)).map (·.1)

/-- A finished ticket's record is still to be written to its ring (R72, R73). -/
def recordOwed (d : Dev) (x : Cell) : Bool :=
  x.started && x.out.isSome && !x.manifest && d.on (F.CQ_CFG_EN.ix (tCq x.tkt)) && !ringHeld (d.cqs (tCq x.tkt))

/-- A manifest is to be written: the power-fail sequence has reached tw and no record is owed or on its way, or a fail-safe
entry found the manifest armed. -/
def manifestDue (d : Dev) : Bool :=
  d.pfm.phase == 0 &&
  ((d.fs.pfail && d.fs.tw && d.cq.all (fun p => p.2.busy.isNone) && !d.cells.any fun p => recordOwed d p.2) || (d.on F.FS_STAT_ACTIVE && d.fs.man && !d.on F.FS_STAT_MANIFEST))

/-- The half the next manifest goes to (R74, R494). -/
def manifestBase (d : Dev) : Nat := pfmBase d + (1 - d.rd F.PFM_STAT_LASTHALF) * 69632

/-- The entry of a cell; its ticket is charged at the issue (R73, R344). -/
def entryOf (d : Dev) (k lat : Nat) : List Byte :=
  let x := d.cell k
  recordBytes x.tkt x.sq x.slot (x.out.getD {status := 0}) x.retry x.susp lat false

/-- The manifest may be written: it is armed, for a power fail since before the recognition, and PFMEN is 1 (R75, R494). -/
def manifestArmed (d : Dev) : Bool := d.on F.PFM_STAT_ARMED && d.on F.ADM_CTL_PFMEN && (!d.fs.pfail || d.fs.armed)

/-- MANIFEST_WRITE: the next entry, `lat` being the LAT of its ticket; its charges are applied unless a failed record's were
(R344). Without a manifest the tickets that the power fail ends are charged all the same (R352). -/
def manifestWrite (lat : Nat) (d : Dev) : Dev :=
  let d := if manifestDue d then
      if manifestArmed d then
        { d with pfm := { d.pfm with phase := 1, entries := [], cells := manifestCells d, next := 0, tries := 0, failed := false, empty := false } }
      else if d.fs.pfail then powerFailHold (Dev.each (manifestCells d) chargeCell { d with pfm := { d.pfm with phase := 4 } }) else d
    else d
  if d.pfm.phase != 1 then d
  else match d.pfm.cells[d.pfm.next]? with
    | none => d
    | some k =>
      let b := entryOf d k lat
      let poison := match (d.cell k).out with
        | some o => o.status == 0x7F && o.detail == 0x40
        | none => false
      let i := d.pfm.next
      let d := chargeCell k d
      request 0 true { what := .pfmEntry i, addr := manifestBase d + 4096 + 32 * i, len := 32, data := b, poison := poison }
        { d with pfm := { d.pfm with next := i + 1, tries := d.pfm.tries + 1, entries := d.pfm.entries ++ [(b, poison)] } }

/-- The answer to an entry write (R298). -/
def manifestEntryAnswer (r : Req) (code : Nat) (d : Dev) : Dev :=
  if code != 0 ∧ r.tries < 4 then request 0 true { r with tries := r.tries + 1 } d
  else { d with pfm := { d.pfm with tries := d.pfm.tries - 1, failed := d.pfm.failed || code != 0 } }

/-- The 64 bytes of the header (R74); `span` in units of 0.1 µs. -/
def manifestHead (d : Dev) (span : Nat) : List Byte :=
  let b := leBytes 4 0x50464D31 ++ leBytes 4 ((d.pfm.seq + 1) % 2 ^ 32) ++ leBytes 2 d.instId ++
    leBytes 2 d.pfm.entries.length ++ leBytes 4 (b2n !d.pfm.failed) ++ leBytes 8 d.pfm.t0 ++ leBytes 4 span ++ leBytes 32 0
  b ++ leBytes 4 (crc32c (b ++ d.pfm.entries.flatMap (·.1)))

/-- Issue the header write. -/
def manifestHeader (span : Nat) (d : Dev) : Dev :=
  request 0 true { what := .pfmHeader, addr := manifestBase d, len := 64, atomic := true, data := manifestHead d span }
    { d with pfm := { d.pfm with phase := 3 } }

/-- MANIFEST_HEADER_WRITE (R74): once every entry has been answered. -/
def manifestHeaderWrite (span : Nat) (d : Dev) : Dev :=
  if d.pfm.phase = 1 && d.pfm.next == d.pfm.cells.length && d.pfm.tries == 0 then manifestHeader span d else d

/-- An empty manifest at entry to Nap or Hibernate (R388). -/
def manifestEmpty (d : Dev) : Dev :=
  manifestHeader 0 { d with pfm := { d.pfm with entries := [], cells := [], next := 0, tries := 0, failed := false, empty := true, t0 := d.time } }

/-- A good header advances the half and SEQ; the cells in it are free (R54, R494). -/
def manifestDone (d : Dev) : Dev :=
  let half := 1 - d.rd F.PFM_STAT_LASTHALF
  let seq := (d.pfm.seq + 1) % 2 ^ 32
  let d := (d.wr F.PFM_STAT_LASTHALF half).wr F.PFM_STAT_LASTSEQ seq
  let d := { d with pfm := { d.pfm with seq := seq, phase := 4 } }
  let d := Dev.each d.pfm.cells (fun k d => freeCell k (if (d.cell k).started then releaseSlot (tCq (d.cell k).tkt) d else d)) d
  { d with pfm := { d.pfm with cells := [], phase := if d.pfm.empty then 0 else 4 } }

/-- The answer to the header write (R298, R458, R72). -/
def manifestHeaderAnswer (r : Req) (code : Nat) (d : Dev) : Dev :=
  if code != 0 ∧ r.tries < 4 then request 0 true { r with tries := r.tries + 1 } d
  else
    let d := if code = 0 then manifestDone d else { d with pfm := { d.pfm with phase := if d.pfm.empty then 0 else 4 } }
    if d.fs.pfail then powerFailHold d
    else if code = 0 ∧ d.on F.FS_STAT_ACTIVE ∧ d.fs.man then d.wr F.FS_STAT_MANIFEST 1
    else d

end Sys2Proof.Machine
end

