-- ==== Sys2Proof/Machine/Lichen.lean ====
section
/-!
DEFINITION. The Lichen Map and drift tracking (R166–R192): records, the cache, line writes, the tracker, seeds, sweeps.
-/

namespace Sys2Proof.Machine

/-! ### Records (R166–R171) -/

/-- LM_DIE.MODE: a QLC die. -/
def isQlc (d : Dev) (dix : Nat) : Bool := d.on F.LM_DIE_MODE dix

/-- The number of zone boundaries not above a wordline (R170). -/
def zoneOf (d : Dev) (q : Bool) (page : Nat) : Nat :=
  if q then b2n (d.rd F.LM_ZONEQ_ZB ≤ page / 4)
  else
    let wl := page / 3
    b2n (d.rd F.LM_ZONET0_ZB1 ≤ wl) + b2n (d.rd F.LM_ZONET0_ZB2 ≤ wl) + b2n (d.rd F.LM_ZONET1_ZB3 ≤ wl)

/-- The level mask of a page's type (R170, R171). -/
def levelMask (d : Dev) (q : Bool) (page : Nat) : Nat :=
  if q then
    match page % 4 with
    | 0 => d.rd F.LM_LVLQ0_T0
    | 1 => d.rd F.LM_LVLQ0_T1
    | 2 => d.rd F.LM_LVLQ1_T2
    | _ => d.rd F.LM_LVLQ1_T3
  else
    match page % 3 with
    | 0 => d.rd F.LM_LVLT_T0
    | 1 => d.rd F.LM_LVLT_T1
    | _ => d.rd F.LM_LVLT_T2

/-- The levels of the page's slots 1, 2, …: at most the lowest 8 of the mask (R171). -/
def slotLevels (mask : Nat) : List Nat := ((bitsOf 15 mask).take 8).map (· + 1)

/-- The 16-byte line of a record (R166, R167, R177). -/
def recLine (q : Bool) (dix blk zone : Nat) : Nat :=
  dix * 2 ^ 14 + blk * 2 + (if q then zone % 2 else zone / 2 % 2)

/-- Where a level's offset and the AGE/CONF byte stand in the line (R168). -/
def levelPos (q : Bool) (zone lvl : Nat) : Nat := if q then (if lvl ≤ 7 then lvl - 1 else lvl) else 8 * (zone % 2) + lvl - 1
def agePos (q : Bool) (zone : Nat) : Nat := if q then 7 else 8 * (zone % 2) + 7

def levelsOf (q : Bool) : List Nat := (List.range (if q then 15 else 7)).map (· + 1)

def byteAt (b : List Byte) (i : Nat) : Nat := (b.getD i 0).toNat

def recOffset (q : Bool) (zone : Nat) (line : List Byte) (lvl : Nat) : Int := signed 8 (byteAt line (levelPos q zone lvl))

def putByte (b : List Byte) (i v : Nat) : List Byte := setAt b i (BitVec.ofNat 8 v)

def putOffset (q : Bool) (zone lvl : Nat) (v : Int) (line : List Byte) : List Byte := putByte line (levelPos q zone lvl) (wrapInt 8 v)

def lmAddr (d : Dev) (line : Nat) : Nat := d.rd64 F.LM_BASE_LO_ADDR F.LM_BASE_HI_ADDR + 16 * line

/-- The port of a line: the cluster of its die (R298). -/
def linePort (line : Nat) : Nat := dixCl (line / 2 ^ 14)

/-! ### The cache (R177–R180) -/

def cacheSet (line : Nat) : Nat := (line % 4096) ^^^ (line / 2 ^ 14 * 4 % 4096)

def cacheGet (d : Dev) (line : Nat) : Option (List Byte) :=
  (((look d.lm.cache (cacheSet line)).getD []).find? fun p => p.1 = line).map (·.2)

def cacheDrop (line : Nat) (d : Dev) : Dev :=
  let s := cacheSet line
  let ways := ((look d.lm.cache s).getD []).filter fun p => p.1 != line
  { d with lm := { d.lm with cache := putD d.lm.cache s ways [] } }

/-- The unit of a line in a sweep: its die and even block. -/
def unitOfLine (line : Nat) : Nat × Nat := (line / 2 ^ 14, line % 2 ^ 14 / 4 * 2)

/-- A line locked by a write in flight (R178). -/
def lineLocked (d : Dev) (line : Nat) : Bool :=
  d.lm.writes.any (fun w => w.line == line) || (d.lm.unitBusy && d.lm.sweep == some (unitOfLine line))

/-- Place a line as the most recently used way; the least recently used of 8 leaves, but a locked line's eviction waits for
the unlock (R189). -/
def cachePut (line : Nat) (b : List Byte) (d : Dev) : Dev :=
  let s := cacheSet line
  let ways := (line, b) :: ((look d.lm.cache s).getD []).filter fun p => p.1 != line
  { d with lm := { d.lm with cache := ins d.lm.cache s (ways.take 8 ++ (ways.drop 8).filter fun p => lineLocked d p.1) } }

/-- Lines that have been unlocked may leave a set that holds more than its 8 ways (R177, R189). -/
def cacheTrim (line : Nat) (d : Dev) : Dev :=
  let s := cacheSet line
  let ways := (look d.lm.cache s).getD []
  if ways.length ≤ 8 then d
  else { d with lm := { d.lm with cache := ins d.lm.cache s (ways.take 8 ++ (ways.drop 8).filter fun p => lineLocked d p.1) } }

/-- LM_STAT.IDLE follows the fetches and writes in flight. -/
def lmIdle (d : Dev) : Dev := d.put F.LM_STAT_IDLE (d.lm.fetching.isEmpty && d.lm.writes.isEmpty && !d.lm.unitBusy)

/-- Fetch a line unless a fetch is outstanding. -/
def lmFetch (line : Nat) (d : Dev) : Dev :=
  if d.lm.fetching.contains line then d
  else
    lmIdle (request (linePort line) false { what := .mapRead line, addr := lmAddr d line, len := 16 }
      { d with lm := { d.lm with fetching := d.lm.fetching ++ [line] } })

/-- A line read uncorrectable from the cache is invalidated and counted (R180). -/
def lmUe (line : Nat) (d : Dev) : Dev := cacheDrop line (d.inc F.LM_ERR_UE)

/-- Prefetch at linking (R175). -/
def lmPrefetch (dix blk page : Nat) (d : Dev) : Dev :=
  let q := isQlc d dix
  let line := recLine q dix blk (zoneOf d q page)
  if d.on F.LM_CTL_EN && d.on F.LM_CTL_PREF && regionReady d 4 && (cacheGet d line).isNone && !lineLocked d line then lmFetch line d else d

/-- The read-offset bytes a page takes from its record's line (R173). -/
def offsetBytes (d : Dev) (dix page : Nat) (line : List Byte) : List Byte :=
  let q := isQlc d dix
  let z := zoneOf d q page
  fitTo 8 0 ((slotLevels (levelMask d q page)).map fun l => BitVec.ofNat 8 (byteAt line (levelPos q z l)))

/-- The line a page's record lies in. -/
def pageLine (d : Dev) (dix blk page : Nat) : Nat :=
  let q := isQlc d dix
  recLine q dix blk (zoneOf d q page)

/-- A lookup (R173, R175): the offset bytes, or none while the line is locked or must be fetched. `again` suppresses the
count of a lookup already counted; `m` is the reading of a cached line, which is fetched again when it is uncorrectable
(R180). -/
def lmLookup (again : Bool) (m : Mem) (dix blk page : Nat) (d : Dev) : Option (List Byte) × Dev :=
  let line := pageLine d dix blk page
  if lineLocked d line then (none, d)
  else match cacheGet d line with
    | some b =>
    let m := memFinds d 4 m
    let d := readMem 4 m (if again then d else d.incW F.LM_CHIT_CNT)
    if m.isUe then (none, lmFetch line (lmUe line d)) else (some (offsetBytes d dix page b), cachePut line b d)
    | none => (none, lmFetch line (if again then d else d.incW F.LM_CMISS_CNT))

/-! ### Line writes (R178, R179, R184) -/

def lmWrite (w : LmWrite) (d : Dev) : Dev :=
  lmIdle (request (linePort w.line) true { what := .mapWrite w.line, addr := lmAddr d w.line, len := 16, atomic := true, data := w.bytes }
    { d with lm := { d.lm with writes := d.lm.writes ++ [w] } })

/-- A change is lost (R179). -/
def lmLost (d : Dev) : Dev := raise 0x65 ((d.inc F.LM_ERR_WRITE).wr F.LM_STAT_WFAIL 1)

/-- Each changed level and the write itself are counted once the line is in memory (R184). -/
def lmCounted (w : LmWrite) (d : Dev) : Dev :=
  let d := Dev.each w.moves (fun m d => if m.2.2 then d.inc F.LM_SUM_MOVUP w.dix else d.inc F.LM_SUM_MOVDN w.dix) d
  if w.moves.isEmpty then d else if w.pull then d.inc F.LM_TCNT_PULLS else d.inc F.LM_TCNT_MOVES

/-! ### The drift tracker (R181–R185) -/

def sat16 (v : Int) : Int := clampInt (-32768) 32767 v

/-- The slot of a record, a new one when it has none: a free one, else the least recently updated whose move flag is clear,
else the least recently updated (R183). The answer is the slot and the remaining slots. -/
def takeSlot (dix blk zone : Nat) (xs : List LmSlot) : LmSlot × List LmSlot × Bool :=
  match pull (fun (s : LmSlot) => s.dix == dix && s.blk == blk && s.zone == zone) xs with
  | some (s, r) => (s, r, false)
  | none =>
    let new : LmSlot := { dix := dix, blk := blk, zone := zone }
    if xs.length < 64 then (new, xs, false)
    else
      let oldest := fun (ys : List LmSlot) => ys.foldl (fun m s => min m s.stamp) (ys.headD new).stamp
      let still := xs.filter fun s => !s.moved
      let v := if still.isEmpty then oldest xs else oldest still
      match pull (fun (s : LmSlot) => s.stamp == v && (still.isEmpty || !s.moved)) xs with
      | some (_, r) => (new, r, true)
      | none => (new, xs.drop 1, true)

/-- The outcome of one result on one record: its new offsets, the slot, the levels pulled, and the stale slots (R183). -/
structure TrackStep where
  slot : LmSlot
  new : List (Nat × Int × Bool) := []
  pulled : Bool := false
  stale : Nat := 0
deriving DecidableEq, Repr

/-- Slot `j` of the page, at level `l` (R182, R183). -/
def trackLevel (d : Dev) (q : Bool) (zone : Nat) (line : List Byte) (r : Track) (j l : Nat) (a : TrackStep) : TrackStep :=
  let e := recOffset q zone line l
  let ap := signed 8 (byteAt r.offs (j - 1))
  let thr : Int := (d.rd F.LM_TRK_THR : Nat)
  let mstep : Int := (d.rd F.LM_TRK_MSTEP : Nat)
  let pl : Int := (d.rd F.LM_TRK_PULL : Nat)
  let clampO := fun (v : Int) => min (max v (signed 8 (d.rd F.LM_TRK2_OMIN))) (signed 8 (d.rd F.LM_TRK2_OMAX))
  let setBias := fun (v : Int) => { a.slot with bias := putD a.slot.bias l v 0 }
  let up : Int := ((if j % 2 = 1 then r.n1 else r.n0 : Nat) : Int)
  let dn : Int := ((if j % 2 = 1 then r.n0 else r.n1 : Nat) : Int)
  if ap = e then
    if !r.first then a
    else
      let b := sat16 ((look a.slot.bias l).getD 0 + up - dn)
      if thr ≤ b then { a with slot := setBias 0, new := a.new ++ [(l, clampO (e + mstep), false)] }
      else if b ≤ -thr then { a with slot := setBias 0, new := a.new ++ [(l, clampO (e - mstep), false)] }
      else { a with slot := setBias b }
  else if !r.first then
    if 0 < pl then
      { a with slot := setBias 0, new := a.new ++ [(l, clampO (e + clampInt (-pl) pl (ap - e)), true)], pulled := true }
    else a
  else { a with stale := a.stale + 1 }

def trackLevels (d : Dev) (q : Bool) (zone : Nat) (line : List Byte) (r : Track) : List (Nat × Nat) → TrackStep → TrackStep
  | [], a => a
  | (l, j) :: ls, a => trackLevels d q zone line r ls (trackLevel d q zone line r (j + 1) l a)

/-- The line with some levels and the AGE/CONF byte changed. -/
def newLine (q : Bool) (zone : Nat) (line : List Byte) (moves : List (Nat × Int × Bool)) (age conf : Nat) : List Byte :=
  putByte (moves.foldl (fun b m => putOffset q zone m.1 m.2.1 b) line) (agePos q zone) (age + 16 * conf)

def confOf (q : Bool) (zone : Nat) (line : List Byte) : Nat := byteAt line (agePos q zone) / 16
def ageOf (q : Bool) (zone : Nat) (line : List Byte) : Nat := byteAt line (agePos q zone) % 16

/-- Telemetry of a record write (R192). -/
def moveTelemetry (dix zone : Nat) (moves : List (Nat × Int × Bool)) (d : Dev) : Dev :=
  Dev.each moves (fun m d => telemetry 3 dix (m.1 * 2 ^ 14 + b2n m.2.2 * 2 ^ 13 + zone * 2 ^ 11 + wrapInt 8 m.2.1 * 8) d) d

/-- One result against its record (R183–R185). The 9-bit decode count stays at its top (assumption 100). -/
def trackResult (cl : Nat) (r : Track) (line : Nat) (b : List Byte) (d : Dev) : Dev :=
  let q := isQlc d r.dix
  let zone := zoneOf d q r.page
  let t := takeSlot r.dix r.blk zone ((look d.lm.slots cl).getD [])
  let d := if t.2.2 then d.inc F.LM_TCNT2_EVICT else d
  let a := trackLevels d q zone b r (slotLevels (levelMask d q r.page)).zipIdx { slot := t.1 }
  let d := d.inc F.LM_TCNT2_STALE 0 a.stale
  let d := { d with lm := { d.lm with stamp := d.lm.stamp + 1 } }
  let s := { a.slot with count := min 511 (a.slot.count + 1), stamp := d.lm.stamp }
  let keep := fun (s : LmSlot) (d : Dev) => { d with lm := { d.lm with slots := ins d.lm.slots cl (t.2.1 ++ [s]) } }
  let moves := a.new.filter fun m => m.2.1 != recOffset q zone b m.1
  if !moves.isEmpty then
    let conf := if a.pulled then 0 else confOf q zone b
    let d := keep { s with count := 0, moved := true } d
    let d := if r.tlm then moveTelemetry r.dix zone moves d else d
    lmWrite { line := line, bytes := newLine q zone b moves 0 conf, pull := a.pulled, dix := r.dix, zone := zone
              moves := moves.map fun m => (m.1, m.2.1, decide (recOffset q zone b m.1 < m.2.1)) } d
  else
    let win := d.rd F.LM_TRK2_WIN
    if win != 0 && win ≤ s.count then
      let d := (keep { s with count := 0, moved := false } d).inc F.LM_TCNT3_QUIET
      lmWrite { line := line, bytes := newLine q zone b [] 0 (min 15 (confOf q zone b + 1)), dix := r.dix, zone := zone } d
    else keep s d

def popTrack (cl : Nat) (d : Dev) : Dev := d.setClu cl { d.clu cl with trk := (d.clu cl).trk.drop 1 }

/-- TRACKER_RESULT (R181, R183): the next result of a cluster; it waits for a locked line or a line being fetched. `m` is
the outcome of the cache read (R180). -/
def trackerResult (cl : Nat) (m : Mem) (stopped : Bool) (d : Dev) : Dev :=
  match (d.clu cl).trk with
  | [] => d
  | r :: _ =>
    if stopped || !regionReady d 4 then d
    else if !d.on F.LM_CTL_TRKEN || !d.on F.LM_CTL_EN || !d.on F.LM_DIE_TRK r.dix then popTrack cl d
    else
      let line := pageLine d r.dix r.blk r.page
      if lineLocked d line then d
      else match cacheGet d line with
        | none => lmFetch line d
        | some b =>
          let m := memFinds d 4 m
          let d := readMem 4 m d
          if m.isUe then lmFetch line (lmUe line d)
          else trackResult cl r line b (popTrack cl (cachePut line b d))

/-- A line could not be fetched: results waiting for it are given up. -/
def trackerGiveUp (line : Nat) (d : Dev) : Dev :=
  Dev.each (List.range 4) (fun cl d => match (d.clu cl).trk with
    | r :: _ => if pageLine d r.dix r.blk r.page = line then popTrack cl d else d
    | [] => d) d

/-- A seed or sweep that changes a record frees its tracking slot (R189). -/
def freeSlot (dix blk zone : Nat) (d : Dev) : Dev :=
  { d with lm := { d.lm with slots := d.lm.slots.map fun (p : Nat × List LmSlot) =>
    (p.1, p.2.filter fun s => !(s.dix == dix && s.blk == blk && s.zone == zone)) } }

/-! ### Seeds (R186) -/

/-- The seed's line on what the line holds. -/
def seedLine (d : Dev) (q : Bool) (zone : Nat) (line : List Byte) : List Byte :=
  let offs := (levelsOf q).map fun l => (l, signed 8 (d.lm.seedOffs.getD (l - 1) 0), false)
  newLine q zone line offs 0 d.lm.seedConf

/-- Write the seed's records whose lines are at hand; a TLC line not in the cache is fetched first. `ms` are the readings of
the lines taken from the cache, each of which is fetched again when it is uncorrectable (R180). -/
def seedRun : Nat → List Mem → Dev → Dev
  | 0, _, d => d
  | fuel + 1, ms, d =>
    match d.lm.seeds with
    | [] => d
    | (dix, blk, zone) :: r =>
      let q := isQlc d dix
      let line := recLine q dix blk zone
      if lineLocked d line || !regionReady d 4 then d
      else match (if q then some (List.replicate 16 0) else cacheGet d line) with
        | none => lmFetch line d
        | some b =>
          let m := if q then .clean else memFinds d 4 (ms.headD .clean)
          let d := readMem 4 m d
          if m.isUe then lmFetch line (lmUe line d)
          else
          let d := freeSlot dix blk zone { d with lm := { d.lm with seeds := r } }
          seedRun fuel (if q then ms else ms.drop 1) (lmWrite { line := line, bytes := seedLine d q zone b, dix := dix, zone := zone, seed := true } d)

/-- MP_FILL_END (R372): a seed that waited for the cache's region goes on. -/
def fillEnded (d : Dev) : Dev :=
  if d.on F.MP_STAT_FILLBUSY && d.mp.filling == 4 then seedRun 5 [] (fillEnd d) else fillEnd d

/-- LM_SEED_GO (R186). -/
def seedGo (m : List Mem) (d : Dev) : Dev :=
  if d.on F.LM_STAT_SEEDBUSY then d.inc F.LM_SCMD_DROP
  else
    let d := { d with lm := { d.lm with seedConf := d.rd F.LM_SCMD_CONF
                                        seedOffs := (List.range 15).map fun l => d.rd (F.LM_SOFF_O.ix l) } }
    let dix := d.rd F.LM_SADDR_DIX
    let q := isQlc d dix
    let z := d.rd F.LM_SADDR_ZONE
    let zones := if d.on F.LM_SCMD_BLOCK then List.range (if q then 2 else 4) else [if q then z % 2 else z]
    seedRun 5 m ({ d with lm := { d.lm with seeds := zones.map fun k => (dix, d.rd F.LM_SADDR_BLOCK, k) } }.wr F.LM_STAT_SEEDBUSY 1)

/-- LM_SEED_END (R186). -/
def seedEnd (d : Dev) : Dev :=
  if d.on F.LM_STAT_SEEDBUSY && d.lm.seeds.isEmpty && !d.lm.writes.any (·.seed) then raise 0x7E (d.wr F.LM_STAT_SEEDBUSY 0) else d

/-! ### Sweeps (R187) -/

/-- The unit after one, within the range; none at the end. -/
def nextUnit (d : Dev) (u : Nat × Nat) : Option (Nat × Nat) :=
  if u.2 + 2 ≤ d.rd F.LM_SWP_BLK_LAST then some (u.1, u.2 + 2)
  else if u.1 + 1 ≤ d.rd F.LM_SWP_DIX_LAST then some (u.1 + 1, d.rd F.LM_SWP_BLK_FIRST / 2 * 2)
  else none

/-- LM_SWEEP_GO (R187). -/
def sweepGo (d : Dev) : Dev :=
  if d.on F.LM_STAT_SWPBUSY then d
  else
    let a := d.rd F.LM_SWP_DIX_FIRST
    let b := d.rd F.LM_SWP_BLK_FIRST
    let empty := d.rd F.LM_SWP_DIX_LAST < a || d.rd F.LM_SWP_BLK_LAST < b
    { d with lm := { d.lm with sweep := if empty then none else some (a, b / 2 * 2), stop := false } }.wr F.LM_STAT_SWPBUSY 1

def unitLine (u : Nat × Nat) : Nat := u.1 * 2 ^ 14 + u.2 * 2

/-- LM_SWEEP_UNIT (R187): read the next unit, unless one of its lines is locked. -/
def sweepUnit (d : Dev) : Dev :=
  match d.lm.sweep with
  | none => d
  | some u =>
    if d.lm.unitBusy || d.lm.stop || !regionReady d 4 || (List.range 4).any fun k => d.lm.writes.any fun w => w.line == unitLine u + k then d
    else
      let d := (d.wr F.LM_SWP_POS_DIX u.1).wr F.LM_SWP_POS_BLOCK u.2
      lmIdle (request (dixCl u.1) false { what := .sweepUnitRead (unitLine u), addr := lmAddr d (unitLine u), len := 64 }
        { d with lm := { d.lm with unitBusy := true } })

/-- A record of the unit under the sweep's mode (R187). -/
def sweepRecord (d : Dev) (q : Bool) (zone : Nat) (line : List Byte) : List Byte :=
  let delta := fun (l : Nat) => signed 8 (d.rd (F.LM_SDV_V.ix (l - 1)))
  let age := ageOf q zone line
  let conf := confOf q zone line
  if d.on F.LM_SWP_CTL_MODE then
    newLine q zone line ((levelsOf q).map fun l => (l, delta l, false)) 0 (d.rd F.LM_SWP_CTL_CONFMAX)
  else
    let moves := if conf ≤ d.rd F.LM_SWP_CTL_CONFMAX then
        (levelsOf q).map fun l => (l, clampInt (-128) 127 (recOffset q zone line l + delta l), false) else []
    newLine q zone line moves (min 15 (age + 1)) conf

/-- The zones a line holds. -/
def lineZones (q : Bool) (k : Nat) : List Nat := if q then [k % 2] else [2 * (k % 2), 2 * (k % 2) + 1]

/-- One line of the unit: line `k` belongs to block `u.2 + k / 2`. -/
def sweepLine (d : Dev) (u : Nat × Nat) (k : Nat) (line : List Byte) : List Byte :=
  let blk := u.2 + k / 2
  let q := isQlc d u.1
  if d.rd F.LM_SWP_BLK_FIRST ≤ blk ∧ blk ≤ d.rd F.LM_SWP_BLK_LAST then
    (lineZones q k).foldl (fun b z => sweepRecord d q z b) line
  else line

/-- The sweep moves on to its next unit; a seed that waited for one of its lines goes on (R178, R189). -/
def sweepAdvance (u : Nat × Nat) (m : List Mem) (d : Dev) : Dev :=
  let d := { d with lm := { d.lm with unitBusy := false, unitWrite := [], unitLines := []
                                      sweep := if d.lm.stop then none else nextUnit d u } }
  lmIdle (seedRun 5 m (Dev.each (List.range 4) (fun k d => cacheTrim (u.1 * 2 ^ 14 + u.2 * 2 + k) d) d))

/-- The bytes of a record in its line. -/
def recBytes (q : Bool) (zone : Nat) (line : List Byte) : List Byte := if q then line else (line.drop (8 * (zone % 2))).take 8

/-- The unit's bytes arrive: changed units are written back whole, and each changed record's slot is freed (R187, R189). -/
def sweepRead (code : Nat) (b : List Byte) (m : List Mem) (d : Dev) : Dev :=
  match d.lm.sweep with
  | none => d
  | some u =>
    if code != 0 then sweepAdvance u m (d.inc F.LM_ERR_FETCH)
    else
      let old := fitTo 64 0 b
      let new := (List.range 4).flatMap fun k => sweepLine d u k ((old.drop (16 * k)).take 16)
      if new = old then sweepAdvance u m d
      else
        let q := isQlc d u.1
        let part := fun (b : List Byte) (k : Nat) => (b.drop (16 * k)).take 16
        let d := Dev.each (List.range 4) (fun k d => Dev.each (lineZones q k) (fun z d =>
          if recBytes q z (part new k) = recBytes q z (part old k) then d else freeSlot u.1 (u.2 + k / 2) z d) d) d
        request (dixCl u.1) true { what := .sweepUnitWrite (unitLine u), addr := lmAddr d (unitLine u), len := 64, atomic := true, data := new }
          { d with lm := { d.lm with unitWrite := new, unitLines := (List.range 4).filter fun k => part new k != part old k } }

/-- The response to a unit's write: each line the sweep changed is placed in the cache; a change that fails is lost (R178,
R179). -/
def sweepWritten (code : Nat) (r : Req) (m : List Mem) (d : Dev) : Dev :=
  match d.lm.sweep with
  | none => d
  | some u =>
    let lines := List.range 4
    if code = 0 then
      let new := d.lm.unitWrite
      let d := Dev.each d.lm.unitLines (fun k d => cachePut (unitLine u + k) ((new.drop (16 * k)).take 16) d) d
      sweepAdvance u m d
    else if r.tries < 4 then request (dixCl u.1) true { r with tries := r.tries + 1 } d
    else sweepAdvance u m (lmLost (Dev.each lines (fun k d => cacheDrop (unitLine u + k) d) d))

/-- LM_SWEEP_STOP (R187). -/
def sweepStop (d : Dev) : Dev :=
  if d.on F.LM_STAT_SWPBUSY then
    { d with lm := { d.lm with stop := true, sweep := if d.lm.unitBusy then d.lm.sweep else none } }.wr F.LM_SWP_CTL_STOP 1
  else d

/-- LM_SWEEP_END (R187). -/
def lmSweepEnd (d : Dev) : Dev :=
  if d.on F.LM_STAT_SWPBUSY && d.lm.sweep.isNone then
    let d := ({ d with lm := { d.lm with stop := false } }.wr F.LM_STAT_SWPBUSY 0).wr F.LM_STAT_SWPDONE 1
    produce 0x78 (raise 0x7E (((d.wr F.LM_SWP_CTL_STOP 0).wr F.LM_SWP_CTL_GO 0)))
  else d

/-! ### Returns -/

/-- A fetched line enters the cache, or is counted as failed (R176), or is fetched again where its write into the cache met an
uncorrectable word (R364, R365). The answer says whether it arrived. `m` are the readings of a seed that waited for it. -/
def lmFetched (line : Nat) (m : List Mem) (d : Dev) : Option (Option Bool × Dev) :=
  match takeAnswer (· = .mapRead line) d with
  | none => none
  | some (a, d) =>
    let d := { d with lm := { d.lm with fetching := d.lm.fetching.filter (· != line) } }
    if a.code = 0 ∧ a.ue then some (none, lmFetch line (lmUe line d))
    else if a.code = 0 then some (some true, lmIdle (seedRun 5 m (cachePut line (fitTo 16 0 a.bytes) d)))
    else
      let d := trackerGiveUp line (d.inc F.LM_ERR_FETCH)
      let d := match d.lm.seeds with
        | (dix, blk, z) :: r => if recLine (isQlc d dix) dix blk z = line then seedRun 5 m (lmLost { d with lm := { d.lm with seeds := r } }) else d
        | [] => d
      some (some false, lmIdle d)

/-- LM_LINE_WRITE_RESPONSE (R178, R179). -/
def lmWritten (line : Nat) (m : List Mem) (d : Dev) : Dev :=
  match takeAnswer (· = .mapWrite line) d with
  | none => d
  | some (a, d) =>
    if a.code != 0 ∧ a.req.tries < 4 then again (linePort line) true a d
    else match pull (fun (w : LmWrite) => w.line == line) d.lm.writes with
      | none => d
      | some (w, r) =>
        let d := { d with lm := { d.lm with writes := r } }
        let d := if a.code = 0 then lmCounted w (cachePut line w.bytes d) else lmLost (cacheTrim line (cacheDrop line d))
        lmIdle (seedRun 5 m d)

/-- LM_CACHE_INVALIDATE (R189). -/
def lmInvalidate (d : Dev) : Dev :=
  if !d.on F.LM_CTL_EN && d.on F.LM_STAT_IDLE then { d with lm := { d.lm with cache := [] } } else d

/-- Resets and Hibernate clear the map unit (R191). -/
def lmClear (d : Dev) : Dev :=
  Dev.each (List.range 4) (fun cl d => d.setClu cl { d.clu cl with trk := [] }) { d with lm := {} }

end Sys2Proof.Machine
end

