-- ==== Sys2Proof/Machine/Admission.lean ====
section
/-!
DEFINITION. Admission: the checks of R49 with the rules they rest on (R50, R51, R141, R204, R211, R224, R253, R262–R264),
and TICKET_ADMIT (R53–R55).
-/

namespace Sys2Proof.Machine

/-! ### Die resolution (R263, R264) -/

/-- The physical die of a named one, resolved once. -/
def physDie (d : Dev) (dix : Nat) : Nat := if d.on F.DIE_MAP_V dix then d.rd F.DIE_MAP_TGT dix else dix

/-- DIE_STAT.STATE values (R267). -/
def dieState (d : Dev) (x : Nat) : Nat := d.rd F.DIE_STAT_STATE x
def dieFenced (d : Dev) (x : Nat) : Bool := dieState d x == 3

/-- Check 6 for a named die (R253, R263, R410). -/
def dieNamed (d : Dev) (dix : Nat) : Bool :=
  let p := physDie d dix
  let s := dieState d p
  (s == 1 || s == 2 || s == 3 || s == 4) && (d.on F.DIE_MAP_V dix || !d.on F.DIE_CFG_SPARE dix) &&
  !d.on F.CH_STAT_ENUMBUSY (dixCh p)

/-- Check 7 (R253, R262). -/
def dieAdmits (d : Dev) (p opc : Nat) : Bool :=
  !dieFenced d p && (dieState d p != 4 || (opStatus ≤ opc && opc ≤ opParam))

/-- Check 8. -/
def inGeometry (d : Dev) (p blk page : Nat) : Bool := blk ≤ d.rd F.DIE_GEOM0_NBLK p && page < d.rd F.DIE_GEOM0_PPB p

def usesPlanes (opc : Nat) : Bool := opc == opRead || opc == opProgram || opc == opErase || opc == opCopy

/-- Check 9. -/
def planesOk (d : Dev) (p opc planes : Nat) : Bool :=
  (!usesPlanes opc || planes != 0) && planes < 2 ^ (d.rd F.DIE_GEOM0_NPL p + 1)

/-! ### Check 10 (R49, R141, R142) -/

/-- The ticket's staging reservation fits its channel's share, both sides of a COPY together on one channel. -/
def stagingCan (d : Dev) (t : List Byte) (p q : Nat) : Bool :=
  let a := if (holdRef t).isSome then 0 else stagingNeed d t
  (if tOpc t = opCopy ∧ dixCh p = dixCh q then a + targetNeed d t else a) ≤ stagingShare d (dixCh p)

/-- The reservation of a COPY's target side on another channel fits that channel's share (R224). -/
def targetCan (d : Dev) (t : List Byte) (p q : Nat) : Bool :=
  tOpc t != opCopy || dixCh p == dixCh q || decide (targetNeed d t ≤ stagingShare d (dixCh q))

def codewordsOk (p : Prof) (t : List Byte) : Bool := 1 ≤ tCwCnt t && tCwFirst t + tCwCnt t ≤ p.cwpp

/-- The source part of check 10. -/
def profileOk (d : Dev) (t : List Byte) (p : Nat) : Bool :=
  let pr := profile d (tCprof t)
  profOk d pr p && (!(tOpc t == opRead || tOpc t == opProgram || tOpc t == opCopy) || codewordsOk pr t)

/-- The target part, for a COPY (R224). -/
def targetProfileOk (d : Dev) (t : List Byte) (q : Nat) : Bool :=
  tOpc t != opCopy || (profOk d (profile d (tTprof t)) q && codewordsOk (profile d (tTprof t)) t)

/-- Check 10 as Slalom applies it again (R142). -/
def check10 (d : Dev) (x : Cell) : Bool :=
  profileOk d x.tkt x.dix && targetProfileOk d x.tkt x.tdix && stagingCan d x.tkt x.dix x.tdix && targetCan d x.tkt x.dix x.tdix

/-! ### Fixed fields -/

/-- The OPARG bits R43 names, as a mask of the 16 bytes. -/
def opargMask (opc : Nat) : Nat :=
  if opc = opCopy then 0xFFFFFFFFFFFFFFFF * 2 ^ 64 + 0x07 * 2 ^ 56 + 0xFF * 2 ^ 48 + 0xFFFF * 2 ^ 32 + 0x1FFF * 2 ^ 16 + 0x3FF
  else if opc = opSetFeat then 0xFFFFFFFF * 2 ^ 32 + 0x1FF
  else if opc = opGetFeat then 0x1FF
  else if opc = opDieReset ∨ opc = opCal then 0xFF
  else if opc = opReadId ∨ opc = opParam then 0xFFFF00FF
  else if opc = opRoutine then 2 ^ 128 - 1
  else 0

/-- Check 5: the reserved fields of R41 and R43 are zero. -/
def reservedZero (t : List Byte) : Bool :=
  tf t 1 1 7 1 == 0 && tf t 3 1 6 2 == 0 && tf t 4 2 10 6 == 0 && tf t 6 2 12 4 == 0 && tf t 8 2 13 3 == 0 &&
  tf t 14 2 13 3 == 0 && leAt t 56 4 == 0 && maskOff 128 (leAt t 32 16) (opargMask (tOpc t)) == 0

/-- Check 11 (R43, R204, R223). -/
def buffersOk (d : Dev) (t : List Byte) (p : Nat) : Bool :=
  if tOpc t = opCopy then tBitmap t % 8 == 0
  else if tOpc t = opErase then tDbuf t == 0 && tMbuf t == 0
  else tDbuf t % 64 == 0 && tMbuf t % 32 == 0 &&
    (match holdRef t with
     | some s => holdMatches d t (dixCh p) s
     | none => true)

/-- Check 12 (R49, R211, R236). -/
def stripeCheck (d : Dev) (t : List Byte) : Bool :=
  !tStr t || (d.on (F.LOT_STRIPE.ix (tOpc t)) &&
    (if tOpc t = opCopy then stripeOk d t (tTprof t) (tTplanes t) else stripeOk d t (tCprof t) (tPlanes t)))

/-- Check 13 (R43, R89, R224, R284). -/
def opargOk (d : Dev) (t : List Byte) (p q : Nat) : Bool :=
  let o := tOpc t
  if o = opCopy then
    popc 8 (tTplanes t) == popc 8 (tPlanes t) && !(profile d (tCprof t)).raw && !(profile d (tTprof t)).raw &&
    !(p == q && tTblock t == tBlock t && tTpage t == tPage t)
  else if o = opDieReset then tArg t ≤ 2
  else if o = opReadId then 1 ≤ tLen t && tLen t ≤ 64
  else if o = opParam then tArg t ≤ 3 && 1 ≤ tLen t && tLen t ≤ 4096
  else if o = opCal then tArg t ≤ 6
  else if o = opRoutine then tRoutine t < 512
  else true

/-- Check 15 (R353): a cap of 0 is none. -/
def cellCapReached (d : Dev) (tn : Nat) : Bool :=
  d.rd F.TN_CELLCAP_CAP tn != 0 && d.rd F.TN_CELLCAP_CAP tn ≤ d.rd F.TN_USE_CELLS tn

/-- The first check of R49 that a ticket fails, with its status and detail. Checks 6 to 10 are applied to a COPY's source
and then to its target (R224). -/
def admitCheck (d : Dev) (h : Hand) : Option (Nat × Nat) :=
  let t := h.bytes
  let o := tOpc t
  let direct := h.sq == 0xFF
  let p := physDie d (tDix t)
  let q := physDie d (tTdix t)
  let side := fun (dix pd blk page planes : Nat) (prof : Bool) =>
    if !dieNamed d dix then some (0x60, 3)
    else if !dieAdmits d pd o then some (0x31, 1)
    else if !inGeometry d pd blk page then some (0x60, 4)
    else if !planesOk d pd o planes then some (0x60, 5)
    else if !prof then some (0x60, 6)
    else none
  if !direct && d.on (F.SQ_CFG_CRC.ix h.sq) && crc32c (t.take 60) != leAt t 60 4 then some (0x60, 0x0B)
  else if !d.on (F.CQ_CFG_EN.ix (tCq t)) then some (0x60, 0x0C)
  else if !(1 ≤ o && o ≤ 12 && d.on (F.LOT_EN.ix o)) then some (0x60, 1)
  else if !(bit (d.rd (F.LOT_CLASSES.ix o)) (tClass t) && (!direct || d.on (F.LOT_DIRECT.ix o))) then some (0x60, 0x0A)
  else if !reservedZero t then some (0x60, 2)
  else match side (tDix t) p (tBlock t) (tPage t) (tPlanes t) (profileOk d t p && stagingCan d t p q) with
    | some e => some e
    | none => match (if o = opCopy then side (tTdix t) q (tTblock t) (tTpage t) (tTplanes t) (targetProfileOk d t q && targetCan d t p q) else none) with
      | some e => some e
      | none =>
        if !buffersOk d t p then some (0x60, 7)
        else if !stripeCheck d t then some (0x60, 8)
        else if !opargOk d t p q then some (0x60, 0x0D)
        else if !d.on F.TN_CFG_EN (tTenant t) then some (0x60, 9)
        else if cellCapReached d (tTenant t) then some (0x61, 1)
        else none

/-! ### Admission of one ticket -/

/-- ADM_STAT.IDLE. -/
def admStat (d : Dev) : Dev := d.put F.ADM_STAT_IDLE (admIdle d)

/-- Admission may take a cell for a ticket (R55, R56). -/
def mayTakeCell (d : Dev) (h : Hand) : Bool := freeFor d h && freshCells d < 1024

/-- The ticket to take next: the direct one, else the first in hand whose ring has no rejected ticket waiting and which
fails a check or may take a cell (R48, R55, R62). -/
def nextHand (d : Dev) : Option Hand :=
  let ok := fun (h : Hand) => (d.adm.rejects.all fun r => r.hand.sq != h.sq) && ((admitCheck d h).isSome || mayTakeCell d h)
  match d.adm.direct with
  | some h => if ok h then some h else d.adm.hand.find? ok
  | none => d.adm.hand.find? ok

/-- Take a ticket out of admission's hand. -/
def takeHand (h : Hand) (d : Dev) : Dev :=
  if h.sq = 0xFF then { d with adm := { d.adm with direct := none } }
  else match pull (fun (g : Hand) => decide (g = h)) d.adm.hand with
    | some (_, r) => { d with adm := { d.adm with hand := r } }
    | none => d

/-- A rejection (R49–R51, R62). -/
def reject (h : Hand) (st det : Nat) (d : Dev) : Dev :=
  let d := raise 0x7C (((d.wr F.ADM_ERR_LASTDET det).wr F.ADM_ERR_LASTSQ h.sq).inc F.ADM_ERR_CNT)
  let early := st = 0x60 ∧ (det = 0x0B ∨ det = 0x0C)
  let cq := if early then d.rd (F.SQ_CFG_ERRCQ.ix h.sq) else tCq h.bytes
  if early ∧ (h.sq = 0xFF ∨ !d.on (F.CQ_CFG_EN.ix cq)) then
    if h.sq = 0xFF then d.wr F.TKT_STAT_BUSY 0 else d
  else
    let d := { d with adm := { d.adm with rejects := d.adm.rejects ++ [({ hand := h, cq := cq, out := { status := st, detail := det } } : Reject)] } }
    d.setCq cq { d.cqs cq with waiting := (d.cqs cq).waiting ++ ([.reject h.sq] : List Rec) }

/-- Link a ticket onto its die queue (R53, R59, R211, R493, CELL_LINK). -/
def linkTicket (h : Hand) (d : Dev) : Dev :=
  match takeFree (sqPort h.sq) d with
  | none => d
  | some (c, d) =>
    let t := h.bytes
    let p := physDie d (tDix t)
    let k := qkey p (tClass t)
    let q := d.queue k
    let d := d.setCell c { tkt := t.take 60, sq := h.sq, slot := h.slot, dix := p, tdix := physDie d (tTdix t)
                           qcls := tClass t, uten := tTenant t
                           claim := if tStr t then some (tAcc t, tMember t, tClose t) else none }
    let d := d.setQueue k (q ++ [c])
    let d := d.inc F.TN_USE_CELLS (tTenant t)
    let d := match q.getLast? with
      | some b => writeBackQueued b d
      | none => d
    let d := writeBackQueued c d
    let d := if tStr t then memberClaim t d else d
    let d := if tLmap t && (tOpc t == opRead || tOpc t == opCopy) then lmPrefetch p (tBlock t) (tPage t) d else d
    if h.sq = 0xFF then d.wr F.TKT_STAT_BUSY 0 else d

/-- TICKET_ADMIT (R46, R48, R49, R55): one ticket. A direct ticket waits while EN is 0; a ticket in hand is finished. `m8`
and `m10` are the readings of the staged ticket and of the control tables (R365), `ws` the words of the cell written into the
cell cache (R364). -/
def ticketAdmit (m8 m10 : Mem) (ws : List MemWr) (d : Dev) : Dev :=
  if d.adm.sweep.isSome || !admReady d || (d.adm.direct.isSome && !d.on F.ADM_CTL_EN && d.adm.hand.isEmpty) then d
  else
    let d0 := if d.on F.ADM_CTL_EN then d else { d with adm := { d.adm with direct := none } }
    match nextHand d0 with
    | none => admStall d
    | some h =>
      let m8 := memFinds d 8 m8
      let m10 := memFinds d 10 m10
      let d := readMem 10 m10 (readMem 8 m8 (takeHand h d))
      let (ue, d) := match (if m8.isUe || h.ue then some (0x7F, 0x32) else admitCheck d h) with
        | some (s, e) => (false, reject h s e d)
        | none =>
          let w := memWrites 1 ws (linkTicket h d)
          (w.1.any id, w.2)
      let d := admStat (admStall d)
      if ue then enterFailSafe 2 16 1 (safeLink 6 d)
      else if m10.isUe then enterFailSafe 2 16 10 (safeLink 6 d) else d

/-- CELL_FETCH_RETURN, with the write of the cell into the cell cache (R56, R364, R365). -/
def cellReturned (c : Nat) (d : Dev) : Dev :=
  let ue := d.answers.any fun a => (a.what == .cellFetch c true || a.what == .cellFetch c false) && a.ue
  let d := cellFetchReturn c d
  if ue then enterFailSafe 2 16 1 (safeLink 6 d) else d

end Sys2Proof.Machine
end

