-- ==== Sys2Proof/Machine/Traverse.lean ====
section
/-!
DEFINITION. Traverse relocation (R223–R241): streams, bitmaps, the COPY between its sides.
-/

namespace Sys2Proof.Machine

def streamState (c v : Nat) (d : Dev) : Dev :=
  let x := d.cell c
  match x.stream with
  | none => d
  | some s => d.wr (F.TRV_STR_STATE.ix s) v (dixCl x.dix)

/-- Take a free stream of the source cluster (R227). -/
def takeStream (c : Nat) (d : Dev) : Dev :=
  let x := d.cell c
  let cl := dixCl x.dix
  let busy := d.rd F.TRV_STAT_BUSY cl
  if x.stream.isSome || !d.on F.TRV_CFG_EN cl || d.rd F.TRV_CFG_STREAMS cl + 1 ≤ popc 4 busy then d
  else match (List.range 4).find? fun s => !bit busy s with
    | none => d
    | some s =>
      let d := (d.setCell c { x with stream := some s }).wr F.TRV_STAT_BUSY (setBit busy s) cl
      let d := (d.wr (F.TRV_STR_STATE.ix s) 1 cl).put (F.TRV_STR_XCL.ix s) (dixCl x.tdix != cl) cl
      (d.wr (F.TRV_STR_SRCDIX.ix s) x.dix cl).wr (F.TRV_STR_TGTDIX.ix s) x.tdix cl

/-- The source reservation, with the copies of both profiles (R142, R228). A profile that has become RAW since the admission
ends the COPY as R224 does, since R39 keeps its data off the fabric (assumption 94). -/
def copyReserve (c : Nat) (d : Dev) : Dev :=
  let x := d.cell c
  if x.stream.isNone || x.prof.isSome then d
  else
    let n := stagingNeed d x.tkt
    if !check10 d x then finishQueued c { status := 0x60, detail := 6 } d
    else if (profile d (tCprof x.tkt)).raw || (profile d (tTprof x.tkt)).raw then finishQueued c { status := 0x60, detail := 0x0D } d
    else if stagingFits d (dixCh x.dix) n then
      d.setCell c { x with stg := n, prof := some (profile d (tCprof x.tkt)), tprof := some (profile d (tTprof x.tkt)) }
    else d

/-- The target reservation under the copy, then the bitmap read (R228). -/
def copyTarget (c : Nat) (d : Dev) : Dev :=
  let x := d.cell c
  match x.tprof with
  | none => d
  | some p =>
    if x.out.isSome || x.tstg != 0 then d
    else
      let n := popc 8 (tTplanes x.tkt) * p.cwpp * p.len
      if stagingFits d (dixCh x.tdix) n then
        request (dixCl x.dix) false { what := .bitmap c, addr := tBitmap x.tkt, len := 8 } (streamState c 2 (d.setCell c { x with tstg := n }))
      else d

/-- TRAVERSE_STREAM_TAKE (R228): the steps in order, each as far as it can proceed. -/
def streamTake (c : Nat) (d : Dev) : Dev :=
  let x := d.cell c
  if (look d.cells c).isNone || tOpc x.tkt != opCopy || x.started || x.out.isSome || d.adm.halted || pmPending d ||
     (d.queue (cellKey x)).head? != some c then d
  else copyTarget c (copyReserve c (takeStream c d))

/-- Codewords a bitmap leaves out (R226). -/
def invalidCount (x : Cell) (b : Nat) : Nat := cwTotal x.tkt - popc (cwTotal x.tkt) b

/-- BITMAP_READ_RETURN (R229, R230). -/
def bitmapReturn (c : Nat) (d : Dev) : Dev :=
  match takeAnswer (· = .bitmap c) d with
  | none => d
  | some (a, d) => match look d.cells c with
    | none => d
    | some x =>
      if x.stream.isNone || x.started || x.out.isSome then d
      else if a.code != 0 then finishQueued c { status := 0x50, detail := 4 } d
      else
        let b := leAt a.bytes 0 8 % 2 ^ cwTotal x.tkt
        let d := d.setCell c { x with bitmap := some b }
        let d := d.incW F.TRV_SKIP_CNT (dixCl x.dix) (invalidCount x b)
        if b = 0 ∧ d.on F.TRV_CFG_EMPTY (dixCl x.dix) then finishQueued c { status := 0 } d else d

/-- A COPY whose target side can no longer run: R237 row 4, R238. -/
def copyTargetLost (k st : Nat) (d : Dev) : Dev :=
  let x := d.cell k
  let r : Option Nat × Dev := if x.ready then holdKeep k true d else (none, d)
  let det := 4 + (match r.1 with | some s => 128 + s | none => 0)
  seqParked (dixCh x.dix) (releaseStaging k (finish k { status := st, detail := det } r.2))

/-- The context of a COPY's target side (R234, R235): started work of the target channel. -/
def targetReady (c : Nat) (d : Dev) : Dev :=
  let x := d.cell c
  if dieFenced d x.tdix then copyTargetLost c 0x31 d
  else
  let ctx : Ctx := { cells := [c], work := .target, dix := x.tdix, cls := x.qcls, cost := 1, blk := tTblock x.tkt
                     page := tTpage x.tkt, planes := tTplanes x.tkt, left := tTplanes x.tkt, rix := 0x013 }
  (addCtx (dixCh x.tdix) ctx (streamState c 4 d)).2

/-- Every position of the target page that carries no valid codeword is zero in staging (R232). -/
def copyCodes (x : Cell) (p : Prof) : Tbl (List Byte) :=
  (List.range (cwTotal x.tkt)).map fun m =>
    (m, match look x.plain m with
      | some b => encodeCw p b
      | none => List.replicate p.len 0)

/-- The valid codewords are in the target reservation (R232, R234): the source reservation ends, but an all-invalid COPY
keeps it until its target side's grant (R230). -/
def copyEncoded (c : Nat) (d : Dev) : Dev :=
  let x := d.cell c
  let p := x.tprof.getD (profile d (tTprof x.tkt))
  let n := x.plain.length
  let d := d.setCell c { x with coded := copyCodes x p, plain := [], ready := true, stg := if x.bitmap = some 0 then x.stg else 0
                                enc := n, relocated := n }
  if d.on F.TRV_CFG_RECHECK (dixCl x.dix) && n != 0 then
    request (dixCl x.dix) false { what := .bitmapAgain c, addr := tBitmap x.tkt, len := 8 }
      (Dev.onCell c (fun x => { x with recheck := true }) d)
  else targetReady c d

/-- The encoding of a COPY has ended (R234). -/
def copyEncodeEnd (c : Nat) (d : Dev) : Dev :=
  match look d.cells c with
  | none => d
  | some x => if x.started && x.between && !x.ready && x.out.isNone then copyEncoded c d else d

/-- BITMAP_RECHECK_RETURN (R234). -/
def recheckReturn (c : Nat) (d : Dev) : Dev :=
  match takeAnswer (· = .bitmapAgain c) d with
  | none => d
  | some (a, d) => match look d.cells c with
    | none => d
    | some x =>
      if !x.recheck || x.out.isSome then d
      else
        let cl := dixCl x.dix
        let p := x.tprof.getD (profile d (tTprof x.tkt))
        let d := d.setCell c { x with recheck := false }
        if a.code != 0 then targetReady c (d.inc F.TRV_RCHK_ERR cl)
        else
          let b := leAt a.bytes 0 8
          let gone := (List.range (cwTotal x.tkt)).filter fun m => bit (x.bitmap.getD 0) m && !bit b m
          let d := Dev.onCell c (fun x => { x with coded := gone.foldl (fun t m => ins t m (List.replicate p.len 0)) x.coded
                                                   relocated := x.relocated - gone.length }) d
          targetReady c (d.inc F.TRV_RCHK_DROPPED cl gone.length)

/-- A COPY whose target die has been fenced is encoded to its end where its codewords can be kept: WR_CFG.HOLD is 1 and a
slot of the target channel is free (R238, assumption 88). -/
def copyHolds (d : Dev) (x : Cell) : Bool :=
  let c := dixCh x.tdix
  d.on F.WR_CFG_HOLD c && (List.range 4).any fun s => !d.on (F.WR_HOLD_V.ix s) c

/-- The source side's codewords are settled (R237 rows 2 and 3, R234): the COPY ends, or it stands between its sides and waits
for the encoder. `same` says that it comes in the same cycle as the one that came last (R240). -/
def sourceSettledIn (same : Bool) (c : Nat) (d : Dev) : Dev :=
  let x := d.cell c
  let ch := dixCh x.dix
  match (d.chn ch).ctxs.find? fun p => p.2.cells.contains c with
  | none => d
  | some (id, _) =>
    let o := readOutcome x
    if o.status = 0x10 ∨ o.status = 0x11 then endInCtx ch id c o d
    else if dieFenced d x.tdix && !copyHolds d x then endInCtx ch id c { status := 0x31, detail := 4 } d
    else
      let t := dixCh x.tdix
      let d := if same then d else d.setCh t { d.chn t with tick := (d.chn t).tick + 1 }
      seqParked ch (streamState c 4 (Dev.onCell c (fun x => { x with between := true, wait := (d.chn t).tick }) (closeCtx ch id false d)))

def sourceSettled (c : Nat) (d : Dev) : Dev := sourceSettledIn false c d

/-- The outcome of a COPY whose target program passed (R237 rows 7–9). -/
def copyPassed (x : Cell) : Outcome :=
  let o := readOutcome x
  { status := if o.status ≤ 2 then o.status else 0, result := x.corrected }

/-- An all-invalid COPY starts at its selection, without a source run (R230). -/
def copyStartEmpty (c : Nat) (d : Dev) : Dev :=
  let x := d.cell c
  let d := unlink c (reserveSlot (tCq x.tkt) d)
  let salt := d.rd F.TN_CFG_SALT (tTenant x.tkt)
  let d := Dev.onCell c (fun x => { x with started := true, st := 2, between := true, cached := true, salt := salt }) d
  copyEncoded c (streamState c 4 d)

end Sys2Proof.Machine
end

