-- ==== Sys2Proof/Machine/Slalom.lean ====
section
/-!
DEFINITION. Slalom: eligibility (R113–R115, R128, R235), the choice (R116–R119), groups and cache sequences (R120–R122),
suspension (R123–R126).
-/

namespace Sys2Proof.Machine

/-- The queues of a channel that hold a cell. -/
def channelQueues (d : Dev) (c : Nat) : List (Nat × List Nat) := d.dq.filter fun (p : Nat × List Nat) => dixCh (p.1 / 4) == c && !p.2.isEmpty

/-! ### When a channel may start tickets -/

/-- No event holds every start of the channel (R92, R106, R113, R249, R252, R277, R372, R456, R468). -/
def channelOpen (d : Dev) (c : Nat) : Bool :=
  d.live && startReady d && !d.on F.FS_STAT_ACTIVE && !d.fs.pfail && !d.on F.TH_STAT_HALT && !d.on F.CH_STAT_ENUMBUSY c &&
  !d.on F.CH_STAT_RECHG c && !rateWaits d c && d.rd F.PAT_STAT_PHASE (chCl c) == 0 && !(d.chn c).cal.hold && d.rd F.SEQ_STAT_STATE c != 4 &&
  (d.rd F.TST_LBCTL_DEPTH c == 0 || d.rd F.TST_LBCTL_DEPTH c == 5)

/-- Contexts of tickets started on a die: a group is one (R114, R121). The target side of a COPY counts from its grant
(R233). -/
def dieCtxs (d : Dev) (dix : Nat) : List (Nat × Ctx) :=
  (d.chn (dixCh dix)).ctxs.filter fun (p : Nat × Ctx) => p.2.dix == dix && !p.2.cells.isEmpty && !waitsTarget d p.2

/-- COPYs between their sides counted on a die (R233), which no context of that die holds. -/
def dieBetween (d : Dev) (dix : Nat) : Nat :=
  (d.cells.filter fun p => p.2.started && p.2.out.isNone && p.2.between && startedDie p.2 == dix && !p.2.onTgt).length

/-- Contexts that work elsewhere for a ticket of a die: a CAL ticket that trains the other targets (R284). -/
def dieAway (d : Dev) (dix : Nat) : Nat :=
  ((d.chn (dixCh dix)).ctxs.filter fun p => p.2.dix != dix && p.2.cells.any fun k => startedDie (d.cell k) == dix && !waitsTarget d p.2).length

/-- A sanitise, a recovery poll, the end of a cut-off read sequence or a calibration step in progress holds the die's place
(R122, R256, R276, R433). -/
def dieHeld (d : Dev) (dix : Nat) : Bool :=
  dieState d dix == 2 || (look d.upd.san dix).isSome || (d.chn (dixCh dix)).ctxs.any fun p => p.2.dix == dix && (p.2.work == .close || p.2.work == .cal)

/-- Tickets of a die that have ended and whose record is unwritten (R114): each of a group's is one (assumption 93). -/
def dieEnded (d : Dev) (dix : Nat) : Nat := (d.cells.filter fun p => p.2.started && p.2.out.isSome && startedDie p.2 == dix).length

/-- The two tickets are neighbours in a cache sequence (R122). -/
def seqFits (a b : List Byte) : Bool :=
  tOpc a == tOpc b && (tOpc a == opRead || tOpc a == opProgram) && tTenant a == tTenant b && tCprof a == tCprof b &&
  tPlanes a == tPlanes b && tBlock a == tBlock b && tPage b == tPage a + 1 && (tOpc a == opRead || tPfp a == tPfp b)

/-- The head continues its die's open cache sequence (R122). -/
def joinsSeq (d : Dev) (k : Nat) : Bool :=
  let x := d.cell k
  match look (d.chn (dixCh x.dix)).seqs x.dix with
  | none => false
  | some p => seqFits p.2 x.tkt && tClass p.2 == x.qcls

def preempts (d : Dev) (k : Nat) : Bool :=
  let x := d.cell k
  (tOpc x.tkt == opRead || tOpc x.tkt == opCopy) && bit (d.rd F.SLM_CFG_PREEMPT (dixCh x.dix)) x.qcls

/-- The die start rule (R114). The next ticket of a cache sequence starts once the routine of the one before it has ended
(assumption 121). -/
def dieStarts (d : Dev) (k : Nat) : Bool :=
  let x := d.cell k
  let cs := dieCtxs d x.dix
  let n := cs.length + dieBetween d x.dix + dieAway d x.dix
  !dieHeld d x.dix && n + dieEnded d x.dix < 2 &&
  (n == 0 || (n == 1 && cs.any (fun p => p.2.st == .suspended) && preempts d k) || (n == 1 && joinsSeq d k && cs.all fun p => !inRoutine p.2))

/-- Tickets whose start needs a staging reservation (R113). -/
def needsStaging (x : Cell) : Bool :=
  let o := tOpc x.tkt
  (o == opRead || o == opProgram || o == opCopy || o == opReadId || o == opParam || o == opRoutine) && (holdRef x.tkt).isNone

/-- The staging condition (R113, R195, R228). -/
def stagingOk (d : Dev) (k : Nat) : Bool :=
  let x := d.cell k
  if !needsStaging x then true
  else if tOpc x.tkt = opProgram then x.ready
  else if tOpc x.tkt = opCopy then x.bitmap.isSome && x.tstg != 0
  else x.prof.isSome || stagingFits d (dixCh x.dix) (stagingNeed d x.tkt)

/-- The tenant is capped with the hold action (R128). -/
def capHeld (d : Dev) (k : Nat) : Bool :=
  let t := tTenant (d.cell k).tkt
  d.on F.TN_USE_CAPPED t && !d.on F.TN_CFG_ACT t

/-- A ticket whose routine does not carry its LUN's address (R89). -/
def targetLevel (t : List Byte) : Bool :=
  let o := tOpc t
  o == opStatus || o == opReadId || o == opParam || ((o == opSetFeat || o == opGetFeat) && leAt t 33 1 % 2 == 0) ||
  (o == opDieReset && tArg t != 2)

/-- A LUN of the die's target is FENCED: the target's chip enable is asserted only for routines that carry a sibling's
address (R258); others wait (assumption 123). -/
def lunFenced (d : Dev) (x : Nat) : Bool := (List.range 4).any fun l => dieFenced d (x / 4 * 4 + l)

/-- A head's conditions but for its tenant's cap and its PHY (R113). -/
def headBase (d : Dev) (c k : Nat) : Bool :=
  let x := d.cell k
  channelOpen d c && x.cached && !(targetLevel x.tkt && lunFenced d x.dix) && (dieState d x.dix == 1 || dieState d x.dix == 4) && !queueBroken d (cellKey x) &&
  cqReady d (tCq x.tkt) && dieStarts d k && stagingOk d k

def headEligible (d : Dev) (c k : Nat) : Bool := headBase d c k && !capHeld d k && phyAwake d c

/-! ### Started work (R115, R123–R126, R235) -/

/-- An eligible head that a suspended or parked ticket of its die stands in the way of (R123, R125). -/
def preemptingHead (d : Dev) (c dix : Nat) : Option Nat :=
  ((List.range 4).filterMap fun cl => (d.queue (qkey dix cl)).head?).find? fun k =>
    preempts d k && (d.cell k).cached && channelOpen d c && !dieFenced d dix && !queueBroken d (cellKey (d.cell k)) &&
    cqReady d (tCq (d.cell k).tkt) && stagingOk d k && !capHeld d k && dieEnded d dix < 1

/-- The suspends a ticket may take (R126). -/
def suspLimit (d : Dev) (c k : Nat) : Nat :=
  if tOpc (d.cell k).tkt = opErase then d.rd F.SLM_SUSP_EMAX c else d.rd F.SLM_SUSP_PMAX c

/-- The conditions of R123 on a parked context; the answer is the class of the READ that asks. -/
def suspendFor (d : Dev) (c : Nat) (x : Ctx) : Option Nat :=
  match x.cells.head?, nanoOf d c x with
  | some k, some (_, _, w) =>
    if x.st == .parked && x.committed && !x.suspAsk && !x.susping && nwSuspok w && x.minrun && !x.cache && x.pred.isNone &&
       (tOpc (d.cell k).tkt == opProgram || tOpc (d.cell k).tkt == opErase || x.work == .target) &&
       d.on F.DIE_GEOM1_SUSP x.dix && (look (d.chn c).seqs x.dix).isNone && (d.cell k).susp < suspLimit d c k then
      (preemptingHead d c x.dix).map fun h => (d.cell h).qcls
    else none
  | _, _ => none

/-- Ask for the suspends that are due (R123). -/
def askSuspends (c : Nat) (d : Dev) : Dev :=
  Dev.each (d.chn c).ctxs (fun p d =>
    match suspendFor d c p.2 with
    | some cl => nowReady c p.1 (d.setCtx c p.1 { p.2 with suspAsk := true, st := .eligible, work := .suspend, cost := 6, ask := cl })
    | none => d) d

/-- The resume of a suspended ticket is eligible (R125): from the instant one of the two conditions has held. -/
def resumeDue (d : Dev) (c : Nat) (x : Ctx) : Bool :=
  x.due ||
  (let rb := d.rd F.SLM_SUSP_RBURST c
   let idle := fun (y : Ctx) => y.st == .decoding && y.work != .report && y.cells.all fun k => !hasFailing (d.cell k)
   ((dieCtxs d x.dix).all fun p => p.2.st == .suspended || idle p.2) &&
   ((preemptingHead d c x.dix).isNone || (if rb = 0 then 16 else rb) ≤ (look (d.chn c).burst x.dix).getD 0))

/-- The target side of a COPY is eligible (R235): the die holds no other started ticket, one in STATE 4 included. -/
def targetDue (d : Dev) (x : Ctx) : Bool :=
  let cells := d.cells.filter fun p => p.2.started && startedDie p.2 == x.dix && !x.cells.contains p.1
  !dieFenced d x.dix && !dieHeld d x.dix && cells.isEmpty && !d.on F.TH_STAT_HALT

/-- A context is a candidate now. -/
def ctxDue (d : Dev) (c : Nat) (x : Ctx) : Bool :=
  match x.st with
  | .ready => true
  | .sliced => true
  | .suspended => resumeDue d c x
  | .eligible =>
    if x.work == .target && !x.committed then targetDue d x
    else if x.work == .retry || x.work == .soft || x.work == .close then
      (d.chn c).ctxs.all fun p => p.2.dix != x.dix || p.2 == x || !inRoutine p.2
    else true
  | .decoding => x.work == .report && (look (d.chn c).seqs x.dix).isNone
  | _ => false

/-- Work that becomes ready at its selection's conditions and not at an event of its own takes its age from there (R116);
a resume that has become eligible stays so (R125). -/
def latchDue (c : Nat) (d : Dev) : Dev :=
  Dev.each (d.chn c).ctxs (fun p d =>
    let x := p.2
    if x.st == .suspended || x.st == .decoding || (x.st == .eligible && x.work == .target && !x.committed) then
      let due := ctxDue d c x
      if due && !x.due then nowReady c p.1 (d.setCtx c p.1 { x with due := true })
      else if x.due && !due then d.setCtx c p.1 { x with due := false } else d
    else d) d

/-- Every channel's work that has become due with an event, or before one that may bring its die new reads. -/
def latchAll (d : Dev) : Dev := Dev.each (List.range 32) latchDue d

/-- A candidate: its class, its tenant group, and the head or context it is. -/
structure Cand where
  cls : Nat
  grp : Nat
  head : Option Nat
  ctx : Option Nat
  since : Nat := 0
deriving DecidableEq, Repr

def ctxGroup (d : Dev) (x : Ctx) : Nat :=
  match x.cells.head? with
  | some k => tenantGroup d (tTenant (d.cell k).tkt)
  | none => 0

/-- The class a context competes and asks in: its ticket's, or that of the read a suspend is for (R115, R132). -/
def ctxClass (x : Ctx) : Nat := if x.work == .suspend then x.ask else x.cls

/-- A context whose work is tickets' work now. -/
def ctxCand (d : Dev) (c : Nat) (x : Ctx) : Bool := (!x.cells.isEmpty || x.work == .close) && ctxDue d c x

/-- The started work of a channel (R115), tickets' work only. -/
def workCands (d : Dev) (c : Nat) : List Cand :=
  if d.on F.FS_STAT_ACTIVE || !phyAwake d c then []
  else (d.chn c).ctxs.filterMap fun p =>
    if ctxCand d c p.2 then some { cls := ctxClass p.2, grp := ctxGroup d p.2, head := none, ctx := some p.1, since := p.2.since } else none

/-- Started work that waits only because its channel's PHY sleeps asks for the wake (R131, R235). -/
def wakeForWork (c : Nat) (d : Dev) : Dev :=
  if phyAwake d c || (d.chn c).waking || d.on F.FS_STAT_ACTIVE then d
  else match (d.chn c).ctxs.find? fun p => ctxCand d c p.2 with
    | none => d
    | some p => liftAsk { ch := c, who := .wake, cost := 4, rank := ctxClass p.2 } d

/-- A resume precedes every head of its die (R125). -/
def resumeFirst (d : Dev) (c dix : Nat) : Bool :=
  (d.chn c).ctxs.any fun p => p.2.dix == dix && p.2.st == .suspended && resumeDue d c p.2

/-- The heads of a channel that are eligible (R113). -/
def headCands (d : Dev) (c : Nat) : List Cand :=
  (channelQueues d c).filterMap fun q => match q.2.head? with
    | none => none
    | some k =>
      if headEligible d c k && !resumeFirst d c (q.1 / 4) then
        some { cls := q.1 % 4, grp := tenantGroup d (tTenant (d.cell k).tkt), head := some k, ctx := none }
      else none

def candidates (d : Dev) (c : Nat) : List Cand := workCands d c ++ headCands d c

/-! ### What a selection does to heads that cannot be candidates -/

/-- The check of R142 and PHY-wake requests (R131): one request stands for the channel, of the first head that needs it in
the order of the queues (assumption 114). -/
def examineHead (c k : Nat) (d : Dev) : Dev :=
  let x := d.cell k
  if (look d.cells k).isNone || x.out.isSome || x.started then d
  else
    if x.prof.isNone && !check10 d x then finishQueued k { status := 0x60, detail := 6 } d
    else if headBase d c k && !capHeld d k && !phyAwake d c && !(d.chn c).waking then
      liftAsk { ch := c, who := .wake, cost := 4, rank := x.qcls } d
    else d

/-- Every head is examined; a selection that passes over a capped head is counted (R113, R138). -/
def examineHeads (c : Nat) (d : Dev) : Dev :=
  let hs := (channelQueues d c).filterMap fun q => q.2.head?
  let d := Dev.each hs (examineHead c) d
  if hs.any fun k => (look d.cells k).isSome && (d.cell k).out.isNone && capHeld d k && headBase d c k then
    d.inc F.SLM_CNT2_CAPHOLD c else d

/-! ### The choice -/

def starveCount (d : Dev) (c k : Nat) : Nat := (look (d.chn c).starve k).getD 0

/-- The class a starvation count forces (R117). -/
def starvedClass (d : Dev) (c : Nat) (cs : List Cand) : Option Nat :=
  let lim := d.rd F.SLM_CFG_STARVE c
  if lim = 0 then none else [1, 2, 3].find? fun k => lim ≤ starveCount d c k && cs.any fun x => x.cls == k

/-- The class of a selection (R116). -/
def pickClass (d : Dev) (c : Nat) (cs : List Cand) : Option Nat :=
  match starvedClass d c cs with
  | some k => some k
  | none => (List.range 4).find? fun k => cs.any fun x => x.cls == k

/-- Counts after a selection of class `k` (R117). -/
def starveAfter (c k : Nat) (cs : List Cand) (d : Dev) : Dev :=
  let forced := starvedClass d c cs == some k
  let upd := fun (m : Nat) =>
    if cs.all (fun x => x.cls != m) || (m = k && forced) then 0 else if k < m then starveCount d c m + 1 else starveCount d c m
  let d := d.setCh c { d.chn c with starve := [1, 2, 3].map fun m => (m, upd m) }
  if forced then d.inc F.SLM_CNT_STARVED c else d

def grpWeight (d : Dev) (c g : Nat) : Nat := d.rd (F.SLM_GWT_W.ix g) c

/-- What one addition gives a group, and its limit (R118). -/
def grpQuant (d : Dev) (c g : Nat) : Nat := grpWeight d c g * d.rd F.SLM_QUANT_QUANT c

/-- Additions a negative deficit needs. -/
def additions (d : Dev) (c g : Nat) : Nat :=
  let v := deficit d c g
  if 0 ≤ v then 0 else ((-v).toNat + grpQuant d c g - 1) / grpQuant d c g

def minL : List Nat → Nat
  | [] => 0
  | [a] => a
  | a :: r => min a (minL r)

/-- drr_pick (R118): the group, with the deficits it leaves. -/
def drrPick (c : Nat) (gs : List Nat) (d : Dev) : Option Nat × Dev :=
  let order := ((List.range 16).map fun i => ((d.chn c).lastGrp + 1 + i) % 16).filter fun g => gs.contains g
  let heavy := order.filter fun g => grpWeight d c g != 0
  let (g, d) := match heavy with
    | [] => (order.head?, d)
    | _ =>
      match heavy.find? (fun g => (0 : Int) ≤ deficit d c g) with
      | some g => (some g, d)
      | none =>
        let n := minL (heavy.map (additions d c))
        let add := fun (g : Nat) (d : Dev) => setDeficit c g (min (deficit d c g + (n * grpQuant d c g : Nat)) (4 * grpQuant d c g : Nat)) d
        let d := Dev.each heavy add d
        (heavy.find? (fun g => (0 : Int) ≤ deficit d c g), d)
  match g with
  | none => (none, d)
  | some g => (some g, d.setCh c { d.chn c with lastGrp := g })

/-- Classes without a candidate count from 0 again (R117). -/
def starveIdle (c : Nat) (cs : List Cand) (d : Dev) : Dev :=
  let h := d.chn c
  d.setCh c { h with starve := h.starve.map fun p => (p.1, if cs.all (fun x => x.cls != p.1) then 0 else p.2) }

/-- A group without a candidate loses a positive deficit (R118). -/
def clearIdleGroups (c : Nat) (cs : List Cand) (d : Dev) : Dev :=
  Dev.each (List.range 16) (fun g d => if cs.all (fun x => x.grp != g) && (0 : Int) < deficit d c g then setDeficit c g 0 d else d) d

/-- The oldest of a list of started work. -/
def oldest : List Cand → Option Cand
  | [] => none
  | a :: r => match oldest r with
    | none => some a
    | some b => if b.since < a.since then some b else some a

/-- The candidate of a class and group (R116). -/
def pickCand (d : Dev) (c : Nat) (cs : List Cand) : Option Cand :=
  match oldest (cs.filter fun x => x.ctx.isSome) with
  | some x => some x
  | none =>
    ((List.range 32).map fun i => ((d.chn c).lastDie + 1 + i) % 32).findSome? fun l =>
      cs.find? fun x => match x.head with
        | some k => (d.cell k).dix % 32 == l
        | none => false

/-! ### Groups and sequences -/

/-- What a queued ticket shares with the group of ticket `t`, whose planes are `used` (R120). -/
def groupFits (t u : List Byte) (used : Nat) : Bool :=
  let opOk := tOpc u == tOpc t && (tOpc t == opRead || tOpc t == opProgram || tOpc t == opErase)
  let addrOk := if tOpc t = opRead then tBlock u == tBlock t && tPage u == tPage t
    else if tOpc t = opProgram then tPage u == tPage t else true
  tMpl u && opOk && tTenant u == tTenant t && tCprof u == tCprof t && tPfp u == tPfp t && addrOk && tPlanes u &&& used == 0

/-- A hold reference names a slot that it fits (R204). -/
def holdFits (d : Dev) (c k : Nat) : Bool :=
  match holdRef (d.cell k).tkt with
  | none => true
  | some s => holdMatches d (d.cell k).tkt c s

/-- A ticket meets R113's conditions as a member beside those of `acc`: a completion slot and, for a READ, staging beyond
theirs; and the checks it takes with its profile copy (R142, R204, R205). -/
def memberOk (d : Dev) (c : Nat) (acc : List Nat) (k : Nat) : Bool :=
  let x := d.cell k
  let need := (acc.filter fun a => tCq (d.cell a).tkt == tCq x.tkt).length
  let own := fun (j : Nat) => if (d.cell j).prof.isNone then stagingNeed d (d.cell j).tkt else 0
  let stg := if tOpc x.tkt = opRead then stagingFits d c (own k + sumL (acc.map own)) else stagingOk d k
  headBase d c k && !capHeld d k && stg && need + (d.cqs (tCq x.tkt)).waiting.length < cqFree d (tCq x.tkt) &&
  (x.prof.isSome || check10 d x) && holdFits d c k

/-- The tickets after the chosen one that join its group, each meeting `ok` beside those before it (R120). -/
def groupMore (d : Dev) (ok : List Nat → Nat → Bool) (t : List Byte) : Nat → List Nat → List Nat → Nat → List Nat
  | 0, _, acc, _ => acc
  | _, [], acc, _ => acc
  | n + 1, k :: r, acc, used =>
    let u := (d.cell k).tkt
    if groupFits t u used && ok acc k then groupMore d ok t n r (acc ++ [k]) (used ||| tPlanes u) else acc

/-- The group a chosen head forms of the tickets behind it that meet `ok` (R120). -/
def groupBy (d : Dev) (c k : Nat) (ok : List Nat → Nat → Bool) : List Nat :=
  let x := d.cell k
  if d.on F.SLM_CFG_MPL c && tMpl x.tkt && (tOpc x.tkt == opRead || tOpc x.tkt == opProgram || tOpc x.tkt == opErase) then
    groupMore d ok x.tkt (d.rd F.SLM_CFG_MPWIN c) ((d.queue (cellKey x)).drop 1) [k] (tPlanes x.tkt)
  else [k]

def groupOf (d : Dev) (c k : Nat) : List Nat := groupBy d c k (memberOk d c)

/-- The chosen ticket is followed by one that continues a sequence (R122). -/
def seqFollows (d : Dev) (c k : Nat) : Bool :=
  let x := d.cell k
  d.on F.SLM_CFG_CACHE c && d.on F.DIE_GEOM1_CACHE x.dix &&
  (match (d.queue (cellKey x))[1]? with
   | some n => seqFits x.tkt (d.cell n).tkt
   | none => false)

/-! ### Placing the request -/

/-- The Lift class of an opcode's start (R130). -/
def startCost (opc : Nat) : Nat :=
  if opc = opRead ∨ opc = opCopy then 0 else if opc = opProgram then 1 else if opc = opErase then 2 else if opc = opCal then 5
  else if opc = opRoutine then 7 else 6

/-- Take a head's staging reservation and its profile copy, where it has none yet (R113, R142). -/
def reserveHead (k : Nat) (d : Dev) : Dev :=
  let x := d.cell k
  if x.prof.isSome || !needsStaging x then d
  else d.setCell k { x with stg := stagingNeed d x.tkt, prof := some (profile d (tCprof x.tkt)) }

/-- A PROGRAM that names a hold slot is checked and copies its profile at its selection (R142, R204, R205); the answer says
whether it goes on. A copy it holds already stays. -/
def holdSelect (c k : Nat) (d : Dev) : Bool × Dev :=
  let x := d.cell k
  match holdRef x.tkt with
  | none => (true, d)
  | some s =>
    if holdMatches d x.tkt c s then
      (true, d.setCell k { x with hold := some s, prof := some (x.prof.getD (profile d (tCprof x.tkt))), ready := true })
    else (false, finishQueued k { status := 0x60, detail := 7 } d)

/-- A member of a chosen group takes its copies and its reservation (R142). A later withdrawal leaves them (assumption
92). -/
def selectMember (c k : Nat) (d : Dev) : Dev := reserveHead k (holdSelect c k d).2

/-- The selection's registers; the die counts as served from here (R116, assumption 91). -/
def noteSelection (c cls grp dix : Nat) (d : Dev) : Dev :=
  let d := ((d.wr F.SLM_STAT_LASTDIX dix c).wr F.SLM_STAT_LASTCLASS cls c).wr F.SLM_STAT_LASTGRP grp c
  d.setCh c { d.chn c with lastDie := dix % 32 }

/-- A chosen head: a tenant whose parameters are lost (R365, region 5), the fail action of R128, an all-invalid COPY (R230),
or a request to Lift. A ticket that could open a group and a cache sequence opens the group (assumption 89), and what
it took stays with it when the choice is withdrawn (assumption 92). -/
def chooseHead (c k : Nat) (x : Cand) (d : Dev) : Dev :=
  let y := d.cell k
  let t := tTenant y.tkt
  if d.led.lost.contains t then finishQueued k { status := 0x7F, detail := 0x33 } d
  else if d.on F.TN_USE_CAPPED t && d.on F.TN_CFG_ACT t then finishQueued k { status := 0x61, detail := 2 } d
  else
    let d := noteSelection c x.cls x.grp y.dix d
    let (ok, d) := holdSelect c k d
    if !ok then d
    else if y.bitmap = some 0 then copyStartEmpty k d
    else
      let g := groupOf d c k
      let cache := g.length == 1 && seqFollows d c k
      let d := Dev.each g (selectMember c) d
      liftAsk { ch := c, who := .start g cache, cost := startCost (tOpc y.tkt), rank := y.qcls } d

/-- A chosen context: a request of its own class (R130, R132); the rerun of a parked routine makes none, and `rerun` puts it
on the bus (R93, R131). -/
def chooseCtx (rerun : Nat → Nat → Dev → Dev) (c id : Nat) (x : Cand) (d : Dev) : Dev :=
  match d.ctx c id with
  | none => d
  | some y =>
    let y := if y.st == .suspended then
        { y with st := .eligible, work := .resume, cost := if tOpc (d.cell (y.cells.headD 0)).tkt = opErase then 2 else 1 } else y
    let d := noteSelection c x.cls x.grp y.dix (d.setCtx c id y)
    let cost := if y.st == .ready || y.st == .sliced then 3 else y.cost
    if y.rerun && y.st == .ready then rerun c id d
    else liftAsk { ch := c, who := .ctx id, cost := cost, rank := ctxClass y } d

/-- A routine without a ticket that can go on, of the kind of work asked for (R132). -/
def idleCand (d : Dev) (c : Nat) (cal : Bool) : Option (Nat × Ctx) :=
  (d.chn c).ctxs.find? fun p => p.2.cells.isEmpty && p.2.work != .close && (p.2.work == .cal) == cal &&
    (p.2.st == .eligible || p.2.st == .ready || p.2.st == .sliced)

/-- It asks for the bus, or for its PHY's wake, at a rank (R131, R132). -/
def placeIdle (rerun : Nat → Nat → Dev → Dev) (c rank : Nat) (p : Nat × Ctx) (d : Dev) : Dev :=
  if !phyAwake d c then (if (d.chn c).waking then d else liftAsk { ch := c, who := .wake, cost := 4, rank := rank } d)
  else if p.2.rerun && p.2.st == .ready then rerun c p.1 d
  else liftAsk { ch := c, who := .ctx p.1, cost := if p.2.st == .eligible then p.2.cost else 3, rank := rank } d

/-- Work without a ticket asks when no ticket's work does (R132, assumption 90): rank 3, a step of an automatic calibration
below it; the next step of a calibration in a gap that nothing else takes (R276). -/
def idleWork (calAsk : Nat → Dev → Dev) (rerun : Nat → Nat → Dev → Dev) (c : Nat) (d : Dev) : Dev :=
  match idleCand d c false with
  | some p => placeIdle rerun c 3 p d
  | none => match idleCand d c true with
    | some p => placeIdle rerun c 4 p d
    | none => calAsk c d

/-- A forced run's steps precede every new head and run back to back (R277): rank 0. -/
def forcedWork (calAsk : Nat → Dev → Dev) (rerun : Nat → Nat → Dev → Dev) (c : Nat) (d : Dev) : Dev :=
  match idleCand d c true with
  | some p => placeIdle rerun c 0 p d
  | none => calAsk c d

/-- The choice among candidates (R116–R118). -/
def selectFrom (rerun : Nat → Nat → Dev → Dev) (c : Nat) (cs : List Cand) (d : Dev) : Dev :=
  match pickClass d c cs with
  | none => d
  | some k =>
    let d := starveAfter c k cs d
    let inCls := cs.filter fun x => x.cls == k
    let (g, d) := drrPick c (inCls.map (·.grp)) d
    match g with
    | none => d
    | some g =>
      match pickCand d c (inCls.filter fun x => x.grp == g) with
      | none => d
      | some x => match x.head, x.ctx with
        | some k, _ => chooseHead c k x d
        | none, some id => chooseCtx rerun c id x d
        | none, none => d

/-- The class number of the candidate waiting at Lift, when it may be withdrawn (R119). -/
def waitingClass (d : Dev) (c : Nat) : Option Nat :=
  match candidate d c with
  | none => none
  | some r => if d.lift.resv = some (c, false) then some 0 else some r.rank

/-- A new head waits at Lift and may still be withdrawn (R119). -/
def headWaits (d : Dev) (c : Nat) : Bool :=
  d.lift.resv != some (c, false) &&
  (match candidate d c with
   | some r => match r.who with
     | .start _ _ => true
     | _ => false
   | none => false)

/-- A read sequence that is cut off closes with READ_CACHE_LAST on its die, as work of its newest ticket's class (R122,
assumption 86). -/
def closeSeq (c dix : Nat) (t : List Byte) (d : Dev) : Dev :=
  let d := d.setCh c { d.chn c with seqs := del (d.chn c).seqs dix }
  if tOpc t != opRead then d
  else
    let (id, d) := addCtx c { work := .close, dix := dix, cls := tClass t, cost := 6, rix := 0x003, planes := tPlanes t, left := tPlanes t
                              blk := tBlock t, page := tPage t } d
    nowReady c id d

/-- Cache sequences that close: the head of the die's queues does not continue them (R122). -/
def closeSeqs (c : Nat) (d : Dev) : Dev :=
  Dev.each (d.chn c).seqs (fun p d =>
    let heads := (List.range 4).filterMap fun q => (d.queue (qkey p.1 q)).head?
    let goes := match heads.head? with
      | some k => joinsSeq d k
      | none => false
    if goes then d else closeSeq c p.1 p.2.2 d) d

/-- What a selection does before its choice: heads are examined, sequences close, suspends are asked for, work becomes
due (R113, R122, R123, R125). -/
def beforeChoice (c : Nat) (d : Dev) : Dev := wakeForWork c (latchDue c (askSuspends c (closeSeqs c (examineHeads c d))))

/-- A selection of a channel (R116, R119). A head withdrawn for a forced calibration step counts in WITHDRAWN (assumption
117). `calAsk` places the next calibration step (R276), and `rerun` puts a restarted
routine on the bus. -/
def selectTickets (calAsk : Nat → Dev → Dev) (rerun : Nat → Nat → Dev → Dev) (c : Nat) (d : Dev) : Dev :=
  if (d.chn c).run.isSome || !d.live || d.on F.FS_STAT_ACTIVE then d
  else
    let d := beforeChoice c d
    let cs := candidates d c
    let d := starveIdle c cs (clearIdleGroups c cs d)
    let choose := fun (d : Dev) => if cs.isEmpty then idleWork calAsk rerun c d else selectFrom rerun c cs d
    let forced := (d.chn c).cal.forced
    match waitingClass d c with
    | some w =>
      let e := if forced && headWaits d c then forcedWork calAsk rerun c (liftDrop c false d) else d
      if forced && headWaits d c && ((candidate e c).isSome || (e.chn c).run.isSome) then e.inc F.SLM_CNT2_WITHDRAWN c
      else if cs.all (fun x => w ≤ x.cls) then d
      else selectFrom rerun c cs ((liftDrop c false d).inc F.SLM_CNT2_WITHDRAWN c)
    | none =>
      let d := if forced then forcedWork calAsk rerun c d else d
      if (candidate d c).isSome || (d.chn c).run.isSome then d else choose d

/-! ### The encoder and the exchange (R25, R40, R232) -/

/-- A COPY whose decoded codewords wait for its target channel's encoder (R232). -/
def copyEncodes (x : Cell) : Bool := tOpc x.tkt == opCopy && x.started && x.between && !x.ready && x.out.isNone

/-- A PROGRAM whose data have all arrived and wait for its channel's encoder (R195, R197). -/
def progEncodes (x : Cell) : Bool :=
  tOpc x.tkt == opProgram && !x.started && !x.ready && x.out.isNone && x.prof.isSome && x.rxLeft == 0 && !x.rxBad && !x.rxUe &&
  !x.plain.isEmpty

/-- The cell of a list that has waited for the encoder longest; of two that came in the same cycle, that of the lower source
channel (R240). -/
def firstWaiting : List (Nat × Cell) → Option (Nat × Cell)
  | [] => none
  | p :: r => match firstWaiting r with
    | none => some p
    | some q => if q.2.wait < p.2.wait || (q.2.wait == p.2.wait && dixCh q.2.dix < dixCh p.2.dix) then some q else some p

/-- What a channel's encoder may take next, as candidates of the channel: the first COPY and the first PROGRAM in the order of
arrival (R232). -/
def encodeCands (d : Dev) (ch : Nat) : List Cand :=
  let copies := d.cells.filter fun p => copyEncodes p.2 && dixCh p.2.tdix == ch
  let progs := d.cells.filter fun p => progEncodes p.2 && dixCh p.2.dix == ch
  ((firstWaiting copies).toList ++ (firstWaiting progs).toList).map fun p =>
    { cls := p.2.qcls, grp := tenantGroup d (tTenant p.2.tkt), head := none, ctx := some p.1, since := p.2.wait }

/-- What a channel encodes next: between a COPY and a PROGRAM, by Slalom's class, group and age (R40, R116, R118, R232). -/
def encodeNext (d : Dev) (ch : Nat) : Option Nat :=
  let cs := encodeCands d ch
  match pickClass d ch cs with
  | none => none
  | some k =>
    let cs := cs.filter fun x => x.cls == k
    match (drrPick ch ((cs.map fun x => x.grp).eraseDups) d).1 with
    | none => none
    | some g => (oldest (cs.filter fun x => x.grp == g)).bind fun x => x.ctx

/-- A channel's encoder takes the PROGRAMs whose turn it is, until a COPY is next: the encode of a PROGRAM has no event of
its own. -/
def encodeProgs (ch : Nat) : Nat → Dev → Dev
  | 0, d => d
  | n + 1, d => match encodeNext d ch with
    | none => d
    | some k => if progEncodes (d.cell k) then encodeProgs ch n (encodeAll k d) else d

def encodeTurn (ch : Nat) (d : Dev) : Dev := encodeProgs ch (d.cells.filter fun p => progEncodes p.2).length d

/-- The data of a PROGRAM have all arrived (R195–R198): under a RAW profile the encoder is bypassed; else they wait for it. -/
def progArrived (c : Nat) (d : Dev) : Dev :=
  let x := d.cell c
  if !progEncodes x then d
  else if (cellProf d x).raw then encodeAll c d
  else
    let ch := dixCh x.dix
    let d := d.setCh ch { d.chn ch with tick := (d.chn ch).tick + 1 }
    encodeTurn ch (Dev.onCell c (fun x => { x with wait := (d.chn ch).tick }) d)

/-- Source clusters that offer codewords to the encoders of a cluster across the exchange. -/
def encodeClusters (d : Dev) (cl : Nat) : List Nat :=
  (List.range 8).filterMap fun i => (encodeNext d (8 * cl + i)).bind fun k =>
    if dixCl (d.cell k).dix = cl then none else some (dixCl (d.cell k).dix)

/-- COPY_ENCODE_END (R234): the channel's encoder serves its COPYs in Slalom order (R40), and what comes from other clusters
crosses the exchange in turn (R25, assumption 103). -/
def copyServed (k : Nat) (d : Dev) : Dev :=
  let x := d.cell k
  let a := dixCl x.dix
  let b := dixCl x.tdix
  let ch := dixCh x.tdix
  if encodeNext d ch != some k || !copyEncodes x then d
  else if a = b then encodeTurn ch (copyEncodeEnd k d)
  else if xchTurn d b (encodeClusters d b) = some a then encodeTurn ch (copyEncodeEnd k (xchGrant b a d))
  else d

/-! ### Reservations ahead of selection (R195) -/

/-- A PROGRAM takes its reservation as the head of its queue, or behind it as a ticket that could join the head's group
(R120, R195, assumption 87). -/
def fetchesNow (d : Dev) (k : Nat) : Bool :=
  let x := d.cell k
  match (d.queue (cellKey x)).head? with
  | none => false
  | some h => h == k || (tOpc x.tkt == opProgram && (groupBy d (dixCh x.dix) h fun _ _ => true).contains k)

/-- STAGING_RESERVE (R195): a head takes its reservation; a PROGRAM's fetch starts. -/
def stagingReserve (k : Nat) (d : Dev) : Dev :=
  let x := d.cell k
  if (look d.cells k).isNone || x.started || x.out.isSome || x.prof.isSome || !needsStaging x || tOpc x.tkt = opCopy ||
     !fetchesNow d k || d.adm.halted then d
  else if !check10 d x then finishQueued k { status := 0x60, detail := 6 } d
  else if !stagingFits d (dixCh x.dix) (stagingNeed d x.tkt) then d
  else
    let d := reserveHead k d
    if tOpc x.tkt = opProgram then fetchStart k d else d

end Sys2Proof.Machine
end

