-- ==== Sys2Proof/Machine/Calibration.lean ====
section
/-!
DEFINITION. PHY calibration (R270–R288): triggers, steps, checks, passing and aborted runs, calibration tickets' checks,
and the pad impedance search.
-/

namespace Sys2Proof.Machine

/-! ### The channel's temperature (R275, R378) -/

/-- TS_s.TEMP as an integer, in 0.5 °C. -/
def sensTemp (d : Dev) (s : Nat) : Int := signed 10 (d.rd (F.TS_TEMP.ix s))

/-- The neighbours of a sensor (R377). -/
def sensNear (s : Nat) : List Nat :=
  if s < 32 then
    let c := s / 8
    ((if s % 8 = 0 then [] else [s - 1]) ++ (if s % 8 = 7 then [] else [s + 1])) ++ [32 + 2 * c, 33 + 2 * c]
  else
    let c := (s - 32) / 2
    (if s % 2 = 0 then s + 1 else s - 1) :: (List.range 8).map (· + 8 * c)

def maxInt : List Int → Option Int
  | [] => none
  | a :: r => match maxInt r with
    | none => some a
    | some b => some (if a < b then b else a)

/-- The highest valid neighbour reading (R377, R378). -/
def nearTemp (d : Dev) (s : Nat) : Option Int :=
  maxInt (((sensNear s).filter fun n => d.rd (F.TS_STATE.ix n) == 0).map (sensTemp d))

/-- The temperature of a zone: its reading, or the substitute while one is in use; none when no neighbour is valid. -/
def zoneTemp (d : Dev) (s : Nat) : Option Int :=
  if d.on (F.TS_SUBST.ix s) then (nearTemp d s).map (· + 20) else some (sensTemp d s)

/-- The channel's temperature in 0.5 °C; a zone without a reading keeps its last. -/
def chHalf (d : Dev) (c : Nat) : Int := (zoneTemp d c).getD (sensTemp d c)

/-- The channel's temperature in whole °C, rounded down, as CAL_REF.TEMP holds it (R282). -/
def chTemp (d : Dev) (c : Nat) : Int := chHalf d c / 2

/-! ### State and triggers -/

def Dev.cal (d : Dev) (c : Nat) : CalSt := (d.chn c).cal

def Dev.setCal (d : Dev) (c : Nat) (x : CalSt) : Dev := d.setCh c { d.chn c with cal := x }

def calState (d : Dev) (c : Nat) : Nat := d.rd F.CAL_STAT_STATE c

/-- A run becomes forced (R277). -/
def calForce (c : Nat) (d : Dev) : Dev :=
  if (d.cal c).forced then d else (d.setCal c { d.cal c with forced := true }).inc F.CAL_CNT2_FORCED c

/-- The calibration's own context on a channel. -/
def calCtx (d : Dev) (c : Nat) : Option (Nat × Ctx) := (d.chn c).ctxs.find? fun p => p.2.work == .cal

/-- Withdraw a waiting step's request. -/
def calUnask (c : Nat) (d : Dev) : Dev :=
  match candidate d c with
  | some r => if r.who = .calStep then liftDrop c false d else d
  | none => d

/-- The run starts again from step 1 at the next gap, without an abort (R276, R288). -/
def calRestart (c : Nat) (d : Dev) : Dev :=
  calUnask c (d.setCal c { d.cal c with step := 1, more := [] })

/-- A new run is due (R275); one in progress has ended (R328). -/
def calBegin (c trig : Nat) (force : Bool) (d : Dev) : Dev :=
  let x := d.cal c
  let d := if calState d c = 3 then produce 0x75 d else d
  let d := calUnask c (d.setCal c { x with step := 1, trig := trig, forced := false, wasValid := calState d c == 1 || (calState d c != 0 && x.wasValid)
                                           long := x.long || trig == 2 || trig == 4, more := [] })
  let d := d.wr F.CAL_STAT_STATE 2 c
  if force then calForce c d else d

/-- A trigger of R275. Code 2 acts in every state (R277, R279, R288); a run in progress then ends at its step's boundary.
Code 3 leaves a backoff running (R278). -/
def calTrigger (c trig : Nat) (force : Bool) (d : Dev) : Dev :=
  let s := calState d c
  if trig = 2 then
    let d := if s = 5 then d.wr F.CAL_STAT_ABORTS 0 c else d
    let d := calBegin c 2 true d
    staleShow c (d.setCal c { d.cal c with hold := true, stale := true })
  else if s = 5 then d
  else if s = 2 ∨ s = 3 ∨ (s = 4 ∧ trig = 3) then
    let d := d.setCal c { d.cal c with long := (d.cal c).long || trig == 4 }
    if force then calForce c d else d
  else if trig < 2 ∧ (s = 4 ∨ !d.on F.CAL_CFG_AUTO c ∨ d.on F.TST_LBCTL_DEPTH c) then d
  else calBegin c trig force d

/-- The temperature trigger (R275, code 0). -/
def calTempTest (c : Nat) (d : Dev) : Dev :=
  let diff := chHalf d c - 2 * signed 8 (d.rd F.CAL_REF_TEMP c)
  let m : Int := 2 * d.rd F.CAL_CFG_DTEMP c
  if m < diff ∨ m < -diff then calTrigger c 0 false d else d

/-- CAL_RETRY (R279). -/
def calRetry (c : Nat) (d : Dev) : Dev :=
  if calState d c = 5 then calBegin c 3 false (d.wr F.CAL_STAT_ABORTS 0 c) else d

/-- CAL_BACKOFF_END (R278). -/
def calBackoffEnd (c : Nat) (d : Dev) : Dev :=
  if calState d c = 4 then (d.setCal c { d.cal c with step := 1 }).wr F.CAL_STAT_STATE 2 c else d

/-- CAL_GAP_TIMEOUT (R276): between two steps of a run. -/
def calGapTimeout (c : Nat) (d : Dev) : Dev :=
  if calState d c = 3 ∧ (calCtx d c).isNone ∧ 1 < (d.cal c).step then calRestart c d else d

/-- CAL_FORCE_TIMEOUT (R277). -/
def calForceTimeout (c : Nat) (d : Dev) : Dev :=
  if calState d c = 2 ∨ calState d c = 3 then calForce c d else d

/-- CAL_PERIOD_EXPIRY (R275, code 1). -/
def calPeriod (c : Nat) (d : Dev) : Dev := if d.on F.CAL_CFG2_PERIOD c then calTrigger c 1 false d else d

/-! ### Steps (R272, R274, R276) -/

/-- The stages of a run: 1 and 2 are step 1's routines, 3 to 6 are steps 2 to 5. -/
def calRix (stage : Nat) (long : Bool) : Nat :=
  match stage with
  | 1 => 0x031
  | 2 => 0x03A
  | 3 => if long then 0x050 else 0x051
  | 4 => 0x054
  | 5 => 0x052
  | _ => 0x053

/-- The feature addresses SET_TIMING and the step-1 read use: PRESUMED, the standards' timing-mode, driver-strength and
termination features (assumption 4). -/
def timingFeature : Nat := 0x01
def driverFeature : Nat := 0x10
def terminationFeature : Nat := 0x02

/-- A die holds no started or suspended ticket (R274). -/
def dieFree (d : Dev) (x : Nat) : Bool :=
  !dieHeld d x && (d.cells.all fun p => !(p.2.started && startedDie p.2 == x)) && (d.chn (dixCh x)).ctxs.all fun p => p.2.dix != x || p.2.cells.isEmpty

/-- The run's die (R274). -/
def calDie (d : Dev) (c : Nat) : Option Nat :=
  let pref := d.rd F.CAL_CFG_REFT c * 4 + d.rd F.CAL_CFG_REFL c
  ((List.range 32).map fun i => c * 32 + (pref + i) % 32).find? fun x => dieState d x == 1 && dieFree d x

/-- The lowest SERVICE LUN of each target that has one (R272, ALLT). -/
def calTargets (d : Dev) (c : Nat) : List Nat :=
  (List.range 8).filterMap fun t => ((List.range 4).map fun l => c * 32 + 4 * t + l).find? fun x => dieState d x == 1

/-- The calibration that ends an enumeration has ended: so has the enumeration (R252). -/
def enumDone (c : Nat) (d : Dev) : Dev :=
  match (d.chn c).enum with
  | none => d
  | some e =>
    if e.step ≠ 6 then d
    else { (((d.setCh c { d.chn c with enum := none }).wr F.CH_STAT_ENUMBUSY 0 c).wr F.CH_ENUM_GO 0 c).wr F.CH_ENUM_DONE 1 c with
      bootCh := clrBit d.bootCh c }

/-- The rate change waiting for this calibration is over (R249), and with it an enumeration, unless a further change is under
way. -/
def rechgEnd (c : Nat) (d : Dev) : Dev :=
  if (d.chn c).newRate.isSome || (d.chn c).rateWant then d else enumDone c (d.wr F.CH_STAT_RECHG 0 c)

def maxOf : List Nat → Nat
  | [] => 0
  | a :: r => max a (maxOf r)

/-- The timing-mode feature's value for a rate: an extended point uses that of the interface's highest published mode
(R250). -/
def timingCode (d : Dev) (c rate : Nat) : Nat :=
  let i := d.rd F.CH_STAT_IF c
  let ms := Config.timingModes i
  Config.timingMode i (if ms.contains rate then rate else maxOf ms)

/-- The parameters of SET_TIMING's three feature writes (R251): timing mode, driver strength, termination. -/
def timingParms (d : Dev) (c rate : Nat) : List Byte :=
  [BitVec.ofNat 8 (timingCode d c rate), 0, 0, 0, BitVec.ofNat 8 (d.rd F.CH_OPCFG_DDRV c), 0, 0, 0,
   BitVec.ofNat 8 (d.rd F.CH_OPCFG_DODT c), 0, 0, 0]

/-- The addresses of the three features, the first lowest. -/
def timingFeatures : Nat := timingFeature + 256 * driverFeature + 65536 * terminationFeature

/-- SET_TIMING of a die as work without a ticket (R249, R251). -/
def addTiming (c dix rate : Nat) (d : Dev) : Dev :=
  let x : Ctx := { work := .setTiming, dix := dix, cls := 3, cost := 6, rix := 0x058, feat := timingFeatures }
  (addCtx c { x with parms := timingParms d c rate } d).2

/-- A run aborts with a code (R278, R285). -/
def calAbort (c code : Nat) (d : Dev) : Dev :=
  let x := d.cal c
  let d := ((produce 0x75 d |>.wr F.CAL_STAT_LASTERR code c).inc F.CAL_STAT_ABORTS c).inc F.CAL_CNT_ABORTS c
  let d := calRecord x.die code x.trig 0 d
  let d := if code = 2 && !dieFenced d x.die then addTiming c x.die (d.rd F.CH_STAT_RATE c) d else d
  let x := { x with step := 0, forced := x.hold, more := [] }
  if d.rd F.CAL_CFG_AMAX c ≤ d.rd F.CAL_STAT_ABORTS c then
    raise (0x78 + chCl c) (rechgEnd c ((d.setCal c { x with hold := false, forced := false }).wr F.CAL_STAT_STATE 5 c))
  else (d.setCal c x).wr F.CAL_STAT_STATE 4 c

/-- A run for which no die qualifies at its first step aborts with code 7 (R274, R278); its record names no die: a free value
(R285, assumption 69). -/
def calNoDie (c : Nat) (d : Dev) : Dev :=
  let (v, d) := d.fresh
  calAbort c 7 (d.setCal c { d.cal c with die := v % 1024 })

/-- The next step of a run asks Lift in a gap (R276, R277, R132): rank 4, or 0 when forced. No run starts in a loopback
(R283). -/
def calAsk (c : Nat) (d : Dev) : Dev :=
  let x := d.cal c
  let s := calState d c
  if !(s == 2 || s == 3) || x.step = 0 || (calCtx d c).isSome || (candidate d c).isSome || d.on F.TH_STAT_HALT ||
     d.on F.FS_STAT_ACTIVE || d.fs.pfail || pmPending d || d.rd F.PAT_STAT_PHASE (chCl c) != 0 ||
     d.on F.TST_LBCTL_DEPTH c ||
     ((d.chn c).ctxs.any fun p => p.2.cells.isEmpty && (p.2.work == .setTiming || p.2.work == .enum)) then d
  else if !phyAwake d c then
    if x.forced && !(d.chn c).waking then liftAsk { ch := c, who := .wake, cost := 4, rank := 0 } d else d
  else
    let go := fun (d : Dev) => liftAsk { ch := c, who := .calStep, cost := 5, rank := if x.forced then 0 else 4 } d
    if x.step = 1 then
      if (calDie d c).isNone then calNoDie c d else go d
    else if dieState d x.die != 1 then calRestart c d
    else if dieFree d x.die then go d
    else d

/-- Set up and launch a stage of the run on a die. -/
def calLaunch (c stage dix : Nat) (d : Dev) : Nat × Dev :=
  let x : Ctx := { work := .cal, dix := dix, cls := 3, cost := 5, stage := stage, feat := timingFeature, rix := calRix stage (d.cal c).long }
  let (id, d) := addCtx c x d
  (id, (launch c id d).getD (dropCtx c id d))

/-- The dies a stage runs on (R272): with ALLT, steps 4 and 5 take every target's. -/
def calDies (d : Dev) (c stage die : Nat) : List Nat :=
  if 5 ≤ stage && d.on F.CAL_CFG_ALLT c then (match calTargets d c with | [] => [die] | xs => xs) else [die]

/-- A step's request is granted on its die (R272). -/
def calStep (c die : Nat) (d : Dev) : Option Nat × Dev :=
  let s := (d.cal c).step
  let ds := calDies d c s die
  let r := calLaunch c s (ds.headD die) (d.setCal c { d.cal c with more := ds.drop 1 })
  (some r.1, r.2)

/-- A step's request is granted (R272, R274): the answer names its context. Its die is chosen at step 1 and kept; one that no
longer stands in SERVICE starts the run again (R288), and one that holds a ticket meanwhile waits for the next gap. -/
def calGrant (c : Nat) (d : Dev) : Option Nat × Dev :=
  let x := d.cal c
  if x.step = 0 then (none, d)
  else if x.step = 1 then
    match calDie d c with
    | none => (none, calNoDie c d)
    | some die =>
      calStep c die ((d.setCal c { x with die := die, meas := { temp := wrapInt 8 (chTemp d c) } }).wr F.CAL_STAT_STATE 3 c)
  else if dieState d x.die != 1 then (none, calRestart c d)
  else if dieFree d x.die then calStep c x.die d
  else (none, d)

/-! ### What the steps measure -/

/-- The longest run of consecutive 1 bits, the lowest of equal ones: first position and length. -/
def longRun : Nat → Nat → Nat → Nat → Nat × Nat → Nat × Nat
  | 0, _, _, _, best => best
  | n + 1, i, m, len, best =>
    let len := if m.testBit i then len + 1 else 0
    longRun n (i + 1) m len (if best.2 < len then (i + 1 - len, len) else best)

def eyeRun (m : Nat) : Nat × Nat := longRun 128 0 (m % 2 ^ 128) 0 (0, 0)

/-- The eye as a mask of positions. -/
def eyeMask (m : Nat) : Nat := (2 ^ (eyeRun m).2 - 1) * 2 ^ (eyeRun m).1

def eyeWidth (m : Nat) : Nat := (eyeRun m).2

/-- The middle of the eye, rounded down. -/
def eyeMid (m : Nat) : Nat := ((eyeRun m).1 + ((eyeRun m).1 + (eyeRun m).2 - 1)) / 2

/-- VREF margin: the smaller distance from the middle to either edge (R272). -/
def vrefMargin (m : Nat) : Nat :=
  let r := eyeRun m
  min (eyeMid m - r.1) (r.1 + r.2 - 1 - eyeMid m)

def minEye (es : List Nat) : Nat := minL (es.map eyeWidth)

/-- The VREF codes a sweep can take: the current code ±24, within the range (R272, R268). -/
def vrefSweep (cur m : Nat) : Nat :=
  (List.range 101).foldl (fun a v => if m.testBit v && decide (cur ≤ v + 24) && decide (v ≤ cur + 24) then setBit a v else a) 0

/-- Merge the eyes of one more target (R272). -/
def mergeEyes (old new : List Nat) : List Nat :=
  if old.isEmpty then new.map eyeMask else (old.zip (new.map eyeMask)).map fun p => p.1 &&& p.2

/-- Take a stage's measurements into the record; the answer is the code of R278 that the stage fails, 0 for none. `status`
is the die's status byte and `p1` the timing-mode feature read. -/
def calTake (d : Dev) (c stage status p1 : Nat) (last : Bool) (q : CalMeas) (m : CalM) : CalM × Nat :=
  let bits := (q.bits ++ List.replicate 8 0).take 8
  let any := bits.foldl (fun a b => a &&& b) (2 ^ 128 - 1)
  match stage with
  | 1 => (m, if status.testBit 6 && status.testBit 5 then 0 else 1)
  | 2 => (m, if p1 = timingCode d c (d.rd F.CH_STAT_RATE c) % 256 then 0 else 2)
  | 4 => ({ m with dccRe := q.re % 32, dccDqs := q.dqs % 32 }, 0)
  | 5 =>
    let v := vrefSweep (d.rd F.CAL_STRB_VREF c) q.vmask
    let m := { m with rd := mergeEyes m.rd bits, vref := if m.rd.isEmpty then v else m.vref &&& v, rdqs := q.rdqs % 128 }
    (m, if any = 0 then 3 else if last && minEye m.rd < d.rd F.CAL_CFG2_MINEYE c then 4
        else if last && vrefMargin m.vref < d.rd F.CAL_CFG2_MINVM c then 5 else 0)
  | 6 =>
    let m := { m with wr := mergeEyes m.wr bits, wdqs := q.wdqs % 128 }
    (m, if any = 0 then 3 else if last && minEye m.wr < d.rd F.CAL_CFG2_MINEYE c then 4 else 0)
  | _ => (m, 0)

/-! ### Passing -/

def absDiff (a b : Nat) : Nat := (a - b) + (b - a)

/-- Check 6 of R278. -/
def jumpOk (d : Dev) (c : Nat) (m : CalM) : Bool :=
  let j := d.rd F.CAL_CFG2_MAXJUMP c
  j == 0 ||
  ((List.range 8).all (fun i => decide (absDiff (eyeMid (m.rd.getD i 0)) (d.rd (F.CAL_RDLY_D.ix i) c) ≤ j) &&
      decide (absDiff (eyeMid (m.wr.getD i 0)) (d.rd (F.CAL_WDLY_D.ix i) c) ≤ j)) &&
   decide (absDiff m.rdqs (d.rd F.CAL_STRB_RDQS c) ≤ j) && decide (absDiff m.wdqs (d.rd F.CAL_STRB_WDQS c) ≤ j) &&
   decide (absDiff (eyeMid m.vref) (d.rd F.CAL_STRB_VREF c) ≤ j))

/-- Targets of the duty, read and write steps (R272). -/
def targetsDuty (c : Nat) (m : CalM) (d : Dev) : Dev := (d.wr F.CAL_TDCC_RE m.dccRe c).wr F.CAL_TDCC_DQS m.dccDqs c

def targetsRead (c : Nat) (m : CalM) (d : Dev) : Dev :=
  let d := Dev.each (List.range 8) (fun i d => d.wr (F.CAL_TRDLY_D.ix i) (eyeMid (m.rd.getD i 0)) c) d
  (d.wr F.CAL_TSTRB_RDQS m.rdqs c).wr F.CAL_TSTRB_VREF (eyeMid m.vref) c

def targetsWrite (c : Nat) (m : CalM) (d : Dev) : Dev :=
  (Dev.each (List.range 8) (fun i d => d.wr (F.CAL_TWDLY_D.ix i) (eyeMid (m.wr.getD i 0)) c) d).wr F.CAL_TSTRB_WDQS m.wdqs c

/-- A passing run or kind-0 ticket (R273, R277, R279, R282–R284). -/
def calPassed (c : Nat) (m : CalM) (d : Dev) : Dev :=
  let d := gliding c (targetsWrite c m (targetsRead c m (targetsDuty c m d)))
  let d := Dev.each (List.range 8) (fun i d => d.wr (F.CAL_EYE_EYE.ix i) (eyeWidth (m.rd.getD i 0)) c) d
  let em := minEye m.rd
  let b := ((List.range 8).find? fun i => eyeWidth (m.rd.getD i 0) == em).getD 0
  let d := ((d.wr F.CAL_QUAL_EYEMIN em c).wr F.CAL_QUAL_EYEBIT b c).wr F.CAL_QUAL_VMARGIN (vrefMargin m.vref) c
  let d := (d.wr F.CAL_REF_TEMP m.temp c).wr F.CAL_REF_RATE (d.rd F.CH_STAT_RATE c) c
  let d := ((d.inc F.CAL_CNT_RUNS c).wr F.CAL_STAT_ABORTS 0 c).wr F.CAL_STAT_SRC 1 c
  staleShow c (d.setCal c { d.cal c with stale := false })

/-- The pending run, if any, is satisfied (R277, R288). -/
def calSatisfied (c : Nat) (d : Dev) : Dev :=
  let d := calUnask c (d.setCal c { d.cal c with step := 0, forced := false, hold := false, long := false, more := [] })
  rechgEnd c (d.wr F.CAL_STAT_STATE 1 c)

/-- A run has passed its last step (R273, R278 code 6, R285); the triggers are tested against the new reference (R288). -/
def calPass (c : Nat) (d : Dev) : Dev :=
  let x := d.cal c
  if x.wasValid && !jumpOk d c x.meas then calAbort c 6 d
  else calTempTest c (produce 0x75 <| calSatisfied c (calRecord x.die 0 x.trig (minEye x.meas.rd) (calPassed c x.meas d)))

/-- The end of a stage's routine in a run: the stage's next routine at once, the next step at a gap, or the run's end
(R272, R276). `ctx` has ended already. -/
def calStageEnd (c stage status p1 : Nat) (q : CalMeas) (d : Dev) : Dev :=
  let x := d.cal c
  if calState d c != 3 then d
  else
    -- the targets whose die has been fenced meanwhile are left out (R258)
    let more := x.more.filter fun y => !dieFenced d y
    let (m, code) := calTake d c stage status p1 more.isEmpty q x.meas
    let d := d.setCal c { x with meas := m }
    if code != 0 then calAbort c code d
    else match more with
      | y :: r => (calLaunch c stage y (d.setCal c { d.cal c with more := r })).2
      | [] =>
        if stage = 1 then (calLaunch c 2 x.die d).2
        else if stage = 6 then calPass c d
        else if pmPending d then calAbandon c d
        else d.setCal c { d.cal c with step := stage + 1 }

/-- A step's routine has ended early (R278 codes 9 and 10, R288). -/
def calEndedEarly (c : Nat) (code : Option Nat) (d : Dev) : Dev :=
  if calState d c != 3 then d
  else match code with
    | some k => calAbort c k d
    | none => calRestart c d

/-! ### Calibration tickets (R284) -/

/-- The stages of a CAL ticket's kind. -/
def calKindStages (kind : Nat) : List Nat :=
  match kind with
  | 0 => [1, 2, 3, 4, 5, 6]
  | 1 => [3]
  | 2 => [3]
  | 3 => [4]
  | 4 => [5]
  | 5 => [6]
  | _ => []

/-- The routine of a stage of a CAL ticket; a full run uses ZQ_LONG where the channel's next run would. -/
def calTicketRix (d : Dev) (c kind stage : Nat) : Nat := calRix stage (kind == 1 || (kind == 0 && (d.cal c).long))

/-- The record of a passing CAL ticket (R285). The duty step measures no eye, so its EYEMIN is a free value (assumption
69). -/
def calTicketRecord (dix kind : Nat) (m : CalM) (d : Dev) : Dev :=
  let (v, d) := d.fresh
  calRecord dix 0 5 (if kind = 3 then v % 256 else if kind = 5 then minEye m.wr else minEye m.rd) d

/-- What a passing CAL ticket leaves (R284). -/
def calTicketPass (c dix kind : Nat) (m : CalM) (d : Dev) : Dev :=
  let rec1 := calTicketRecord dix kind m
  match kind with
  | 0 =>
    let d := rec1 (calPassed c m d)
    if calState d c = 3 then d else calTempTest c (produce 0x75 <| calSatisfied c d)
  | 3 => rec1 (gliding c ((targetsDuty c m d).wr F.CAL_STAT_SRC 1 c))
  | 4 => rec1 (gliding c ((targetsRead c m d).wr F.CAL_STAT_SRC 1 c))
  | 5 => rec1 (gliding c ((targetsWrite c m d).wr F.CAL_STAT_SRC 1 c))
  | _ => d

/-! ### Restore (R286) -/

/-- A COMMIT has applied the trims `ts`, or CAL_REF: their targets take the committed values too, and a run in progress
ends. -/
def calRestore (c : Nat) (ts : List (Fld × Fld × Bool)) (d : Dev) : Dev :=
  let d := gliding c (Dev.each ts (fun t d => d.wr t.2.1 (d.rd t.1 c) c) d)
  let d := (calUnask c d).wr F.CAL_STAT_SRC 2 c
  let d := staleShow c (d.setCal c { d.cal c with stale := true })
  let d := match calCtx d c with
    | some (id, _) => closeCtx c id true d
    | none => d
  if calState d c = 5 then d
  else if d.rd F.CAL_REF_RATE c = d.rd F.CH_STAT_RATE c then
    calSatisfied c (if calState d c = 3 then produce 0x75 d else d)
  else calBegin c 4 true d

/-! ### Pad impedance (R270, R271) -/

/-- A write of PZQ_CTL.GO or a kind-6 ticket clears GIVEUP and ABORTS (R271), a search in progress or not. -/
def pzqCleared (cl : Nat) (d : Dev) : Dev := (d.wr F.PZQ_STAT_GIVEUP 0 cl).wr F.PZQ_STAT_ABORTS 0 cl

/-- A search starts; an automatic one needs GIVEUP clear. -/
def pzqStart (cl : Nat) (auto : Bool) (d : Dev) : Dev :=
  let d := if auto then d else pzqCleared cl d
  if auto && d.on F.PZQ_STAT_GIVEUP cl then d else d.wr F.PZQ_STAT_BUSY 1 cl

/-- The hottest channel sensor of a cluster, in 0.5 °C. -/
def zqHot (d : Dev) (cl : Nat) : Int := (maxInt ((List.range 8).map fun i => chHalf d (8 * cl + i))).getD 0

/-- The temperature case of R270; a failed search waits for its backoff (R271). -/
def zqTempTest (cl : Nat) (d : Dev) : Dev :=
  match (d.clu cl).zqTemp with
  | none => d
  | some t =>
    let m : Int := 2 * d.rd F.CAL_CFG_DTEMP (8 * cl)
    if d.on F.PZQ_STAT_BUSY cl || d.on F.PZQ_STAT_ABORTS cl || !(decide (m < zqHot d cl - t) || decide (m < t - zqHot d cl)) then d
    else pzqStart cl true d

/-- Contexts of kind-6 CAL tickets of a cluster that wait for its search. -/
def pzqTickets (d : Dev) (cl : Nat) : List (Nat × Nat) :=
  (List.range 8).flatMap fun i =>
    ((d.chn (8 * cl + i)).ctxs.filter fun (p : Nat × Ctx) => match p.2.cells.head? with
      | some k => tOpc (d.cell k).tkt == opCal && tArg (d.cell k).tkt == 6
      | none => false).map fun (p : Nat × Ctx) => (8 * cl + i, p.1)

/-- PZQ_SEARCH_END (R270, R271, R285): the codes the binary search ended at. R285 gives its record no trigger and no eye:
free values (assumption 69). A channel in a loopback keeps its trims: it gets no target (R283, R463). -/
def pzqEnd (cl pu pd : Nat) (d : Dev) : Dev :=
  if !d.on F.PZQ_STAT_BUSY cl then d
  else
    let d := (d.wr F.PZQ_STAT_BUSY 0 cl).wr F.PZQ_CTL_GO 0 cl
    let d := (d.wr F.PZQ_STAT_PU pu cl).wr F.PZQ_STAT_PD pd cl
    let bad := pu = 0 ∨ pu = 63 ∨ pd = 0 ∨ pd = 63
    let (v, d) := d.fresh
    let d := calRecord 0 (if bad then 8 else 0) (v % 8) (if bad then 0 else v / 8 % 256) d
    let d :=
      if bad then
        let d := raise (0x78 + cl) (((d.wr F.PZQ_STAT_ERR 1 cl).inc F.PZQ_STAT_ABORTS cl).inc F.PZQ_CNT_FAIL cl)
        if d.rd F.CAL_CFG_AMAX (8 * cl) ≤ d.rd F.PZQ_STAT_ABORTS cl then d.wr F.PZQ_STAT_GIVEUP 1 cl else d
      else
        let d := d.wr F.PZQ_STAT_ABORTS 0 cl
        let d := d.setClu cl { d.clu cl with zqTemp := some (zqHot d cl) }
        Dev.each ((List.range 8).filter fun i => !d.on F.TST_LBCTL_DEPTH (8 * cl + i)) (fun i d =>
          let c := 8 * cl + i
          gliding c (((d.wr F.CAL_TIMP_PU pu c).wr F.CAL_TIMP_PD pd c).wr F.CAL_TIMP_ODT pd c)) (d.inc F.PZQ_CNT_PASS cl)
    Dev.each (pzqTickets d cl) (fun p d => endCtx p.1 p.2 false (fun _ => { status := 0, detail := if bad then 8 else 0 }) d) d

/-- PZQ_BACKOFF_END (R271). -/
def pzqBackoffEnd (cl : Nat) (d : Dev) : Dev :=
  if d.on F.PZQ_STAT_ABORTS cl && !d.on F.PZQ_STAT_BUSY cl then pzqStart cl true d else d

end Sys2Proof.Machine
end

