-- ==== Sys2Proof/Machine/Dies.lean ====
section
/-!
DEFINITION. Die management: rates (R248, R249, R381), enumeration (R250–R253, R495, R496), recovery (R256), fencing
(R258–R262), the polling fallback (R261), and the checks of a remap commit (R265).
-/

namespace Sys2Proof.Machine

def chDies (c : Nat) : List Nat := (List.range 32).map (· + 32 * c)

/-- Recorded geometry (R496). -/
def hasGeom (d : Dev) (x : Nat) : Bool := d.rd F.DIE_GEOM1_PGLEN x != 0

/-- Dies that an enumeration found: in service, recovery, fenced or in probation, with recorded geometry (R249). -/
def enumerated (d : Dev) (x : Nat) : Bool := 1 ≤ dieState d x && dieState d x ≤ 4 && hasGeom d x

/-! ### Rates -/

def extRates : List Nat := [40, 44, 48]

/-- The rates a channel accepts: its interface's timing modes and the extended points; every interface's before one is
known (R248). -/
def chModes (d : Dev) (c : Nat) : List Nat :=
  let i := d.rd F.CH_STAT_IF c
  (if i = 0 then Config.timingModes 1 ++ Config.timingModes 2 ++ Config.timingModes 3 else Config.timingModes i) ++ extRates

/-- The rate cap of the throttle level in force, 0 for none; level 7 has no field of its own and keeps level 6's (R380,
R381). -/
def rateCap (d : Dev) : Nat :=
  let k := d.rd F.TH_STAT_LEVEL
  if k = 0 then 0 else d.rd (F.TH_LVL_RCAP.ix (min k 6))

/-- The rate a channel is to run at (R249, R381). -/
def wantRate (d : Dev) (c : Nat) : Nat :=
  let lim := min (d.rd F.CH_OPCFG_RATE c) (d.rd F.CH_STAT_MAXOK c)
  if lim = 0 ∨ d.rd F.CH_STAT_IF c = 0 then 0
  else
    let ms := chModes d c
    let top := if rateCap d = 0 then lim else min lim (rateCap d)
    let ok := ms.filter fun m => m ≤ top
    if ok.isEmpty then minL ms else maxOf ok

/-- A rate change is requested (R249). -/
def rateRequest (c : Nat) (d : Dev) : Dev := (d.setCh c { d.chn c with rateWant := true }).wr F.CH_STAT_RECHG 1 c

/-- The dies SET_TIMING runs on: enumerated and unfenced (R249). -/
def timingDies (d : Dev) (c : Nat) : List Nat := (chDies c).filter fun x => enumerated d x && !dieFenced d x

/-- The PHY switches rate and the calibration becomes due (R249). -/
def rateSwitch (c r : Nat) (d : Dev) : Dev :=
  calTrigger c 2 true ((d.setCh c { d.chn c with newRate := none }).wr F.CH_STAT_RATE r c)

/-- SET_TIMING on the next die that is not fenced, or the switch (R249, R258). -/
def timingNext (c : Nat) (d : Dev) : Dev :=
  let h := d.chn c
  match h.newRate, h.timing.filter (fun x => !dieFenced d x) with
  | none, _ => d
  | some r, x :: xs => addTiming c x r (d.setCh c { h with timing := xs })
  | some r, [] => rateSwitch c r d

/-- Begin a requested rate change at the channel's safe point (R249, R266, R395). A run in progress ends there, and the new
rate has its own (R288). -/
def rateGo (c : Nat) (d : Dev) : Dev :=
  let h := d.chn c
  if !h.rateWant || h.newRate.isSome || !h.ctxs.isEmpty || h.enum.any (·.step != 6) || !d.cclkOn || d.on F.FS_STAT_ACTIVE ||
     d.fs.pfail || (chDies c).any (fun x => dieState d x == 2) then d
  else
    let r := wantRate d c
    let d := d.setCh c { h with rateWant := false }
    if r = d.rd F.CH_STAT_RATE c then (if h.cal.hold then d else rechgEnd c d)
    else timingNext c (d.setCh c { d.chn c with newRate := some r, timing := timingDies d c })

/-- A throttle level or a COMMIT has changed what the channel should run at (R381). While a change runs, it is the rate that
change goes to that counts: another follows it (R395). -/
def rateCheck (c : Nat) (d : Dev) : Dev :=
  if wantRate d c != (d.chn c).newRate.getD (d.rd F.CH_STAT_RATE c) && d.rd F.CH_STAT_IF c != 0 then rateRequest c d else d

/-! ### Enumeration (R252) -/

def enumTgt (c t : Nat) : Nat := 32 * c + 4 * t

/-- Mark every unfenced LUN of a target (R252). -/
def markTarget (c t st : Nat) (d : Dev) : Dev :=
  Dev.each ((List.range 4).map (· + enumTgt c t)) (fun x d => if dieFenced d x then d else d.wr F.DIE_STAT_STATE st x) d

/-- A routine of an enumeration (R252), as work without a ticket. -/
def enumCtx (c dix rix feat len : Nat) (d : Dev) : Dev :=
  (addCtx c { work := .enum, dix := dix, cls := 3, cost := 6, rix := rix, feat := feat, len := len } d).2

def setEnum (c : Nat) (e : Option Enum) (d : Dev) : Dev := d.setCh c { d.chn c with enum := e }

/-- Rates every enumerated die of a channel declares (R249). -/
def commonRates (d : Dev) (c : Nat) : List Nat :=
  match (chDies c).filter (enumerated d) with
  | [] => []
  | x :: xs => (d.die x).rates.filter fun r => xs.all fun y => (d.die y).rates.contains r

/-- The targets are done: MAXOK, the interface, then SET_TIMING and the calibration, with which the enumeration ends (R249,
R252). -/
def enumFinish (c : Nat) (d : Dev) : Dev :=
  let before := d.rd F.CH_STAT_IF c
  let i := (((chDies c).filter (enumerated d)).map fun x => (d.die x).iface).headD 0
  let d := (d.wr F.CH_STAT_MAXOK (maxOf (commonRates d c)) c).wr F.CH_STAT_IF i c
  let d := if before = 0 && i != 0 && d.rd F.CH_STAT_MAXOK c < d.rd F.CH_OPCFG_RATE c then d.wr F.CH_STAT_RATECLIP 1 c else d
  let h := d.chn c
  let d := d.setCh c { h with rateWant := false, enum := h.enum.map fun e => { e with step := 6, luns := [], saved := [] } }
  if i = 0 then rechgEnd c d
  else timingNext c ((d.setCh c { d.chn c with newRate := some (wantRate d c), timing := timingDies d c }).wr F.CH_STAT_RECHG 1 c)

/-- Begin the next target from `t` on, or end (R252). A target with a FENCED LUN gets no target-level command (R496). -/
def enumFrom : Nat → Nat → Nat → Dev → Dev
  | 0, c, _, d => enumFinish c d
  | n + 1, c, t, d =>
    match (d.chn c).enum with
    | none => d
    | some e =>
      if 8 ≤ t then enumFinish c d
      else
        let ls := (List.range 4).map (· + enumTgt c t)
        let e := if t = e.target ∧ !e.saved.isEmpty then e else { e with target := t, saved := ls.map (dieSave d) }
        if ls.any (dieFenced d) then
          match ls.filter fun x => !dieFenced d x && hasGeom d x with
          | [] => enumFrom n c (t + 1) (setEnum c (some e) d)
          | x :: xs =>
            let e := { e with target := t, step := 5, luns := xs, first := if e.first = 0 then (d.die x).iface else e.first }
            enumCtx c x 0x042 0 0 (setEnum c (some e) d)
        else enumCtx c (enumTgt c t) 0x040 0 0 (setEnum c (some { e with target := t, step := 0, luns := [] }) d)

def enumNext (c : Nat) (d : Dev) : Dev :=
  match (d.chn c).enum with
  | none => d
  | some e => enumFrom 9 c (e.target + 1) d

/-- Enumeration of a channel starts, at SDR timing mode 0 (R252). -/
def enumStart (c : Nat) (boot : Bool) (d : Dev) : Dev :=
  let d := ((d.wr F.CH_STAT_ENUMBUSY 1 c).wr F.CH_ENUM_GO 1 c).wr F.CH_STAT_RATE 0 c
  enumFrom 9 c 0 (setEnum c (some { boot := boot, maxok := d.rd F.CH_STAT_MAXOK c }) d)

/-- The channel holds a queued or started ticket (R252, R467): a ticket that has ended and waits for its record is neither,
and a COPY is its source channel's, and its target channel's once started. -/
def chHolds (d : Dev) (c : Nat) : Bool :=
  (d.cells.any fun p => p.2.out.isNone && (dixCh p.2.dix == c || (p.2.started && tOpc p.2.tkt == opCopy && dixCh p.2.tdix == c))) ||
  (d.dq.any fun (p : Nat × List Nat) => dixCh (p.1 / 4) == c && !p.2.isEmpty)

/-- CH_ENUM_GO (R252). -/
def enumGo (c : Nat) (d : Dev) : Dev :=
  if chHolds d c || d.on F.CH_STAT_ENUMBUSY c then d.inc F.CH_ENUM_DROP c else enumStart c false d

/-- The extended points a vendor page declares for an interface (R250): those of its first record, which counts only at
version 1 (assumption 4). -/
def extPoints (iface : Nat) (page : List Byte) : Nat :=
  let recs := (List.range 32).map fun i => fitTo 32 0 ((page.drop (32 * i)).take 32)
  match recs.find? fun r => leAt r 0 4 == 0x50584246 && crc32c (r.take 28) == leAt r 28 4 with
  | none => 0
  | some r => if leAt r 4 1 ≠ 1 then 0 else if (leAt r 6 1 = 0 ∧ iface = 2) ∨ (leAt r 6 1 = 1 ∧ iface = 3) then leAt r 5 1 % 8 else 0

/-- Record the geometry of a target's LUNs, clipped to the limits of R253; a FENCED LUN keeps its own (R253, R496). -/
def recordGeom (c t : Nat) (p : Config.ParamPage) (d : Dev) : Dev :=
  let cap := 4 < p.luns ∨ 8 < p.planes ∨ 8192 < p.blocks
  let lay : Layout := { pageW := p.pageW, blkW := p.blkW, lunW := p.lunW, planeLo := p.planeLo, planeW := p.planeW }
  let one := fun (x : Nat) (d : Dev) =>
    let d := ((d.wr F.DIE_GEOM0_NPL (min p.planes 8 - 1) x).wr F.DIE_GEOM0_NBLK (min p.blocks 8192 - 1) x).wr F.DIE_GEOM0_PPB p.ppb x
    let d := ((d.wr F.DIE_GEOM1_PGLEN p.pglen x).wr F.DIE_GEOM1_CCYC p.ccyc x).wr F.DIE_GEOM1_RCYC p.rcyc x
    let d := ((d.put F.DIE_GEOM1_PPSTAT p.ppstat x).put F.DIE_GEOM1_SUSP p.susp x).put F.DIE_GEOM1_CACHE p.cache x
    let d := (d.wr F.DIE_GEOM1_XPT 0 x).put F.DIE_STAT_CAPPED cap x
    let d := d.setDie x { d.die x with iface := p.iface, layout := lay, rates := p.rates }
    if dieState d x = 4 then d else d.wr F.DIE_STAT_STATE 1 x
  let d := Dev.each ((List.range (min p.luns 4)).map (· + enumTgt c t)) (fun x d => if dieFenced d x then d else one x d) d
  Dev.each ((List.range (4 - min p.luns 4)).map (· + enumTgt c t + min p.luns 4))
    (fun x d => if dieFenced d x then d else d.wr F.DIE_STAT_STATE 0 x) d

/-- Apply a vendor page to a target's LUNs (R250). -/
def recordExt (c t : Nat) (page : List Byte) (d : Dev) : Dev :=
  Dev.each ((List.range 4).map (· + enumTgt c t)) (fun x d =>
    if dieState d x = 1 ∨ dieState d x = 4 then
      let b := extPoints (d.die x).iface page
      let y := d.die x
      (d.setDie x { y with rates := y.rates ++ (bitsOf 3 b).map fun i => 40 + 4 * i }).wr F.DIE_GEOM1_XPT b x
    else d) d

/-- Parameter pages are read 4,096 bytes at a time: the longest length a PARAM routine has (R43). -/
def pageBytesRead : Nat := 4096

/-- A routine of an enumeration has ended with these bytes (R252). -/
def enumStepEnd (c : Nat) (data : List Byte) (d : Dev) : Dev :=
  match (d.chn c).enum with
  | none => d
  | some e =>
    let t := e.target
    let x := enumTgt c t
    match e.step with
    | 0 => enumCtx c x 0x048 0x20 4 (setEnum c (some { e with step := 1 }) d)
    | 1 =>
      if data.take 4 = [0x4F, 0x4E, 0x46, 0x49] then enumCtx c x 0x049 0 pageBytesRead (setEnum c (some { e with step := 3, fam := 1 }) d)
      else enumCtx c x 0x048 0x40 5 (setEnum c (some { e with step := 2 }) d)
    | 2 =>
      if data.take 5 = [0x4A, 0x45, 0x44, 0x45, 0x43] then enumCtx c x 0x049 0 pageBytesRead (setEnum c (some { e with step := 3, fam := 2 }) d)
      else enumNext c (markTarget c t 0 d)
    | 3 => match Config.paramPage (e.fam = 2) data with
      | none => enumNext c (markTarget c t 5 d)
      | some p =>
        if p.iface = 0 ∨ 3 < p.iface ∨ p.pglen = 0 then enumNext c (markTarget c t 6 d)
        else if e.first ≠ 0 ∧ decide (e.first = 3) ≠ decide (p.iface = 3) then enumNext c (markTarget c t 7 d)
        else
          let d := recordGeom c t p d
          enumCtx c x 0x049 2 1024 (setEnum c (some { e with step := 4, first := if e.first = 0 then p.iface else e.first }) d)
    | 4 => enumNext c (recordExt c t data d)
    | _ =>
      match e.luns.filter (fun y => !dieFenced d y) with
      | [] => enumNext c d
      | y :: ys => enumCtx c y 0x042 0 0 (setEnum c (some { e with luns := ys }) d)

/-- A RESET_LUN of a target with a FENCED LUN has ended for a LUN: SERVICE, PROBATION kept, FAILED on a timeout (R496); one fenced
meanwhile stays FENCED (R253). -/
def enumLunEnd (c x : Nat) (timeout : Bool) (d : Dev) : Dev :=
  let d := if dieFenced d x then d else if timeout then d.wr F.DIE_STAT_STATE 5 x else if dieState d x = 4 then d else d.wr F.DIE_STAT_STATE 1 x
  enumStepEnd c [] d

/-- A routine of an enumeration timed out (R252): the target's LUNs are FAILED. -/
def enumTimeout (c x : Nat) (d : Dev) : Dev :=
  match (d.chn c).enum with
  | none => d
  | some e => if e.step = 5 then enumLunEnd c x true d else enumNext c (markTarget c e.target 5 d)

/-- A die of the target in hand has been fenced: the target is taken again as one that holds a FENCED LUN (R496). -/
def enumRetarget (c : Nat) (d : Dev) : Dev :=
  match (d.chn c).enum with
  | none => d
  | some e => enumFrom 9 c e.target d

/-- The routine is abandoned by a thermal halt: it is placed again (DEDUCED; R92 abandons the run, R252 goes on). -/
def enumAgain (c : Nat) (x : Ctx) (d : Dev) : Dev := enumCtx c x.dix x.rix x.feat x.len d

/-! ### Recovery (R256) -/

/-- After a status 0x30 other than detail 0x11. -/
def enterRecover (x : Nat) (d : Dev) : Dev :=
  if dieState d x = 1 ∨ dieState d x = 4 then d.wr F.DIE_STAT_STATE 2 x else d

/-! ### Fencing (R258, R259) -/

/-- The ready/busy group of a die (R242). -/
def rbGroup (x : Nat) : Nat := x % 32 / 16

/-- The dies of a group. -/
def groupDies (c g : Nat) : List Nat := (List.range 16).map (· + 32 * c + 16 * g)

/-- A context waits for its die to become ready. -/
def waitsReady (d : Dev) (c : Nat) (x : Ctx) : Bool :=
  x.st == .parked || (x.st == .running && (match nanoOf d c x with
    | some (_, _, w) => nwCyc w == 6
    | none => false)) || (x.st == .eligible && x.work == .suspend)

/-- Dies of a group known to be busy: with a context that waits, or in RECOVER. -/
def groupBusy (d : Dev) (c g : Nat) : List Nat :=
  (groupDies c g).filter fun x => !dieFenced d x && (dieState d x == 2 || (d.chn c).ctxs.any fun p => p.2.dix == x && waitsReady d c p.2)

/-- The fallback holds for a die (R254, BRCOND 9). -/
def inFallback (d : Dev) (x : Nat) : Bool := bit (d.rd F.CH_RB_FB (dixCh x)) (rbGroup x)

/-- A channel can use its bus and samples its ready/busy lines: neither in the fail-safe row nor in the PHY-off row (R245). -/
def rbSampled (d : Dev) (c : Nat) : Bool := !d.on F.FS_STAT_ACTIVE && phyAwake d c

/-- RB_N of a die's group is low with every unfenced die of the group known ready: the low is a fenced die's, and the
lowest-numbered one counts it (R260). -/
def heldLow (x : Nat) (d : Dev) : Dev :=
  let c := dixCh x
  let g := rbGroup x
  if bit (d.chn c).rb g || !d.live || !rbSampled d c || !(groupBusy d c g).isEmpty then d
  else match (groupDies c g).find? (dieFenced d) with
    | none => d
    | some y => d.inc F.DIE_FSTAT_RESP y

/-- A status byte of a fenced die on a target where only fenced LUNs could be driving (R260). -/
def fencedByte (x : Nat) (d : Dev) : Dev :=
  if d.live && !(d.chn (dixCh x)).ctxs.any fun p => p.2.dix / 4 == x / 4 && !dieFenced d p.2.dix && p.2.st == .running then
    d.inc F.DIE_FSTAT_RESP x
  else d

/-- A routine's commands reach a die: its own, or every LUN of the target where an enumeration's routine carries no LUN
address (R496). -/
def addresses (x : Ctx) (die : Nat) : Bool :=
  x.dix == die || (x.work == .enum && x.rix != 0x042 && x.dix / 4 == die / 4)

/-- The outcome of a context's tickets on a die now fenced (R259). -/
def fenceOutcome (x : Ctx) (y : Cell) : Outcome :=
  if y.st = 3 then { status := 0x31, detail := 6 }
  else if x.committed ∧ x.st ≠ .decoding then { status := 0x31, detail := 5 }
  else if x.work = .report then { status := 0x31, detail := 5 }
  else { status := 0x31, detail := 3 }

/-- A context's nanoword is a WAITRDY. -/
def atWait (d : Dev) (c : Nat) (x : Ctx) : Bool :=
  match nanoOf d c x with
  | some (_, _, w) => nwCyc w == 6
  | none => false

/-- One context of a die at its fence. A routine before its commit ends at its nanoword's end (R92); decodes go on. -/
def fenceCtx (c id : Nat) (d : Dev) : Dev :=
  match d.ctx c id with
  | none => d
  | some x =>
    if x.st = .running ∧ !(x.committed && atWait d c x) then d
    else match x.work with
      | .cal => calRestart c (closeCtx c id x.committed d)
      | .setTiming => timingNext c (closeCtx c id x.committed d)
      | .enum => enumRetarget c (closeCtx c id x.committed d)
      | .sanitise => closeCtx c id x.committed d
      | .target =>
        if x.committed then endCtx c id true (fun k => fenceOutcome x (d.cell k)) d
        else
          let d := closeCtx c id false d
          Dev.each x.cells (copyTargetLost · 0x31) d
      | w =>
        if x.st = .decoding ∧ w ≠ .report ∧ !waitsSoft d c id then d
        else endCtx c id (x.committed && x.st != .decoding) (fun k => fenceOutcome x (d.cell k)) d

/-- The fence takes effect (R259, R260, R61). -/
def fenceNow (x cause : Nat) (d : Dev) : Dev :=
  let c := dixCh x
  let d := fenceMark x cause d
  let d := match candidate d c with
    | some r => match r.who with
      | .start (k :: _) _ => if (d.cell k).dix = x then liftDrop c false d else d
      | _ => d
    | none => d
  let d := Dev.each ((d.chn c).ctxs.filter fun p => addresses p.2 x) (fun p d => fenceCtx c p.1 d) d
  let d := if (look d.upd.san x).isSome then
      { d with upd := { d.upd with san := del d.upd.san x } }.inc F.SAN_FAIL_SKIPPED else d
  let d := Dev.each ((List.range 4).flatMap fun q => d.queue (qkey x q)) (fun k d => finishQueued k { status := 0x31, detail := 2 } d) d
  let copies := (d.cells.filter fun p => tOpc p.2.tkt == opCopy && p.2.tdix == x && p.2.out.isNone &&
    (!p.2.started || (p.2.between && !p.2.onTgt && (p.2.ready || !copyHolds d p.2)))).map (·.1)
  heldLow x (Dev.each copies (copyTargetLost · 0x31) d)

/-- A routine addressed to a die runs past its commit point (R258). -/
def fenceWaits (d : Dev) (x : Nat) : Bool :=
  (d.chn (dixCh x)).ctxs.any fun p =>
    addresses p.2 x && p.2.st == .running && pastNow d (dixCh x) p.2 && !(p.2.committed && atWait d (dixCh x) p.2)

/-- Fence a die (R258, R266): at once, or at the boundary of a routine of it that runs past its commit point. -/
def fenceDie (x cause : Nat) (d : Dev) : Dev :=
  if dieFenced d x then d
  else if fenceWaits d x then d.setDie x { d.die x with fenceDue := some cause }
  else fenceNow x cause d

/-- The LUNs of a die's target. -/
def targetLuns (x : Nat) : List Nat := (List.range 4).map (· + x / 4 * 4)

/-- A routine has ended, parked or reached a WAITRDY: the fences of its target's LUNs that waited for it act (R258). -/
def fenceBoundary (x : Nat) (d : Dev) : Dev :=
  Dev.each (targetLuns x) (fun y d => match (d.die y).fenceDue with
    | none => d
    | some cause => if fenceWaits d y then d else fenceNow y cause d) d

/-- A read of a channel stands between two runs of its ladder or soft reads (R163). -/
def betweenRuns (d : Dev) (c : Nat) (p : Nat × Ctx) : Bool :=
  (p.2.st == .eligible && (p.2.work == .retry || p.2.work == .soft)) || (p.2.st == .decoding && waitsSoft d c p.1)

/-- Runs that became due on a die fenced meanwhile end (R163, R259). -/
def fenceSweep (c : Nat) (d : Dev) : Dev :=
  Dev.each ((d.chn c).ctxs.filter fun p => dieFenced d p.2.dix && betweenRuns d c p)
    (fun p d => fenceCtx c p.1 d) d

/-- RECOVERY_POLL (R256): a per-LUN status read by the recovery poll; `ns` is its bus time. A byte that a fenced die drives is
dropped and counted (R260). -/
def recoveryPoll (x status ns : Nat) (d : Dev) : Dev :=
  if dieFenced d x then fencedByte x d
  else if dieState d x != 2 || !rbSampled d (dixCh x) then d
  else
    let d := chargeSysBus ns d
    if !status.testBit 6 then d
    else
      let d := heldLow x ((d.wr F.DIE_STAT_STATE 1 x).inc F.DIE_STAT_TOCONS x)
      if d.on F.DIE_CFG_AUTOFENCE x && d.rd F.DIE_CFG_TOLIM x ≤ d.rd F.DIE_STAT_TOCONS x then fenceDie x 2 d else d

/-- RECOVERY_TIMEOUT (R256). -/
def recoveryTimeout (x : Nat) (d : Dev) : Dev := if dieState d x = 2 then fenceDie x 1 d else d

/-- DIE_ADMIT in PROBATION (R262). -/
def dieAdmit (x : Nat) (d : Dev) : Dev := if dieState d x = 4 then d.wr F.DIE_STAT_STATE 1 x else d

/-- The unfence command places a FENCED die in PROBATION (R262, R259). -/
def dieUnfence (x : Nat) (d : Dev) : Dev :=
  if dieFenced d x then telemetry 9 x (4 * 2 ^ 14) (d.wr F.DIE_STAT_STATE 4 x) else d

/-! ### Ready/busy groups (R242, R260, R261) -/

def setRb (c g : Nat) (v : Bool) (d : Dev) : Dev := d.setCh c { d.chn c with rb := putBit (d.chn c).rb g v }

/-- RB_N_FALL (R260). -/
def rbFall (c g : Nat) (d : Dev) : Dev := heldLow (32 * c + 16 * g) (setRb c g false d)

/-- RB_FALLBACK_ENTRY (R261). -/
def fallbackEnter (c g : Nat) (d : Dev) : Dev :=
  if !rbSampled d c || bit (d.rd F.CH_RB_FB c) g || bit (d.chn c).rb g || !(groupBusy d c g).isEmpty then d
  else raise (0x74 + chCl c) ((d.wr F.CH_RB_FB (setBit (d.rd F.CH_RB_FB c) g) c).inc F.CH_CNT_FBENTRY c)

/-- RB_FALLBACK_QUIET (R261). -/
def fallbackQuiet (c g : Nat) (d : Dev) : Dev :=
  if rbSampled d c && bit (d.chn c).rb g && d.on F.CH_RB_AUTOEXIT c then d.wr F.CH_RB_FB (clrBit (d.rd F.CH_RB_FB c) g) c else d

/-! ### The die window's commit (R265) -/

/-- The values of the die window a COMMIT would leave. -/
structure DieNext where
  /-- The die's entry is pending. -/
  pend : Nat → Bool
  spare : Nat → Bool
  v : Nat → Bool
  tgt : Nat → Nat
  /-- The commit of R409: a FENCED die without recorded geometry is not compared. -/
  boot : Bool := false

/-- The code of R265 for a die's entry, 0 when it passes: codes 1 to 6 for a pending entry, 7 for any valid one. `ds` are
the dies of the instance. -/
def mapCode (d : Dev) (n : DieNext) (ds : List Nat) (x : Nat) : Nat :=
  let t := n.tgt x
  if !n.v x then 0
  else if n.pend x && !enumerated d t then 1
  else if n.pend x && !n.spare t then 2
  else if n.pend x && n.spare x then 3
  else if n.pend x && n.v t then 4
  else if n.pend x && ds.any (fun y => y != x && n.v y && n.tgt y == t) then 5
  else if n.pend x && !(n.boot && dieFenced d x && !hasGeom d x) &&
      (d.rd F.DIE_GEOM0_NPL t != d.rd F.DIE_GEOM0_NPL x || d.rd F.DIE_GEOM0_NBLK t != d.rd F.DIE_GEOM0_NBLK x ||
        d.rd F.DIE_GEOM0_PPB t != d.rd F.DIE_GEOM0_PPB x || d.rd F.DIE_GEOM1_PGLEN t != d.rd F.DIE_GEOM1_PGLEN x ||
        d.rd F.LM_DIE_MODE t != d.rd F.LM_DIE_MODE x) then 6
  else if d.on F.DIE_CFG_SPARE t && !n.spare t then 7
  else 0

/-- SPAREUSED follows the table (R267). -/
def spareUsed (ds : List Nat) (d : Dev) : Dev :=
  Dev.each ds (fun x d => d.put F.DIE_STAT_SPAREUSED (ds.any fun y => d.on F.DIE_MAP_V y && d.rd F.DIE_MAP_TGT y == x) x) d

end Sys2Proof.Machine
end

