-- ==== Sys2Proof/Machine/Sequencer.lean ====
section
/-!
DEFINITION. The channel sequencers (R77–R103): how a nanoword ends, how a routine parks, restarts, commits and ends, and
what its end does for its tickets or for the unit it works for (R92, R97, R99–R103, R160, R201–R207, R237, R254–R257).
-/

namespace Sys2Proof.Machine

/-! ### Illegal states and traps (R102, R103) -/

/-- A fault of a sequencer: the running tickets end, the flag and the address are recorded, the one before a match redirects
it (assumption 111), and Rinva enters fail-safe. -/
def seqFault (c id det cause link : Nat) (flag : Fld) (d : Dev) : Dev :=
  let a := match d.ctx c id with
    | some x => x.mw
    | none => 0
  let past := match d.ctx c id with
    | some x => pastNow d c x
    | none => false
  let d := (d.wr flag 1 c).wr F.SEQ_FADDR_ADDR a c
  let cells := match d.ctx c id with
    | some x => x.cells
    | none => []
  let d := endCtx c id past (fun _ => { status := 0x7F, detail := det }) d
  let man := d.on F.PFM_STAT_ARMED
  let d := Dev.each cells (fun k d => Dev.onCell k (fun y => { y with manifest := man }) d) d
  -- R461 names the machine of an illegal state
  enterFailSafe cause (if cause = 1 then 1 else 0) (if cause = 1 then c else 0) (safeLink link d)

/-- An illegal state in a routine (R82, R103): fail-safe cause 1. -/
def illegalState (c id : Nat) (d : Dev) : Dev := seqFault c id 0x22 1 7 F.SEQ_FAULT_ILLEGAL d

/-- A trap (R102): fail-safe cause 4. -/
def seqTrap (c id : Nat) (d : Dev) : Dev := seqFault c id 0x20 4 9 F.SEQ_FAULT_TRAP d

/-! ### Ends without a ticket -/

/-- Why a routine without a ticket ended early. -/
inductive Early
  | timeout
  | link
  | fenced
  | halted
deriving DecidableEq, Repr

/-- The unit a routine without a ticket worked for goes on (R252, R249, R278, R288, R433). -/
def earlyEnd (c : Nat) (x : Ctx) (e : Early) (d : Dev) : Dev :=
  match x.work with
  | .cal => calEndedEarly c (match e with | .timeout => some 9 | .link => some 10 | _ => none) d
  | .enum => match e with
    | .halted => enumAgain c x d
    | .fenced => enumRetarget c d
    | _ => enumTimeout c x.dix d
  | .setTiming =>
    -- a timeout during enumeration marks the target's LUNs (R252)
    timingNext c (if e = .timeout ∧ (d.chn c).enum.isSome then markTarget c (x.dix % 32 / 4) 5 d else d)
  | .sanitise =>
    -- a die fenced meanwhile is counted already, and a sanitise that has ended counts nothing (R433)
    let mine := (look d.upd.san x.dix).isSome
    let d := { d with upd := { d.upd with san := del d.upd.san x.dix } }
    if e = .timeout || !mine then d else d.inc F.SAN_FAIL_SKIPPED
  | _ => d

/-- End a routine early: the outcome for its tickets, or its unit's own course. `keep` leaves the ARRAY tokens to their
timeout (R131). -/
def endEarly (c id : Nat) (keep : Bool) (e : Early) (o : Nat → Outcome) (d : Dev) : Dev :=
  match d.ctx c id with
  | none => d
  | some x => match x.cells with
    | [] => fenceBoundary x.dix (earlyEnd c x e (closeCtx c id keep d))
    | _ => fenceBoundary x.dix (endCtx c id keep o d)

/-- A type 0x6 record of each ticket that ends with status 0x30 (R257). -/
def timeoutRecords (x : Ctx) (past : Bool) (d : Dev) : Dev :=
  Dev.each x.cells (fun k d => telemetryOf k 6 (tDix (d.cell k).tkt) (x.tocls % 8 * 2 ^ 15 + b2n past * 2 ^ 14) d) d

/-- End with a die timeout before the commit point: the restart limit (R97, R237 row 4, R256). -/
def timeoutLimit (c id : Nat) (byBranch : Bool) (d : Dev) : Dev :=
  match d.ctx c id with
  | none => d
  | some x =>
    let d := timeoutRecords x false d
    let d :=
      if x.work = .target ∧ !byBranch then fenceBoundary x.dix (Dev.each x.cells (copyTargetLost · 0x30) (closeCtx c id false d))
      else endEarly c id false .timeout (fun _ => { status := 0x30, detail := 0x10 }) d
    if x.work = .enum then d else enterRecover x.dix d

/-! ### Restarts (R93, R97) -/

/-- What asks for a restart. -/
inductive Restart
  | link
  | timeout
  | branch
deriving DecidableEq, Repr

/-- The context as a restart leaves it (R93). -/
def ctxRestarted (x : Ctx) : Ctx :=
  { x with stack := [], loop := 0, status := 0, reentry := none, restarts := x.restarts + 1
           linkErr := false, left := x.planes, dout := [], cuts := [], stats := [], mw := x.entry }

/-- The gap of R93 in half PHY periods. -/
def gapUnits (d : Dev) (c : Nat) : Nat := d.rd F.SEQ_CFG_RSTGAP c * 16 * 2 * 2 ^ d.rd F.SEQ_CFG_TDIV c

/-- A routine restarts, or is abandoned for good at the limit (R93, R97). A parked one has no nanoword on the bus and takes
neither step 2 nor step 3 of R93 (assumption 96). -/
def restartRun (c id : Nat) (r : Restart) (d : Dev) : Dev :=
  match d.ctx c id with
  | none => d
  | some x =>
    if d.rd F.SEQ_CFG_RSTMAX c ≤ x.restarts then
      let d := d.wr F.SEQ_FAULT_RSTLIM 1 c
      if r = .link then endEarly c id false .link (fun _ => { status := 0x7F, detail := 0x21 }) d
      else timeoutLimit c id (r == .branch) d
    else
      let d := dropPartial c id (fun _ => true) (d.inc F.SEQ_RSTCNT_RESTARTS c)
      let y := ctxRestarted x
      if x.st = .running then
        let d := d.setCtx c id { y with st := .gap, units := y.units + gapUnits d c }
        setPads { (d.chn c).pads with ceN := 0xFF } c (d.wr F.SEQ_STAT_STATE 3 c)
      else seqParked c (nowReady c id (d.setCtx c id { y with st := .ready, rerun := true }))

/-! ### Commit (R90, R91, R212, R346) -/

/-- The energy coefficient of a run's commit (R346): 5 ARD, 6 APG, 7 AER. -/
def commitCoef (opc : Nat) (w : Work) : Option Nat :=
  if w = .retry ∨ w = .soft then some 5
  else if w = .target then some 6
  else if w = .first then
    if opc = opRead ∨ opc = opCopy then some 5 else if opc = opProgram then some 6 else if opc = opErase then some 7 else none
  else none

/-- The array energy of a run, divided among a group's tickets, the remainder to the first (R344). -/
def chargeCommit (cells : List Nat) (i : Nat) (d : Dev) : Dev :=
  let e := ecoef d i
  let ws := busWeights d cells
  let parts := ws.map fun w => e * w / sumL ws
  let parts := match parts with
    | [] => []
    | p :: ps => (p + (e - sumL parts)) :: ps
  Dev.each (cells.zip parts) (fun p d => chargeEnergy (tTenant (d.cell p.1).tkt) p.2 d) d

/-- What reaching the commit point does for the tickets. -/
def commitHook (c id : Nat) (d : Dev) : Dev :=
  match d.ctx c id with
  | none => d
  | some x => match x.cells.head? with
    | none => d
    | some k0 =>
      let opc := tOpc (d.cell k0).tkt
      let again := 0x020 ≤ x.rix && x.rix ≤ 0x023
      let d := match (if again then none else commitCoef opc x.work) with
        | some i => chargeCommit x.cells i d
        | none => d
      let d := if d.rd F.TST_LBCTL_DEPTH c = 5 ∧ (x.work = .target ∨ (x.work = .first ∧ (opc = opProgram ∨ opc = opErase))) then
          d.setCh c { d.chn c with echoOps := (d.chn c).echoOps + 1 } else d
      if x.work = .target ∨ (x.work = .first ∧ opc ≠ opCopy) then
        Dev.each x.cells (fun k d =>
          let y := d.cell k
          if y.committed then d
          else
            let d := d.setCell k { y with committed := true }
            if tOpc y.tkt = opProgram ∨ tOpc y.tkt = opCopy then takeStart k (memberCodes d y (x.work == .target)) d else d) d
      else d

/-! ### Parking (R78, R127) -/

/-- The bus is released: bus time, IO tokens, a Glide point, and a fence that waited (R78, R98, R131, R258, R280). -/
def parkBus (c id : Nat) (d : Dev) : Dev :=
  match d.ctx c id with
  | none => d
  | some x =>
    let d := seqParked c (busFree c id (freeIO c id (chargeRun c id d)))
    fenceBoundary x.dix (glidePoint c d)

/-- Park at a WAITRDY (R78). -/
def parkWait (c id tocls : Nat) (d : Dev) : Dev :=
  match d.ctx c id with
  | none => d
  | some x =>
    let hang := d.rd F.TST_LBCTL_DEPTH c = 5 ∧ d.on F.TST_ECHOINJ_HANG c
    let d := if hang then d.wr F.TST_ECHOINJ_HANG 0 c else d
    parkBus c id (d.setCtx c id { x with st := .parked, tocls := tocls, hang := x.hang || hang })

/-- Another candidate of the same or a lower class number is eligible (R127). -/
def otherCandidate (d : Dev) (c id cls : Nat) : Bool :=
  (candidates d c).any fun y => y.cls ≤ cls && y.ctx != some id

/-- A context reaches a microword (R80, R83, R78, R127, R102): its nanoword begins, and a fence that waits acts where it is a
WAITRDY past commit (R258, R259). `m` is the reading of the words where they come from a store. A context without a ticket
is never sliced (assumption 82). What the loader refuses in a nanoword is an illegal state here as well (assumption 97). -/
def arrive (c id t : Nat) (m : Mem) (d : Dev) : Dev :=
  match d.ctx c id with
  | none => d
  | some x =>
    let d := d.setCtx c id { x with mw := t }
    let m := memFinds d 11 m
    let d := if fromStore d (chCl c) t then readMem 11 m d else d
    if fromStore d (chCl c) t && m.isUe then seqTrap c id d
    else match nanoOf d c { x with mw := t } with
      | none => illegalState c id d
      | some (a, mw, w) =>
        if !nwLegal w || mwSeq mw > 6 then illegalState c id d
        else
          let slice := d.rd F.SLM_CFG_SLICE c
          if mwSeq mw = 6 && slice != 0 && decide (slice * 100 ≤ unitsNs (d.rd F.CH_STAT_RATE c) x.units) && !x.cells.isEmpty &&
             otherCandidate d c id x.cls then
            parkBus c id (nowReady c id (d.setCtx c id { x with mw := t, st := .sliced }))
          else
            let d := traceMw c a d
            let y := { x with mw := t }
            let d := nanoBegin c id (showRun c y (d.setCtx c id y))
            if nwCyc w != 6 then d
            else if nwPark w then parkWait c id (waitClass d c w) d
            else
              let d := if d.rd F.TST_LBCTL_DEPTH c == 5 && d.on F.TST_ECHOINJ_HANG c then
                  Dev.onCtx c id (fun x => { x with hang := true }) (d.wr F.TST_ECHOINJ_HANG 0 c) else d
              if x.committed then fenceBoundary x.dix d else d

/-! ### Ends -/

/-- The callbacks of the read path: the source side of a COPY, and whether a power fail has been recognised (R163). -/
def readOn (c id : Nat) (d : Dev) : Dev := readProgress sourceSettled d.fs.pfail c id d

/-- The bytes of a run's bursts, for READID, PARAM and enumeration. -/
def runBytes (x : Ctx) : List Byte := x.dout.flatMap (·.2)

/-- Deliver the bytes of a READID or PARAM ticket to DBUF (R43, R38). -/
def deliverBytes (k : Nat) (b : List Byte) (d : Dev) : Dev :=
  let x := d.cell k
  Dev.each (pieces (tDbuf x.tkt) b.length) (fun q d =>
    request (dixCl x.dix) true
      { what := .readData k 0 0 false, addr := q.1, len := q.2.2, kind := .data, data := (b.drop q.2.1).take q.2.2 }
      (Dev.onCell k (fun x => { x with writes := x.writes + 1 }) d)) d

/-- The end of a read run (R121, R147, R153, R155, R344): its codewords are being decoded. -/
def readRunEnd (c id : Nat) (x : Ctx) (d : Dev) : Dev :=
  let d := chargeRun c id d
  let d := freeArray c id (freeIO c id d)
  let d := busFree c id d
  let steps := x.work = .retry ∨ x.work = .soft
  let d := if x.work = .retry then d.incW F.RTYCNT_CNT (chCl c) else d
  let d := match cellOfPlane d x x.plane with
    | some k => if steps then
        let d := charge (tTenant (d.cell k).tkt) .retries 1 d
        if x.work = .retry then Dev.onCell k (fun y => { y with retry := max y.retry x.step }) d else d
      else d
    | none => d
  let depth := match cellOfPlane d x x.plane with
    | some k => (cellProf d (d.cell k)).softd
    | none => 0
  let d := dropPartial c id (fun _ => true) (readEnded c x d)
  -- tickets that ended while the routine ran leave the context with it (R100, R163)
  let left := x.cells.filter fun k => (d.cell k).out.isNone
  let spoiled := left.filter fun k => (d.cell k).rxUe && ((cellProf d (d.cell k)).raw || x.work == .soft)
  let d := Dev.onCtx c id (fun y => { y with st := .decoding, committed := false, cells := left }) d
  let d :=
    if left.isEmpty then closeCtx c id false d
    else if x.work = .soft ∧ d.fs.pfail then endCtx c id false (fun _ => { status := 0x40, detail := 1 }) d
    else if x.work = .soft ∧ x.pos < 2 * depth ∧ spoiled = [] then placeRun c id .soft 0 x.plane (x.pos + 1) d
    else
      let d := Dev.each spoiled (fun k d => readFault c id k { status := 0x7F, detail := 0x30 } (d.inc F.RD_UECNT_STAGE)) d
      if x.work = .soft then d else readOn c id (ladderRecord c id d)
  latchDue c (fenceSweep c (glidePoint c d))

/-- Whether a ticket's own planes failed, and whether the status was aggregate (R201). -/
def planeFail (d : Dev) (x : Ctx) (dix planes : Nat) : Bool × Bool :=
  if d.on F.WR_CFG_PPSTAT (dixCh dix) && d.on F.DIE_GEOM1_PPSTAT dix then
    (x.stats.any fun p => bit planes p.1 && p.2.testBit 0, false)
  else (x.status.testBit 0, x.status.testBit 0)

/-- Report the array program of a cache sequence's earlier ticket (R202): FAILC is bit 1 of the status (PRESUMED). -/
def reportPred (c : Nat) (pred : Option Nat) (fail : Bool) (d : Dev) : Dev :=
  match pred with
  | none => d
  | some id => match d.ctx c id with
    | none => d
    | some y => match y.cells with
      | k :: _ =>
        let r := writeOutcome k fail true (y.busy / 1000) d
        endCtx c id false (fun _ => r.1) r.2
      | [] => dropCtx c id d

/-- The end of a PROGRAM or ERASE routine (R201–R203). A ticket inside a cache sequence waits for its report. -/
def writeRunEnd (c id : Nat) (x : Ctx) (d : Dev) : Dev :=
  let d := reportPred c x.pred (x.status.testBit 1) d
  if x.cache then
    let d := busFree c id (freeIO c id (chargeRun c id d))
    glidePoint c (Dev.onCtx c id (fun y => { y with st := .decoding, work := .report, cost := 6, pred := none }) d)
  else
    let d := closeCtx c id true d
    Dev.each x.cells (fun k d =>
      let y := d.cell k
      let f := planeFail d x x.dix (tPlanes y.tkt)
      let r := writeOutcome k f.1 f.2 (x.busy / 1000) d
      releaseStaging k (finishStarted k r.1 r.2)) d

/-- The end of a COPY's target side (R237, R238). -/
def targetRunEnd (c id : Nat) (x : Ctx) (d : Dev) : Dev :=
  let d := closeCtx c id true d
  Dev.each x.cells (fun k d =>
    let y := d.cell k
    let f := planeFail d x x.dix (tTplanes y.tkt)
    if !f.1 then releaseStaging k (finishStarted k (copyPassed y) d)
    else
      let r := holdKeep k true (memberFail y (d.inc F.WR_CNT_PFAIL c))
      let d := telemetryOf k 4 (tTdix y.tkt) (tTblock y.tkt * 32 + b2n f.2 * 16 + b2n r.1.isSome * 8 + r.1.getD 0 * 2) r.2
      releaseStaging k (finishStarted k { status := 0x20, detail := failDetail r.1 f.2 } d)) d

/-- A suspend completes (R101, R124): cell STATE 3, the ARRAY tokens free, one more suspend. -/
def suspendEnd (c id : Nat) (x : Ctx) (d : Dev) : Dev :=
  let d := freeArray c id (freeIO c id (chargeRun c id d))
  let d := busFree c id d
  let d := Dev.each x.cells (fun k d => Dev.onCell k (fun y => { y with st := 3, susp := y.susp + 1 }) d) d
  let d := d.inc F.SLM_CNT_SUSPENDS c
  let h := d.chn c
  let d := d.setCh c { h with burst := del h.burst x.dix }
  let w : Work := match x.cells.head? with
    | some k => if (d.cell k).onTgt then .target else .first
    | none => .first
  let d := Dev.onCtx c id (fun y => { y with st := .suspended, work := w, susping := false, suspAsk := false, minrun := false
                                             committed := true, due := false }) d
  let d := fenceBoundary x.dix (glidePoint c (seqParked c d))
  -- a power fail recognised meanwhile finds it suspended (R219)
  if d.fs.pfail then powerFailEnd c id (fun _ => { status := 0x41, detail := 3 }) d else d

/-- A CAL ticket's context takes a stage of its kind on the stage's first die (R272, R284). -/
def calTicketStage (d : Dev) (c kind stage die : Nat) (x : Ctx) : Ctx :=
  let ds := calDies d c stage die
  { x with stage := stage, dix := ds.headD die, more := ds.drop 1, rix := calTicketRix d c kind stage }

/-- The end of a CAL ticket's routine (R284): the stage's next die, the next stage, or the ticket's end. -/
def calTicketEnd (c id : Nat) (x : Ctx) (q : CalMeas) (k : Nat) (d : Dev) : Dev :=
  let kind := tArg (d.cell k).tkt
  let die := (d.cell k).dix
  let (m, code) := calTake d c x.stage x.status ((x.scratch.getD 0 0).toNat) x.more.isEmpty q x.meas
  let done := fun (o : Outcome) (d : Dev) => endCtx c id x.committed (fun _ => o) d
  let loop := d.on F.TST_LBCTL_DEPTH c
  if code != 0 then
    done { status := 0, detail := code } (if kind = 0 ∨ 3 ≤ kind then calRecord die code 5 0 d else d)
  else match x.more with
  | y :: r => (launch c id (Dev.onCtx c id (fun z => { z with meas := m, dix := y, more := r }) d)).getD d
  | [] => match (calKindStages kind).find? fun s => x.stage < s with
    | some s =>
      let d := freeIO c id (chargeRun c id d)
      let same := x.stage = 1
      let d := Dev.onCtx c id (fun y => calTicketStage d c kind s die { y with meas := m }) d
      if same then (launch c id d).getD d
      else
        let d := busFree c id d
        glidePoint c (nowReady c id (Dev.onCtx c id (fun y => { y with st := .eligible, cost := 5, committed := false }) d))
    | none =>
      if loop then done { status := 0 } (if kind = 0 ∨ 3 ≤ kind then calTicketRecord die kind m d else d)
      else done { status := 0 } (calTicketPass c die kind m d)

/-- A routine reaches END (R81, R89, R103). -/
def routineEnd (c id : Nat) (q : CalMeas) (d : Dev) : Dev :=
  match d.ctx c id with
  | none => d
  | some x =>
    let d :=
      if x.susping then suspendEnd c id x d
      else if x.spoiled && !x.cells.isEmpty then
        endCtx c id x.committed (fun _ => { status := 0x7F, detail := 0x30 }) (reportPred c x.pred (x.status.testBit 1) d)
      else match x.work, x.cells with
      | .cal, _ => calStageEnd c x.stage x.status ((x.scratch.getD 0 0).toNat) q (closeCtx c id x.committed d)
      | .enum, _ =>
        let d := closeCtx c id x.committed d
        if x.rix = 0x042 then enumLunEnd c x.dix false d else enumStepEnd c (runBytes x) d
      | .setTiming, _ => timingNext c (closeCtx c id x.committed d)
      | .sanitise, _ =>
        let d := closeCtx c id true d
        let d := if x.status.testBit 0 then d.inc F.SAN_FAIL_EFAIL else d.inc F.SAN_CNT_ERASED
        let b := x.blk + 1
        if (look d.upd.san x.dix).isSome && b ≤ min d.upd.sanLast (d.rd F.DIE_GEOM0_NBLK x.dix) then
          let d := { d with upd := { d.upd with san := ins d.upd.san x.dix b } }
          (addCtx c { work := .sanitise, dix := x.dix, cls := 3, cost := 2, rix := 0x019, blk := b, planes := x.planes } d).2
        else { d with upd := { d.upd with san := del d.upd.san x.dix } }
      | .report, k :: _ =>
        if x.status.testBit 6 && x.status.testBit 5 then
          let r := writeOutcome k (x.status.testBit 0) true (x.busy / 1000) d
          endCtx c id false (fun _ => r.1) r.2
        else
          let d := busFree c id (freeArray c id (freeIO c id (chargeRun c id d)))
          Dev.onCtx c id (fun y => { y with st := .decoding, committed := true }) d
      | .target, _ :: _ => targetRunEnd c id x d
      | _, k :: _ =>
        let t := (d.cell k).tkt
        let o := tOpc t
        let done := fun (r : Outcome) (d : Dev) => endCtx c id x.committed (fun _ => r) d
        if o = opRead ∨ o = opCopy then readRunEnd c id x d
        else if o = opProgram ∨ o = opErase then writeRunEnd c id x d
        else if o = opCal then calTicketEnd c id x q k d
        else if o = opStatus ∨ o = opRoutine then done { status := 0, result := x.status } d
        else if o = opGetFeat then done { status := 0, result := leAt (fitTo 4 0 x.scratch) 0 4 } d
        else if o = opReadId ∨ o = opParam then done { status := 0 } (deliverBytes k ((runBytes x).take (tLen t)) d)
        else done { status := 0 } d
      | _, [] => closeCtx c id x.committed d
    fenceBoundary x.dix d

/-! ### Branches and continuation -/

/-- LMAP of the ticket a context serves. -/
def ctxLmap (d : Dev) (x : Ctx) : Bool :=
  match x.cells.head? with
  | some k => tLmap (d.cell k).tkt
  | none => false

/-- What a nanoword's microword does next, with the context it leaves. Its condition is tested before PLNEXT advances
(assumption 83). -/
def advance (d : Dev) (x : Ctx) (a mw w : Nat) : Ctx × After :=
  let r := afterNano x (ctxLmap d x) (inFallback d x.dix) a mw w
  let susp := nwBrcond w = 6 && mwSeq mw == 3 && brHolds x (ctxLmap d x) (inFallback d x.dix) w
  let y := { r.1 with susping := x.susping || susp, marked := x.marked || (mwSeq mw == 6 && x.committed) }
  (if nwPlnext w then nextPlane y else y, r.2)

/-- The run goes on after a nanoword as the microword says (R81, R82, R85, R92). -/
def goOn (c id a mw w : Nat) (m : Mem) (q : CalMeas) (d : Dev) : Dev :=
  match d.ctx c id with
  | none => d
  | some x =>
    let r := advance d x a mw w
    let y := r.1
    let first := y.committed && !x.committed
    let d := d.setCtx c id y
    let d := if first then commitHook c id d else d
    match r.2 with
    | .go t => arrive c id t m d
    | .endRoutine => routineEnd c id q d
    | .abort => endEarly c id y.committed .timeout (fun _ => { status := 0x30, detail := 0x11 }) (timeoutRecords y y.committed d)
    | .restart =>
      if y.committed then arrive c id (a + 1) m (d.wr F.SEQ_FAULT_LATERST 1 c) else restartRun c id .branch d
    | .illegal => illegalState c id d

/-! ### Nanowords -/

/-- The echo responder's data-out (R470): the page register, FLIPS bits of each codeword inverted. The spec does not say how
a position is drawn from the sequence: each is a free value. -/
def echoFlip (n ctr l : Nat) (b : List Byte) : List Byte :=
  (List.range n).foldl (fun b i =>
    let p := Config.freeValue (ctr + i) % (8 * max l 1)
    b.set (p / 8) ((b.getD (p / 8) 0) ^^^ BitVec.ofNat 8 (2 ^ (p % 8)))) b

/-- Data a burst brings in: the die's bytes, or in depth 5 the echo responder's. -/
def burstData (d : Dev) (c : Nat) (x : Ctx) (w : Nat) (data : List Byte) : List Byte × Dev :=
  if d.rd F.TST_LBCTL_DEPTH c != 5 then (data, d)
  else match nwCyc w with
    | 4 =>
      if !nwDecnote w then (List.replicate (burstCount d x w) 0, d)
      else match cellOfPlane d x (planeOf x) with
        | none => (List.replicate (burstCount d x w) 0, d)
        | some k =>
          let y := d.cell k
          let l := (cellProf d y).len
          let ks := (runCws x y (planeOf x)).drop ((look x.cuts (planeOf x)).getD 0)
          let n := burstCount d x w / max l 1
          let flips := d.rd F.TST_ECHOINJ_FLIPS c
          let page := (d.chn c).echoPage
          let out := (ks.take n).mapIdx fun i q => echoFlip flips (d.freeCtr + i * flips) l (fitTo l 0 ((page.drop (q * l)).take l))
          (out.flatten, { d with freeCtr := d.freeCtr + n * flips })
    | 5 =>
      let pf := d.rd F.TST_ECHOINJ_PFAILN c
      let fail := pf != 0 && (x.work == .first || x.work == .target) && (d.chn c).echoOps % (max pf 1) == 0 && (d.chn c).echoOps != 0
      ([BitVec.ofNat 8 (0xE0 + b2n fail)], d)
    | _ => (data, d)

/-- An uncorrectable staging word read for DIN (R207, R237 row 5, R365): before commit the routine is abandoned; past it the
tickets end so at the routine's own end (R100). -/
def stagingLost (c id : Nat) (d : Dev) : Dev := endEarly c id false .link (fun _ => { status := 0x7F, detail := 0x30 }) d

/-- What waits for the end of a nanoword before the commit point (R92): the fence of the die, a thermal halt, a link
error. None when the routine goes on. -/
def boundaryEvent (c id : Nat) (x : Ctx) (d : Dev) : Option Dev :=
  if x.committed then none
  else if (targetLuns x.dix).any fun y => addresses x y && dieFenced d y then
    if x.work = .target then some (Dev.each x.cells (copyTargetLost · 0x31) (closeCtx c id false d))
    else some (endEarly c id false .fenced (fun _ => { status := 0x31, detail := 3 }) d)
  else if d.on F.TH_STAT_HALT then some (endEarly c id false .halted (fun _ => { status := 0x70, detail := 1 }) d)
  else if x.linkErr then some (restartRun c id .link d)
  else none

/-- A link-frame CRC error after the commit point (R99). None when execution continues. `x` is the context before the
struck cycle: a resumption discards the cycle's data. -/
def lateLink (c id : Nat) (x : Ctx) (w : Nat) (m : Mem) (d : Dev) : Option Dev :=
  let k := nwCyc w
  if k = 4 ∨ k = 5 then
    if nwReent w && x.marked then
      match x.reentry with
      | none => none
      | some a =>
        if d.rd F.SEQ_CFG_RSTMAX c ≤ x.restarts then
          some (endEarly c id true .link (fun _ => { status := 0x7F, detail := 0x21 }) (d.wr F.SEQ_FAULT_RSTLIM 1 c))
        else
          let u := ((d.ctx c id).getD x).units
          let d := dropPartial c id (fun _ => true) (d.setCtx c id { x with restarts := x.restarts + 1, linkErr := false, units := u })
          some (arrive c id a m (d.inc F.SEQ_RSTCNT_RESTARTS c))
    else none
  else if k = 1 ∨ k = 2 ∨ k = 3 then some (endEarly c id true .link (fun _ => { status := 0x7F, detail := 0x21 }) d)
  else none

/-- A DOUT's write into staging has met an uncorrectable word (R364): the ticket of its plane ends when the codeword is read
for its decode, or a RAW one at its run's end (R163). -/
def stagingSpoiled (x : Ctx) (d : Dev) : Dev :=
  match cellOfPlane d x (planeOf x) with
  | some k => Dev.onCell k (fun y => { y with rxUe := true }) d
  | none => d

/-- A DIN of the echo depth loads the page register (R470); a confirmed program or erase counts for PFAILN (R471). -/
def echoTake (c : Nat) (x : Ctx) (w : Nat) (d : Dev) : Dev :=
  if d.rd F.TST_LBCTL_DEPTH c != 5 then d
  else
    let d := if nwCyc w = 3 && nwStage w then d.setCh c { d.chn c with echoPage := drivenBytes d x w } else d
    d

/-! ### Readiness (R254, R255, R78, R101) -/

/-- Half PHY periods of a WAITRDY whose die took `ns` to report ready: whole re-test intervals (R84, R86). -/
def waitUnits (d : Dev) (c w ns : Nat) : Nat :=
  let per := unitsNs (d.rd F.CH_STAT_RATE c) (nanoUnits (d.rd F.SEQ_CFG_TDIV c) 0 1 w)
  nanoUnits (d.rd F.SEQ_CFG_TDIV c) 0 ((ns + per - 1) / max per 1) w

/-- A WAITRDY of `ns` ns ends: the die's busy time (R64), and, without PARK, the bus it has held counts as the run's (R98). -/
def waitHeld (c id ns : Nat) (d : Dev) : Dev :=
  match d.ctx c id with
  | none => d
  | some x =>
    let u := match nanoOf d c x with
      | some (_, _, w) => if x.st = .running then waitUnits d c w ns else 0
      | none => 0
    -- a page of a cache sequence counts from its own confirm (R202)
    let busy := if x.inSeq && !(x.committed || onCommit d c x) then 0 else ns
    d.setCtx c id { x with units := x.units + u, busy := x.busy + busy, began := none }

/-- Continue a context from the WAITRDY it waits at (R78). -/
def pastWait (c id : Nat) (m : Mem) (d : Dev) : Dev :=
  match d.ctx c id with
  | none => d
  | some x => match nanoOf d c x with
    | none => illegalState c id d
    | some (a, mw, w) =>
      if !(x.committed || onCommit d c x) && (targetLuns x.dix).any (fun y => addresses x y && dieFenced d y) then
        match boundaryEvent c id x d with
        | some d => d
        | none => d
      else goOn c id a mw w m {} (Dev.onCtx c id (fun z => { z with linkErr := false }) d)

/-- A suspend request lapses: the die became ready first (R101, R123). -/
def lapse (c id : Nat) (x : Ctx) (d : Dev) : Dev :=
  let w : Work := match x.cells.head? with
    | some k => if (d.cell k).onTgt then .target else .first
    | none => .first
  (dropAsk c id (d.setCtx c id { x with work := w, suspAsk := false })).inc F.SLM_CNT_LAPSED c

/-- A die is found ready (R254): its waiting context goes on or becomes a candidate. `busy` is the busy time in ns, `m` the
reading of the words that follow where they come from the patch store (R102). Past commit, a sample that a corrupted frame
carried is discarded (R99); a COMMIT's own WAITRDY is past commit at its end (R90). -/
def dieReady (x busy : Nat) (m : Mem) (d : Dev) : Dev :=
  let c := dixCh x
  match (d.chn c).ctxs.find? fun p => p.2.dix == x && waitsReady d c p.2 && !p.2.hang with
  | none => d
  | some (id, y) =>
    let d := if y.work = .suspend && y.st == .eligible then lapse c id y d else d
    let past := y.committed || onCommit d c y
    let d := waitHeld c id busy (Dev.onCtx c id (fun z => { z with resample := false }) d)
    -- the earlier ticket of its cache sequence has been busy as well, until this run reports it (R202)
    let d := match y.pred with
      | some p => if y.work = .first then Dev.onCtx c p (fun z => { z with busy := z.busy + busy }) d else d
      | none => d
    if y.st = .running ∧ past ∧ y.linkErr then Dev.onCtx c id (fun z => { z with linkErr := false, resample := true }) d
    else
    let d := if y.committed then freeArray c id d else d
    match boundaryEvent c id { y with committed := past, linkErr := y.linkErr && y.st == .running } d with
    | some d => d
    | none =>
      if y.st = .running then heldLow x (pastWait c id m d)
      else heldLow x (seqParked c (nowReady c id (Dev.onCtx c id (fun z => { z with st := .ready }) d)))

/-- NANOWORD_END: the cycle of the running context's nanoword has ended. A WAITRDY ends only by its readiness or its
timeout; one that parks has released the bus unless it is the first of its run. -/
def nanowordEnd (c : Nat) (n : NanoIn) (d : Dev) : Dev :=
  match (d.chn c).run with
  | none => d
  | some id => match d.ctx c id with
    | none => d
    | some x =>
      if x.st != .running then d
      else match nanoOf d c x with
        | none => illegalState c id d
        | some (a, mw, w) =>
          if !nwLegal w || mwSeq mw > 6 then illegalState c id d
          else if nwCyc w = 6 then
            if nwPark w then parkWait c id (waitClass d c w) d else if x.resample then dieReady x.dix 0 n.fetch d else d
          else
            let own := memFinds d 7 n.local_
            let d := readMem 7 own d
            if own.isUe then seqTrap c id d
            else
              let (data, d) := burstData d c x w n.data
              let data := data.take (if nwCyc w = 4 then burstCount d x w else data.length)
              let d := echoTake c x w d
              let bytes := if nwCyc w = 3 ∨ nwCyc w = 4 then burstCount d x w else 0
              let y := cycleEffect { x with units := x.units + nanoUnits (d.rd F.SEQ_CFG_TDIV c) bytes 0 w, began := none } data w
              let d := d.setCtx c id y
              let stg := memFinds d 0 n.staging
              let d := if nwCyc w = 3 && nwStage w then readMem 0 stg d else d
              let (ues, d) := if nwCyc w = 4 && nwStage w then memWrites 0 n.writes d else ([], d)
              let d := if ues.contains true then stagingSpoiled y d else d
              let lost := nwCyc w = 3 && nwStage w && stg.isUe
              let d := if lost then Dev.onCtx c id (fun z => { z with spoiled := true }) (d.inc F.RD_UECNT_STAGE 0 x.cells.length) else d
              if lost && !x.committed then stagingLost c id d
              else
                let commits := mwSeq mw == 1
                -- a RESTART branch stands nearer the foot of R92's table than a link error
                let branch := !commits && decide ((advance d y a mw w).2 = .restart)
                match (if commits then none else boundaryEvent c id { y with linkErr := y.linkErr && !branch } d) with
                | some d => d
                | none =>
                  let late := if y.linkErr && y.committed then
                      lateLink c id x w n.fetch (if branch then d.wr F.SEQ_FAULT_LATERST 1 c else d) else none
                  match late with
                  | some d => d
                  | none =>
                    if commits && !y.committed && y.linkErr then
                      -- the COMMIT nanoword itself is past commit at its end (R90): R99 decides
                      let d := commitHook c id (Dev.onCtx c id (fun z => { z with committed := true }) d)
                      match lateLink c id { x with committed := true } w n.fetch d with
                      | some d => d
                      | none => goOn c id a mw w n.fetch n.meas (Dev.onCtx c id (fun z => { z with linkErr := false }) d)
                    else
                      let d := Dev.onCtx c id (fun z => { z with linkErr := false }) d
                      let d := if nwCyc w = 4 && nwDecnote w then cutCws 9 c id (planeOf y) d else d
                      goOn c id a mw w n.fetch n.meas d

/-- RB_N_RISE (R254): the edge counts when no other die of the group is busy and the group is not in the fallback. -/
def rbRise (c g busy : Nat) (m : Mem) (d : Dev) : Dev :=
  let d := setRb c g true d
  if bit (d.rd F.CH_RB_FB c) g || !d.live || d.on F.FS_STAT_ACTIVE || !phyAwake d c then d
  else match groupBusy d c g with
    | [x] => dieReady x busy m d
    | _ => d

/-- WAITRDY_RETEST (R84, R254): a per-LUN status read of a waiting die; its bus time is the ticket's, and part of the wait's
where the WAITRDY holds the bus (R98). A fenced die's byte is dropped and counted (R260). -/
def waitRetest (x status ns busy : Nat) (m : Mem) (d : Dev) : Dev :=
  let c := dixCh x
  if dieFenced d x then fencedByte x d
  else if d.on F.FS_STAT_ACTIVE then d
  else match (d.chn c).ctxs.find? fun p => p.2.dix == x && waitsReady d c p.2 with
    | none => d
    | some (_, y) =>
      if !inFallback d x && (groupBusy d c (rbGroup x)).all (· == x) then d
      else
        let d := if y.st = .running then d else spendRun c y.cells ns d
        if y.hang || !status.testBit 6 then d else dieReady x busy m d

/-- WAITRDY_TIMEOUT (R92, R97, R255–R257). -/
def waitTimeout (x : Nat) (d : Dev) : Dev :=
  let c := dixCh x
  match (d.chn c).ctxs.find? fun p => p.2.dix == x && waitsReady d c p.2 with
  | none => d
  | some (id, y) =>
    if !(y.committed || onCommit d c y) then
      match boundaryEvent c id { y with linkErr := false } d with
      | some d => d
      | none => restartRun c id .timeout (waitHeld c id (d.rd (F.CH_TO_TIME.ix y.tocls) c * 10000) d)
    else
      let d := if y.committed then d else commitHook c id (Dev.onCtx c id (fun z => { z with committed := true }) d)
      let d := raise (0x6C + chCl c) (d.inc F.CH_CNT_TIMEOUTS c)
      let d := waitHeld c id (d.rd (F.CH_TO_TIME.ix y.tocls) c * 10000) (timeoutRecords y true d)
      let d := endEarly c id (y.tocls == 6) .timeout (fun _ => { status := 0x30, detail := 1 }) d
      if y.work = .enum then d else enterRecover x d

/-- LINK_CRC_ERROR (R92, R99): struck while a routine's cycle is in progress. -/
def linkError (c : Nat) (d : Dev) : Dev :=
  match (d.chn c).run with
  | none => d
  | some id =>
    if !d.live then d
    else Dev.onCtx c id (fun x => if x.st = .running then { x with linkErr := true } else x) (d.inc F.SEQ_RSTCNT_LINKERR c)

/-- RESTART_GAP_END (R93). -/
def gapEnd (c : Nat) (m : Mem) (d : Dev) : Dev :=
  match (d.chn c).run with
  | none => d
  | some id => match d.ctx c id with
    | none => d
    | some x =>
      if x.st != .gap then d
      else match boundaryEvent c id x d with
        | some d => d
        | none => arrive c id x.entry m (d.setCtx c id { x with st := .running })

/-- SUSPEND_MINRUN_EXPIRY (R123). -/
def minrunExpiry (c id : Nat) (d : Dev) : Dev :=
  askSuspends c (Dev.onCtx c id (fun x => if x.st = .parked ∧ x.committed then { x with minrun := true } else x) d)

end Sys2Proof.Machine
end

