-- ==== Sys2Proof/Machine/Grants.lean ====
section
/-!
DEFINITION. Starts and grants (R60, R87, R88, R112–R115, R120–R122, R130–R132, R152, R155, R175, R231, R235, R272), and the
selection of a channel.
-/

namespace Sys2Proof.Machine

/-! ### Routines (R89) -/

/-- The routine of a ticket's start. `many` says that more than one plane is named, `joins` and `cache` are R122's. DATA_OUT
(0x006) is no start of Rinva's own: a ROUTINE ticket runs it (assumption 99). -/
def startRix (d : Dev) (c k : Nat) (many joins cache : Bool) : Nat :=
  let t := (d.cell k).tkt
  let o := tOpc t
  if o = opRead then
    if joins then (if cache then 0x002 else 0x003) else if many then 0x001 else 0x000
  else if o = opCopy then (if many then 0x001 else 0x000)
  else if o = opProgram then
    if joins && cache then 0x012 else if many then 0x011 else 0x010
  else if o = opErase then (if many then 0x019 else 0x018)
  else if o = opStatus then 0x030
  else if o = opSetFeat then (if leAt t 33 1 % 2 = 1 then 0x039 else 0x038)
  else if o = opGetFeat then (if leAt t 33 1 % 2 = 1 then 0x03B else 0x03A)
  else if o = opDieReset then 0x040 + tArg t
  else if o = opReadId then 0x048
  else if o = opParam then (if tArg t = 3 then 0x04A else 0x049)
  else if o = opCal then calTicketRix d c (tArg t) ((calKindStages (tArg t)).headD 3)
  else tRoutine t

/-! ### Dispatch (R87, R88, R152, R155, R175) -/

/-- The cell, die, block and page whose map record a run of a context needs; none when its offsets are all zero. -/
def mapOf (d : Dev) (x : Ctx) : Option (Nat × Nat × Nat) :=
  let cell := if x.work = .first then x.cells.head? else cellOfPlane d x x.plane
  match cell with
  | none => none
  | some k =>
    let t := (d.cell k).tkt
    if (tOpc t = opRead ∨ tOpc t = opCopy) ∧ tLmap t ∧ d.on F.LM_CTL_EN ∧ (x.work = .first ∨ x.work = .retry ∨ x.work = .soft) then
      some (x.dix, tBlock t, tPage t)
    else none

/-- The read-offset bytes of a run on base offsets (R152, R155). -/
def runOffs (d : Dev) (x : Ctx) (base : List Byte) : List Byte :=
  let bs := base.map fun b => signed 8 b.toNat
  match x.work, cellOfPlane d x x.plane with
  | .retry, some k => ladderOffs d (cellProf d (d.cell k)) bs x.step
  | .soft, some k => softOffs d (cellProf d (d.cell k)) bs x.pos
  | _, _ => base

/-- The run begins: its routine's first microword, or the end of R87. `fm` is the reading of the words from the patch store
(R102). -/
def runBegin (c id : Nat) (base : List Byte) (fm : Mem) (d : Dev) : Dev :=
  match d.ctx c id with
  | none => d
  | some x =>
    let d := d.setCtx c id { x with offs := runOffs d x base }
    match launch c id d with
    | some d =>
      let e := match d.ctx c id with
        | some y => fromStore d (chCl c) y.entry
        | none => false
      let fm := memFinds d 11 fm
      if !e then d
      else if fm.isUe then seqTrap c id (readMem 11 fm d)
      else readMem 11 fm d
    | none => endCtx c id false (fun _ => { status := 0x60, detail := 0x0E }) d

/-- Dispatch a context that holds the bus: its map record first (R175). -/
def dispatch (c id : Nat) (again : Bool) (fm lm : Mem) (d : Dev) : Dev :=
  match d.ctx c id with
  | none => d
  | some x =>
    let d := seqParked c ((d.setCh c { d.chn c with run := some id }).wr F.SEQ_STAT_STATE 1 c)
    match mapOf d x with
    | none => runBegin c id (List.replicate 8 0) fm d
    | some (dix, blk, page) =>
      match lmLookup again lm dix blk page d with
      | (some b, d) => runBegin c id b fm d
      | (none, d) => Dev.onCtx c id (fun x => { x with st := .mapWait }) d

/-- Contexts that wait for a map line (R175). -/
def mapWaiters (d : Dev) (line : Nat) : List (Nat × Nat) :=
  (List.range 32).flatMap fun c => ((d.chn c).ctxs.filter fun (p : Nat × Ctx) => p.2.st == .mapWait && (match mapOf d p.2 with
    | some (x, b, g) => pageLine d x b g == line
    | none => true)).map fun (p : Nat × Ctx) => (c, p.1)

/-- A map line has arrived, or has failed to: the waiting runs dispatch, with zero offsets after a failure (R175, R180). -/
def mapArrived (line : Nat) (ok : Bool) (q : MapReads) (d : Dev) : Dev :=
  Dev.each (mapWaiters d line).zipIdx (fun p d =>
    let fm := q.word.getD p.2 .clean
    if ok then dispatch p.1.1 p.1.2 true fm (q.run.getD p.2 .clean) d else runBegin p.1.1 p.1.2 (List.replicate 8 0) fm d) d

/-- Lines have been unlocked: the runs that waited for them dispatch with the new value (R178, R189). A run whose line is
being fetched has been counted already. -/
def mapUnlocked (lines : List Nat) (q : MapReads) (d : Dev) : Dev :=
  let ws := (lines.filter fun l => !lineLocked d l).flatMap fun l => (mapWaiters d l).map fun p => (l, p)
  Dev.each ws.zipIdx (fun p d =>
    dispatch p.1.2.1 p.1.2.2 (d.lm.fetching.contains p.1.1) (q.word.getD p.2 .clean) (q.run.getD p.2 .clean) d) d

/-- LM_LINE_WRITE_RESPONSE (R178, R179, R189); `q` are the readings of the seed and of the runs that waited (R180). -/
def lmWriteReturned (line : Nat) (q : MapReads) (d : Dev) : Dev := mapUnlocked [line] q (lmWritten line q.seed d)

/-- LM_LINE_FETCH_RETURN (R176, R180). -/
def lmReturned (line : Nat) (q : MapReads) (d : Dev) : Dev :=
  match lmFetched line q.seed d with
  | none => d
  | some (none, e) => e
  | some (some ok, e) => mapArrived line ok q e

/-! ### Starts (R60, R112, R113, R121, R122) -/

/-- One ticket of a start leaves its queue and is started; it takes its profile copy if it holds none (R142), and
its tenant's salt (R145). -/
def startCell (k : Nat) (d : Dev) : Dev :=
  let d := unlink k (reserveSlot (tCq (d.cell k).tkt) d)
  let p := cellProf d (d.cell k)
  let salt := d.rd F.TN_CFG_SALT (tTenant (d.cell k).tkt)
  Dev.onCell k (fun x => { x with started := true, st := 2, cached := true, prof := some p, salt := salt }) d

/-- The tickets of a request are still queued, on a queue that is not broken, their rings have slots, and no rate change of
their channel waits (R57, R60, R412). -/
def startOk (d : Dev) (c : Nat) (ks : List Nat) : Bool :=
  ks != [] && slotsFor d ks && !d.on F.CH_STAT_RECHG c && !rateWaits d c &&
  ks.all fun k => (look d.cells k).isSome && !(d.cell k).started && (d.cell k).out.isNone && !queueBroken d (cellKey (d.cell k))

/-- Cache sequences after a start (R122): the die's sequence continues, opens or closes. -/
def seqAfter (c k : Nat) (cache : Bool) (d : Dev) : Dev :=
  let x := d.cell k
  let h := d.chn c
  d.setCh c { h with seqs := if cache then ins h.seqs x.dix (k, x.tkt) else del h.seqs x.dix }

/-- Tickets of a granted start that end instead: a hold slot released since their selection (R204, R205), or a profile that
fails check 10 at the instant they take their copy (R142). -/
def startFaults (d : Dev) (ks : List Nat) : List (Nat × Outcome) :=
  ks.filterMap fun k =>
    let x := d.cell k
    if !holdFits d (dixCh x.dix) k then some (k, { status := 0x60, detail := 7 })
    else if x.prof.isNone && !check10 d x then some (k, { status := 0x60, detail := 6 })
    else none

/-- The tickets start (R112): the head's cell read `m` has been checked (R56, R365). -/
def startTickets (r : LReq) (ks : List Nat) (cache : Bool) (m fm lm : Mem) (d : Dev) : Dev :=
  let c := r.ch
  match ks with
  | [] => d
  | k :: _ =>
    let x := d.cell k
    let t := x.tkt
    let joins := joinsSeq d k
    let pred := if joins && tOpc t == opProgram then
        ((d.chn c).ctxs.find? fun p => p.2.dix == x.dix && p.2.work == .report).map (·.1) else none
    let cache := (cache || (joins && seqFollows d c k)) && ks.length == 1
    let planes := ks.foldl (fun a k => a ||| tPlanes (d.cell k).tkt) 0
    let m := memFinds d 1 m
    let d := readCellMem m (Dev.each ks startCell d)
    let d := seqAfter c k cache d
    let ctx : Ctx := { cells := ks, dix := x.dix, cls := x.qcls, cost := r.cost, planes := planes, left := planes, cache := cache
                       inSeq := joins || cache
                       pred := pred, rix := startRix d c k (1 < popc 8 planes) joins cache
                       meas := { temp := wrapInt 8 (chTemp d c) } }
    let ctx := if tOpc t = opCal && tArg t != 6 then calTicketStage d c (tArg t) ((calKindStages (tArg t)).headD 0) x.dix ctx else ctx
    let (id, d) := addCtx c ctx d
    let d := takeTokens r (some id) d
    let d := Dev.each ks (streamState · 3) d
    if m.isUe then
      enterFailSafe 2 16 1 (safeLink 6 <| Dev.onCell k (fun y => { y with manifest := d.on F.PFM_STAT_ARMED })
        (endCtx c id false (fun _ => { status := 0x7F, detail := 0x40 }) d))
    else if tOpc t = opCal ∧ tArg t = 6 then
      pzqStart (chCl c) false (freeIO c id (Dev.onCtx c id (fun y => { y with st := .decoding }) d))
    else dispatch c id false fm lm d

/-! ### Grants of started work -/

/-- The routine and the kind of a run that begins at its grant; a resumed ticket is a started one again (R125, R235). -/
def armRun (c id : Nat) (d : Dev) : Dev :=
  match d.ctx c id with
  | none => d
  | some x => match x.work, x.cells with
    | .retry, _ => d.setCtx c id { x with rix := 0x004 }
    | .soft, _ => d.setCtx c id { x with rix := 0x005 }
    | .report, _ => d.setCtx c id { x with rix := 0x031 }
    | .target, k :: _ =>
      let d := Dev.onCell k (fun y => { y with onTgt := true, between := false, stg := 0 }) (streamState k 5 d)
      seqParked (dixCh (d.cell k).dix) (d.setCtx c id { x with rix := 0x013 })
    | .resume, k :: _ =>
      let y := d.cell k
      let d := Dev.each x.cells (fun k d => Dev.onCell k (fun y => { y with st := 2 }) d) d
      seqParked c (d.setCtx c id { x with rix := if tOpc y.tkt = opErase then 0x023 else 0x021
                                          work := if y.onTgt then .target else .first, minrun := false })
    | _, _ => d

/-- A context takes the bus again where it left it (R78, R93, R127): `m` is the reading of its record in the local store
(R102, R110), `fm` that of the words from the patch store. -/
def resumeCtx (c id : Nat) (m fm : Mem) (d : Dev) : Dev :=
  match d.ctx c id with
  | none => d
  | some x =>
    let d := seqParked c ((d.setCtx c id { x with st := .running, rerun := false }).setCh c
      { (d.setCtx c id { x with st := .running, rerun := false }).chn c with run := some id })
    let m := memFinds d 7 m
    let d := readMem 7 m d
    if m.isUe then seqTrap c id d
    else if x.st = .sliced then arrive c id x.mw fm d
    else if x.rerun then arrive c id x.entry fm d
    else pastWait c id fm d

/-- The suspend branch of the WAITRDY a context is parked at (R101, R123): without one the request lapses. -/
def suspendGo (c id : Nat) (m fm : Mem) (d : Dev) : Dev :=
  match d.ctx c id with
  | none => d
  | some x =>
    let can := match nanoOf d c x with
      | some (_, mw, w) => mwSeq mw == 3 && nwBrcond w == 6 && nwSuspok w
      | none => false
    if can then resumeCtx c id m fm (d.setCtx c id { x with st := .ready, rerun := false })
    else parkBus c id (Dev.onCtx c id (fun x => { x with st := .parked }) (lapse c id x d))

/-- A context's request is granted. -/
def grantCtx (r : LReq) (id : Nat) (m fm lm : Mem) (d : Dev) : Dev :=
  let c := r.ch
  match d.ctx c id with
  | none => d
  | some x =>
    let d := takeTokens r (some id) d
    match x.st with
    | .ready => resumeCtx c id m fm d
    | .sliced => resumeCtx c id m fm d
    | .eligible => if x.work = .suspend then suspendGo c id m fm d else dispatch c id false fm lm (armRun c id d)
    | .decoding => dispatch c id false fm lm (armRun c id d)
    | _ => freeIO c id (freeArray c id d)

/-- A class-4 grant begins the channel's wake (R131, R386). -/
def grantWake (r : LReq) (d : Dev) : Dev :=
  let d := takeTokens r none d
  d.setCh r.ch { d.chn r.ch with waking := true }

/-- LIFT_GRANT (R132): the first request that can be granted. `gapA` and `gapI` are the times since the last spaced grants
in units of 10 ns, `wait` the request's wait in CCLK cycles, `m` the reading of the cell or of the context, `fm` that of the
words from the patch store, `lm` that of the cached map line. A request whose channel's PHY has gone to sleep meanwhile is
withdrawn: the channel asks for its wake (R386). -/
def liftGrant (gapA gapI wait : Nat) (m fm lm : Mem) (d : Dev) : Dev :=
  if !d.live || d.on F.FS_STAT_ACTIVE || d.fs.pfail then d
  else match pickGrant d gapA gapI with
    | none => d
    | some r =>
      if !isWake r && !phyAwake d r.ch then liftDrop r.ch false d
      else
        let d := liftWaited wait (liftDrop r.ch (isWake r) d)
        match r.who with
        | .wake => grantWake r d
        | .calStep =>
          if (d.chn r.ch).run.isSome then d
          else match calGrant r.ch d with
            | (none, d) => d
            | (some id, d) => takeTokens r (some id) d
        | .ctx id => if (d.chn r.ch).run.isSome then d else grantCtx r id m fm lm d
        | .start ks cache =>
          if (d.chn r.ch).run.isSome || !startOk d r.ch ks then d
          else match startFaults d ks with
            | [] => startTickets r ks cache m fm lm d
            | bad => Dev.each bad (fun p d => finishQueued p.1 p.2 d) d

/-- SLALOM_SELECT (R116, R119): a requested rate change at the safe point, the choice, or, while a power fail is in hand,
the next context that runs to its end (R72, R219). `same` says that its request falls in the CCLK cycle of the last ones
(R132); `m` and `fm` are the readings of a context that takes the bus at once and of its words, `tm` that of a tenant's record
(R365, region 5). -/
def slalomSelect (c : Nat) (same : Bool) (m fm tm : Mem) (d : Dev) : Dev :=
  let d := liftCycle same d
  let d := if d.live then tenantReading tm d else d
  if d.fs.pfail then
    if (d.chn c).run.isSome || !d.live then d
    else match (d.chn c).ctxs.find? fun p => (p.2.st == .ready || p.2.st == .sliced) && p.2.committed with
      | none => d
      | some (id, _) => resumeCtx c id m fm d
  else
    let d := if (d.chn c).run.isNone then rateGo c (encodeTurn c d) else d
    selectTickets calAsk (fun c id d => resumeCtx c id m fm d) c d

/-! ### PHY sleep and wake (R386) -/

/-- What keeps a channel's PHY on (R386, R463). -/
def phyBusy (d : Dev) (c : Nat) : Bool :=
  let h := d.chn c
  !h.ctxs.isEmpty || h.enum.isSome || calState d c == 3 || d.on F.TST_LBCTL_DEPTH c || h.waking ||
  (d.cells.any fun p => p.2.started && p.2.out.isNone && dixCh (startedDie p.2) == c) || ((chDies c).any fun x => dieState d x == 2)

/-- Awake and Doze follow the PHYs (R386, R391). -/
def dozeShow (d : Dev) : Dev :=
  if d.rd F.PM_STAT_STATE ≤ 1 then d.wr F.PM_STAT_STATE (if d.rd F.PM_PHYSTAT_ON = 0 then 1 else 0) else d

/-- A sensor whose domain goes off reads HELD; when the domain wakes it is what it was, and its next reading is exempt from
the rate check (R376). -/
def sensHeld (c : Nat) (d : Dev) : Dev :=
  if d.rd (F.TS_STATE.ix c) = 3 then d
  else { d with th := { d.th with sens := ins d.th.sens c { (look d.th.sens c).getD {} with was := d.rd (F.TS_STATE.ix c) } } }.wr (F.TS_STATE.ix c) 3

def sensBack (c : Nat) (d : Dev) : Dev :=
  if d.rd (F.TS_STATE.ix c) = 3 then
    let x := (look d.th.sens c).getD {}
    { d with th := { d.th with sens := ins d.th.sens c { x with prev := none } } }.wr (F.TS_STATE.ix c) x.was
  else d

/-- A PHY goes off: from the idle row (R246); its zone holds its reading (R376). -/
def phyOff (c : Nat) (d : Dev) : Dev :=
  let d := d.wr F.PM_PHYSTAT_ON (clrBit (d.rd F.PM_PHYSTAT_ON) c)
  setPads padsOff c (sensHeld c d)

/-- PHY_IDLE_SLEEP (R386, R288). -/
def phySleep (c : Nat) (d : Dev) : Dev :=
  if !d.live || !d.on F.PM_CFG_PHYIDLE || !phyAwake d c || phyBusy d c || d.on F.FS_STAT_ACTIVE then d
  else dozeShow (phyOff c d)

/-- PHY_WAKE_DONE (R386): the idle row, then a temperature test (R275). -/
def phyWake (c : Nat) (d : Dev) : Dev :=
  if !(d.chn c).waking then d
  else
    let d := d.setCh c { d.chn c with waking := false }
    let d := d.wr F.PM_PHYSTAT_ON (setBit (d.rd F.PM_PHYSTAT_ON) c)
    calTempTest c (idlePads c (dozeShow (sensBack c d)))

end Sys2Proof.Machine
end

