-- ==== Sys2Proof/Machine/Crypto.lean ====
section
/-!
DEFINITION. SHA-256 (FIPS 180-4), HMAC-SHA-256 (FIPS 198-1) and ECDSA P-256 verification (FIPS 186-5), which R104, R420
and R424 name. PRESUMED: the algorithms are those of the named standards (assumption 6).
-/

namespace Sys2Proof.Machine

abbrev W32 := BitVec 32

def shaH0 : List W32 := [0x6A09E667, 0xBB67AE85, 0x3C6EF372, 0xA54FF53A, 0x510E527F, 0x9B05688C, 0x1F83D9AB, 0x5BE0CD19]

def shaK : List W32 := [
  0x428A2F98, 0x71374491, 0xB5C0FBCF, 0xE9B5DBA5, 0x3956C25B, 0x59F111F1,
  0x923F82A4, 0xAB1C5ED5, 0xD807AA98, 0x12835B01, 0x243185BE, 0x550C7DC3,
  0x72BE5D74, 0x80DEB1FE, 0x9BDC06A7, 0xC19BF174, 0xE49B69C1, 0xEFBE4786,
  0x0FC19DC6, 0x240CA1CC, 0x2DE92C6F, 0x4A7484AA, 0x5CB0A9DC, 0x76F988DA,
  0x983E5152, 0xA831C66D, 0xB00327C8, 0xBF597FC7, 0xC6E00BF3, 0xD5A79147,
  0x06CA6351, 0x14292967, 0x27B70A85, 0x2E1B2138, 0x4D2C6DFC, 0x53380D13,
  0x650A7354, 0x766A0ABB, 0x81C2C92E, 0x92722C85, 0xA2BFE8A1, 0xA81A664B,
  0xC24B8B70, 0xC76C51A3, 0xD192E819, 0xD6990624, 0xF40E3585, 0x106AA070,
  0x19A4C116, 0x1E376C08, 0x2748774C, 0x34B0BCB5, 0x391C0CB3, 0x4ED8AA4A,
  0x5B9CCA4F, 0x682E6FF3, 0x748F82EE, 0x78A5636F, 0x84C87814, 0x8CC70208,
  0x90BEFFFA, 0xA4506CEB, 0xBEF9A3F7, 0xC67178F2]

def rotr (x : W32) (n : Nat) : W32 := x.rotateRight n

/-- The padded message of FIPS 180-4, as bytes. -/
def shaPad (m : List Byte) : List Byte :=
  let z := (119 - m.length % 64) % 64
  m ++ [0x80] ++ List.replicate z 0 ++ (leBytes 8 (8 * m.length)).reverse

/-- Four bytes as a word, most significant first. -/
def beWord (b : List Byte) : W32 := BitVec.ofNat 32 (leNat b.reverse)

/-- The sixteen words of a block. -/
def shaWords (b : List Byte) : List W32 := (List.range 16).map fun i => beWord ((b.drop (4 * i)).take 4)

/-- One more word of the schedule, on the last sixteen, oldest first. -/
def shaNext (w : List W32) : W32 :=
  let s0 := let x := w.getD 1 0; rotr x 7 ^^^ rotr x 18 ^^^ (x >>> 3)
  let s1 := let x := w.getD 14 0; rotr x 17 ^^^ rotr x 19 ^^^ (x >>> 10)
  w.getD 0 0 + s0 + w.getD 9 0 + s1

/-- One round on (a … h). -/
def shaRound (v : List W32) (k w : W32) : List W32 :=
  let a := v.getD 0 0
  let e := v.getD 4 0
  let t1 := v.getD 7 0 + (rotr e 6 ^^^ rotr e 11 ^^^ rotr e 25) + ((e &&& v.getD 5 0) ^^^ (~~~e &&& v.getD 6 0)) + k + w
  let t2 := (rotr a 2 ^^^ rotr a 13 ^^^ rotr a 22) + ((a &&& v.getD 1 0) ^^^ (a &&& v.getD 2 0) ^^^ (v.getD 1 0 &&& v.getD 2 0))
  [t1 + t2, a, v.getD 1 0, v.getD 2 0, v.getD 3 0 + t1, e, v.getD 5 0, v.getD 6 0]

def shaRounds : List W32 → List W32 → List W32 → List W32
  | [], v, _ => v
  | k :: ks, v, w => shaRounds ks (shaRound v k (w.getD 0 0)) (w.drop 1 ++ [shaNext w])

def shaBlock (h : List W32) (b : List Byte) : List W32 :=
  (h.zip (shaRounds shaK h (shaWords b))).map fun p => p.1 + p.2

def shaBlocks : Nat → List W32 → List Byte → List W32
  | 0, h, _ => h
  | n + 1, h, m => shaBlocks n (shaBlock h (m.take 64)) (m.drop 64)

/-- SHA-256. -/
def sha256 (m : List Byte) : List Byte :=
  let p := shaPad m
  (shaBlocks (p.length / 64) shaH0 p).flatMap fun w => (leBytes 4 w.toNat).reverse

/-- HMAC-SHA-256 with a key of up to 64 bytes. -/
def hmac (key m : List Byte) : List Byte :=
  let k := fitTo 64 0 key
  sha256 (k.map (· ^^^ 0x5C) ++ sha256 (k.map (· ^^^ 0x36) ++ m))

/-! ### P-256 -/

def p256P : Nat := 0xFFFFFFFF00000001000000000000000000000000FFFFFFFFFFFFFFFFFFFFFFFF
def p256N : Nat := 0xFFFFFFFF00000000FFFFFFFFFFFFFFFFBCE6FAADA7179E84F3B9CAC2FC632551
def p256B : Nat := 0x5AC635D8AA3A93E7B3EBBD55769886BC651D06B0CC53B0F63BCE3C3E27D2604B
def p256G : Nat × Nat := (0x6B17D1F2E12C4247F8BCE6E563A440F277037D812DEB33A0F4A13945D898C296,
  0x4FE342E2FE1A7F9B8EE7EB4A7C0F9E162BCE33576B315ECECBB6406837BF51F5)

/-- Modular power, over the bits of the exponent from the highest. -/
def powMod (m b : Nat) : Nat → Nat → Nat → Nat
  | 0, _, a => a
  | n + 1, e, a =>
    let a := a * a % m
    powMod m b n e (if e.testBit n then a * b % m else a)

/-- The inverse modulo a prime. -/
def invMod (m a : Nat) : Nat := powMod m a 256 (m - 2) 1

def subMod (m a b : Nat) : Nat := (a + (m - b % m)) % m

/-- Addition on the curve; `none` is the point at infinity. -/
def ecAdd : Option (Nat × Nat) → Option (Nat × Nat) → Option (Nat × Nat)
  | none, q => q
  | p, none => p
  | some (x1, y1), some (x2, y2) =>
    if x1 = x2 ∧ (y1 + y2) % p256P = 0 then none
    else
      let l := if x1 = x2 then (3 * x1 * x1 + (p256P - 3)) * invMod p256P (2 * y1) % p256P
        else subMod p256P y2 y1 * invMod p256P (subMod p256P x2 x1) % p256P
      let x3 := subMod p256P (l * l % p256P) (x1 + x2)
      some (x3, subMod p256P (l * subMod p256P x1 x3 % p256P) y1)

/-- Multiplication by a scalar, over its bits from the highest. -/
def ecMul (p : Nat × Nat) : Nat → Nat → Option (Nat × Nat) → Option (Nat × Nat)
  | 0, _, a => a
  | n + 1, e, a =>
    let a := ecAdd a a
    ecMul p n e (if e.testBit n then ecAdd a (some p) else a)

/-- A big-endian number. -/
def beNat (b : List Byte) : Nat := leNat b.reverse

def onCurve (q : Nat × Nat) : Bool :=
  q.1 < p256P && q.2 < p256P && q.2 * q.2 % p256P == (q.1 * q.1 * q.1 + (p256P - 3) * q.1 + p256B) % p256P

/-- ECDSA verification of a digest: public key x then y, signature r then s, each 32 bytes, most significant first. -/
def ecdsaOk (key digest sig : List Byte) : Bool :=
  let q := (beNat (key.take 32), beNat ((key.drop 32).take 32))
  let r := beNat (sig.take 32)
  let s := beNat ((sig.drop 32).take 32)
  onCurve q && 1 ≤ r && r < p256N && 1 ≤ s && s < p256N &&
  (let w := invMod p256N s
   match ecAdd (ecMul p256G 256 (beNat digest * w % p256N) none) (ecMul q 256 (r * w % p256N) none) with
   | none => false
   | some (x, _) => x % p256N == r)

end Sys2Proof.Machine
end

