-- ==== Sys2Proof/Machine/Nor.lean ====
section
/-!
DEFINITION. The configuration NOR's contents (R405): reads, programs and erases, the configuration header (R406), the
boot-pointer record (R423), the counter checkpoint (R430), settings copies (R407), slots and their keys (R416, R417).
-/

namespace Sys2Proof.Machine

/-! ### Bytes -/

/-- A byte of the NOR; one not listed reads as erased. -/
def norByte (d : Dev) (a : Nat) : Byte := (look d.nor.mem a).getD 0xFF

def norRead (d : Dev) (a n : Nat) : List Byte := (List.range n).map fun i => norByte d (a + i)

/-- A program only clears bits, as in any flash. -/
def norPut (a : Nat) (b : Byte) (d : Dev) : Dev := { d with nor := { d.nor with mem := putD d.nor.mem a (norByte d a &&& b) 0xFF } }

def norProgram (a : Nat) : List Byte → Dev → Dev
  | [], d => d
  | b :: r, d => norProgram (a + 1) r (norPut a b d)

/-- Erase a 4 KiB sector. -/
def norErase (a : Nat) (d : Dev) : Dev :=
  { d with nor := { d.nor with mem := d.nor.mem.filter fun (p : Nat × Byte) => p.1 / 4096 != a / 4096 } }

def isErased (b : List Byte) : Bool := b.all (· == 0xFF)

/-- Rinva issues nothing more to the NOR: a power fail has been recognised (R428). -/
def norShut (d : Dev) : Bool := d.pfSeen || d.pm.causes.contains 12

/-- Program a record of the sealed command in progress (R428). -/
def norRecord (a : Nat) (b : List Byte) (d : Dev) : Dev :=
  let d := norProgram a b d
  { d with nor := { d.nor with undone := d.nor.undone ++ [(a, b.length)] } }

/-- A loss during a record write of a sealed command: programs not reached are undone, their sectors erased (R428). How many
were reached is open: a free value (assumption 126). -/
def norLoss (d : Dev) : Dev :=
  if d.nor.undone.isEmpty then d
  else
    let (v, d) := d.fresh
    let lost := d.nor.undone.drop (v % (d.nor.undone.length + 1))
    { d with nor := { d.nor with
      undone := []
      mem := d.nor.mem.filter fun (p : Nat × Byte) => !lost.any fun r => r.1 ≤ p.1 && p.1 < r.1 + r.2 } }

/-! ### Discovery (R404), with the layout of JESD216's tables (PRESUMED, assumption 125) -/

/-- The Basic Flash Parameter Table that the SFDP header points to; empty without one. -/
def sfdpTable (b : List Byte) : List Byte :=
  if leAt b 8 1 = 0 ∧ leAt b 15 1 = 0xFF then (b.drop (leAt b 12 3)).take (4 * leAt b 11 1) else []

def sfdpDword (b : List Byte) (n : Nat) : Nat := leAt (sfdpTable b) (4 * (n - 1)) 4

/-- The density as a logarithm of bytes: DWORD 2 holds the bits less one, or their logarithm. -/
def sfdpDens (b : List Byte) : Nat :=
  let v := sfdpDword b 2
  if v.testBit 31 then v % 2 ^ 31 - 3 else Nat.log2 ((v + 1) / 8)

/-- A 4 KiB erase is declared. -/
def sfdpErase (b : List Byte) : Bool := sfdpDword b 1 % 4 == 1

/-- The quad-enable type, where one that JESD216 defines is given. -/
def sfdpQer (b : List Byte) : Option Nat :=
  let q := fld (sfdpDword b 15) 20 3
  if 60 ≤ (sfdpTable b).length ∧ q ≠ 7 then some q else none

/-- BOOT_STAT.ERR of the discovery, 0 for a NOR that meets R404. -/
def sfdpErr (b : List Byte) : Nat :=
  if isErased b then 1
  else if leAt b 0 4 ≠ 0x50444653 then 2
  else if sfdpDens b < 18 ∨ !sfdpErase b then 3
  else 0

/-- The opcode that writes the register with the quad-enable bit of a type; none for a type without one. -/
def quadWrite (q : Nat) : Option Nat :=
  match q with
  | 0 => none
  | 3 => some 0x3E
  | 6 => some 0x31
  | _ => some 0x01

/-- PHASE 3: release, reset enable, reset, then the tables (R404). Reads are 1-1-1 fast reads until the header says more. -/
def norFind (b : List Byte) (d : Dev) : Dev :=
  let d := { d with nor := { d.nor with issued := [0xAB, 0x66, 0x99, 0x5A], found := sfdpErr b == 0 } }
  if sfdpErr b ≠ 0 then d
  else { d with nor := { d.nor with readOp := 0x0B, readDummy := 8, eraseOp := fld (sfdpDword b 1) 8 8 } }.wr F.CFG_NOR_DENS (sfdpDens b)

/-- 1-4-4 reads, where the table declares them, the header's QUAD allows them and the quad-enable type is defined (R404). -/
def norQuad (b : List Byte) (allowed : Bool) (d : Dev) : Dev :=
  match sfdpQer b with
  | none => d
  | some q =>
    if !allowed || !(sfdpDword b 1).testBit 21 then d
    else
      let cmds := match quadWrite q with
        | some op => if d.nor.qe then [] else [0x06, op]
        | none => []
      let d := { d with nor := { d.nor with
        readOp := fld (sfdpDword b 3) 8 8, readDummy := fld (sfdpDword b 3) 0 5, qe := d.nor.qe || (quadWrite q).isSome
        issued := d.nor.issued ++ cmds } }
      (d.wr F.CFG_NOR_QER q).wr F.BOOT_STAT_QUAD 1

/-! ### The configuration header (R406) -/

/-- BOOT_STAT.ERR of a header, 0 for a good one. -/
def headerErr (uid b : List Byte) : Nat :=
  if leAt b 0 4 ≠ 0x43464731 ∨ leAt b 4 2 ≠ 0x4832 ∨ leAt b 6 1 ≠ 0xB1 then 4
  else if crc32c (b.take 60) ≠ leAt b 60 4 then 5
  else if (leAt b 7 1).testBit 2 ∧ (b.drop 16).take 16 ≠ uid then 6
  else 0

/-! ### The boot-pointer record (R423) -/

def bpAddr (copy : Nat) : Nat := 0x1000 + 0x1000 * copy

def bpBytes (d : Dev) (copy : Nat) : List Byte := norRead d (bpAddr copy) 64

def bpValid (b : List Byte) : Bool := leAt b 0 4 == 0x42505431 && crc32c (b.take 60) == leAt b 60 4

def bpParse (b : List Byte) : BootPtr :=
  { seq := leAt b 4 4, active := leAt b 8 1 % 2, trial := leAt b 9 1 == 1, tries := leAt b 10 1 % 16
    prev := leAt b 11 1 % 2, minver := leAt b 12 4 }

/-- The copy in force: the valid one with the higher SEQ. -/
def bpCopy (d : Dev) : Option Nat :=
  let a := bpBytes d 0
  let b := bpBytes d 1
  if bpValid a then (if bpValid b && leAt a 4 4 < leAt b 4 4 then some 1 else some 0) else if bpValid b then some 1 else none

/-- UPD_BP and UPD_MINVER show the record in force. -/
def bpShow (d : Dev) : Dev :=
  let p := d.upd.bp
  let d := ((d.wr F.UPD_BP_ACTIVE p.active).put F.UPD_BP_TRIAL p.trial).wr F.UPD_BP_TRIES p.tries
  ((d.wr F.UPD_BP_PREV p.prev).wr F.UPD_BP_SEQ p.seq).wr F.UPD_MINVER_MINVER p.minver

/-- Read the records (R423): the record in force, or the defaults with NONE. -/
def bpLoad (d : Dev) : Dev :=
  match bpCopy d with
  | some c => bpShow (((({ d with upd := { d.upd with bp := bpParse (bpBytes d c) } }).wr F.UPD_BP_COPY c)).wr F.UPD_BP_NONE 0)
  | none => bpShow ((({ d with upd := { d.upd with bp := {} } }).wr F.UPD_BP_COPY 0).wr F.UPD_BP_NONE 1)

def ckpt (d : Dev) : Nat := d.rd64 F.SC_CKPT_LO_K F.SC_CKPT_HI_K

/-- The 64 bytes of a record. -/
def bpRecord (p : BootPtr) (k : Nat) : List Byte :=
  let b := leBytes 4 0x42505431 ++ leBytes 4 p.seq ++ leBytes 1 p.active ++ leBytes 1 (b2n p.trial) ++ leBytes 1 p.tries ++
    leBytes 1 p.prev ++ leBytes 4 p.minver ++ leBytes 8 k ++ leBytes 36 0
  b ++ leBytes 4 (crc32c b)

/-- Write a record (R423): into the copy that is not in force, carrying the checkpoint `k`. -/
def bpWriteK (p : BootPtr) (k : Nat) (d : Dev) : Dev :=
  if !d.nor.found || norShut d then d
  else
    let copy := match bpCopy d with
      | some c => 1 - c
      | none => 0
    let p := { p with seq := (p.seq + 1) % 2 ^ 32 }
    let d := norRecord (bpAddr copy) (bpRecord p k) (norErase (bpAddr copy) d)
    bpShow (({ d with upd := { d.upd with bp := p } }.wr F.UPD_BP_COPY copy).wr F.UPD_BP_NONE 0)

def bpWrite (p : BootPtr) (d : Dev) : Dev := bpWriteK p (ckpt d) d

/-! ### The counter checkpoint (R430) -/

def ckSlotBytes (d : Dev) (i : Nat) : List Byte := norRead d (0x3000 + 16 * i) 16

def ckValid (b : List Byte) : Bool := leAt b 0 4 == 0x434B5031 && crc32c (b.take 12) == leAt b 12 4

def ckRecord (k : Nat) : List Byte :=
  let b := leBytes 4 0x434B5031 ++ leBytes 8 k
  b ++ leBytes 4 (crc32c b)

/-- K at boot: the highest valid value among the records and both boot-pointer copies. -/
def ckScan (d : Dev) : Nat :=
  let ks := (List.range 256).filterMap fun i => let b := ckSlotBytes d i; if ckValid b then some (leAt b 4 8) else none
  let bs := (List.range 2).filterMap fun c => let b := bpBytes d c; if bpValid b then some (leAt b 16 8) else none
  (ks ++ bs).foldl max 0

def setCkpt (k : Nat) (d : Dev) : Dev := d.wr64 F.SC_CKPT_LO_K F.SC_CKPT_HI_K k

/-- Write a checkpoint: into the first erased slot, or after a boot-pointer record and an erase when the sector is full. -/
def ckWrite (k : Nat) (d : Dev) : Dev :=
  match (List.range 256).find? fun i => isErased (ckSlotBytes d i) with
  | some i => setCkpt k (norRecord (0x3000 + 16 * i) (ckRecord k) d)
  | none => setCkpt k (norRecord 0x3000 (ckRecord k) (norErase 0x3000 (bpWriteK d.upd.bp k d)))

/-! ### Settings copies (R407) -/

def setAddr (copy : Nat) : Nat := 0x8000 + 0x8000 * copy

def setHead (d : Dev) (copy : Nat) : List Byte := norRead d (setAddr copy) 64

def setEntries (d : Dev) (copy : Nat) : Nat := leAt (setHead d copy) 6 2

/-- A good SIG and SCRC, NENT in range. -/
def setSound (d : Dev) (copy : Nat) : Bool :=
  let h := setHead d copy
  let n := leAt h 6 2
  leAt h 0 4 == 0x53455431 && n ≤ 4088 &&
    crc32c (h.take 60 ++ norRead d (setAddr copy + 64) (8 * n)) == leAt h 60 4

/-- A copy is good for a schema range. -/
def setGood (d : Dev) (lo hi copy : Nat) : Bool :=
  setSound d copy && lo ≤ leAt (setHead d copy) 4 2 && leAt (setHead d copy) 4 2 ≤ hi

/-- The copy to apply: the good one with the higher SEQ, copy 0 on a tie. -/
def setPick (d : Dev) (lo hi : Nat) : Option Nat :=
  if setGood d lo hi 0 then
    (if setGood d lo hi 1 && leAt (setHead d 0) 8 4 < leAt (setHead d 1) 8 4 then some 1 else some 0)
  else if setGood d lo hi 1 then some 1 else none

/-! ### Slots (R416, R417) -/

def slotAddr (s : Nat) : Nat := 0x20000 + 0x10000 * s

def slotHead (d : Dev) (s : Nat) : List Byte := norRead d (slotAddr s) 256

/-- PUBKEY of a slot header. -/
def headKey (h : List Byte) : List Byte := (h.drop 48).take 64

/-- The index of a public key among the fused digests: SIDX or higher, and not blank (R416). -/
def keyIndex (fu : Fuses) (key : List Byte) : Option Nat :=
  ([0, 1, 2, 3].filter fun i => fu.sidx ≤ i).find? fun i => look fu.digests i == some (sha256 key)

/-- Entry `i` of DIR: offset and length; unused when both are 0. -/
def dirEntry (h : List Byte) (i : Nat) : Nat × Nat := (leAt h (112 + 8 * i) 4, leAt h (116 + 8 * i) 4)

def dirUsed (h : List Byte) : List (Nat × Nat) := ((List.range 4).map (dirEntry h)).take (leAt h 16 1)

/-- Every entry of DIR that is not blank lies inside TLEN, without an overlap (R420). -/
def dirOk (h : List Byte) : Bool :=
  let tlen := leAt h 20 4
  let es := ((List.range 4).map (dirEntry h)).filter fun e => e != (0, 0)
  es.all (fun e => e.1 + e.2 ≤ tlen) &&
  (List.range es.length).all fun i => (List.range i).all fun j =>
    let a := es.getD i (0, 0)
    let b := es.getD j (0, 0)
    a.1 + a.2 ≤ b.1 || b.1 + b.2 ≤ a.1

/-- The error code of a slot header (R420), 0 for a good one; `len` is the length the session names, none at boot. -/
def slotErr (fu : Fuses) (minver : Nat) (len : Option Nat) (h : List Byte) : Nat :=
  if leAt h 0 4 ≠ 0x534C5431 ∨ leAt h 4 2 ≠ 0x4832 ∨ leAt h 6 1 ≠ 0xB1 then 6
  else if (leAt h 7 1).testBit 0 ∧ (h.drop 24).take 16 ≠ fu.uid then 7
  else if (match len with | some n => leAt h 20 4 != n | none => 34432 < leAt h 20 4) = true then 6
  else if leAt h 16 1 = 0 ∨ 4 < leAt h 16 1 ∨ !dirOk h ∨ leAt h 8 4 < minver then 6
  else if (keyIndex fu (headKey h)).isNone ∨ !ecdsaOk (headKey h) (sha256 (h.take 192)) ((h.drop 192).take 64) then 6
  else 0

/-- The image of a slot for a cluster: the first in DIR whose CLMASK names it (R417). -/
def slotImage (d : Dev) (s cl : Nat) : Option (Nat × Nat) :=
  (dirUsed (slotHead d s)).find? fun e => (norByte d (slotAddr s + e.1 + 7)).toNat.testBit cl

/-- The public key in force: of the slot booted or warm-swapped, as it was read then (R416). -/
def keyInForce (d : Dev) : Option (List Byte) := d.upd.key

/-- The index of a public key among all the fused digests (R416, KIN). -/
def keyFused (fu : Fuses) (key : List Byte) : Option Nat := [0, 1, 2, 3].find? fun i => look fu.digests i == some (sha256 key)

end Sys2Proof.Machine
end

