-- ==== Sys2Proof/Machine/Patch.lean ====
section
/-!
DEFINITION. Patch images (R104–R109): their layout and checks, the load from memory and the clear.
-/

namespace Sys2Proof.Machine

/-! ### The image (R105) -/

def imgNmw (b : List Byte) : Nat := leAt b 12 2
def imgNnw (b : List Byte) : Nat := leAt b 14 2
def imgNmatch (b : List Byte) : Nat := leAt b 16 2
def imgNidx (b : List Byte) : Nat := leAt b 18 2

/-- Byte offsets of the nanowords, the match entries, the index entries and the signature. -/
def imgNwAt (b : List Byte) : Nat := 32 + (2 * imgNmw b + 15) / 16 * 16
def imgMatchAt (b : List Byte) : Nat := imgNwAt b + 16 * imgNnw b
def imgIdxAt (b : List Byte) : Nat := imgMatchAt b + 4 * imgNmatch b
def imgSigAt (b : List Byte) : Nat := imgIdxAt b + 8 * imgNidx b
def imgLen (b : List Byte) : Nat := imgSigAt b + 64

def imgMw (b : List Byte) (i : Nat) : Nat := leAt b (32 + 2 * i) 2
def imgNw (b : List Byte) (i : Nat) : Nat := leAt b (imgNwAt b + 16 * i) 16
def imgMatch (b : List Byte) (i : Nat) : Nat := leAt b (imgMatchAt b + 4 * i) 4

/-- Index entry `i`: index, entry, commit. -/
def imgIdx (b : List Byte) (i : Nat) : Nat × Nat × Nat :=
  let a := imgIdxAt b + 8 * i
  (leAt b a 2 % 512, leAt b (a + 2) 2 % 2 ^ 15, leAt b (a + 4) 2 % 2 ^ 15)

/-- ROM address and patch offset of a match entry. -/
def matchRom (v : Nat) : Nat := fld v 0 14
def matchOff (v : Nat) : Nat := fld v 16 10

/-- A nanoword as the image's cluster will fetch it. -/
def imgNano (b : List Byte) (n : Nat) : Nat :=
  if n ≤ 0x7FF then Config.romNanoword n % 2 ^ 128 else if n < 0x800 + imgNnw b then imgNw b (n - 0x800) else 0

/-- A microword as the image's cluster will fetch it (R80). -/
def imgFetch (b : List Byte) (a : Nat) : Nat × Nat :=
  let p := fun o => (0x4000 + o, if o < imgNmw b then imgMw b o else 0)
  if a ≤ 0x3FFF then
    match ((List.range (imgNmatch b)).map (imgMatch b)).find? fun v => v.testBit 31 && matchRom v == a with
    | some v => p (matchOff v)
    | none => (a, romWord a)
  else p (a - 0x4000)

/-! ### The checks (R96, R107) -/

/-- Check 7 of a microword: BRTGT counts where its SEQ uses it (assumption 110). -/
def imgMwOk (b : List Byte) (i : Nat) : Bool :=
  let w := imgMw b i
  let n := mwNptr w
  mwSeq w ≤ 6 && n < 0x800 + imgNnw b && ((mwSeq w != 3 && mwSeq w != 4) || tgtLegal (nwBrtgt (imgNano b n)))

/-- Where execution may go after a microword at `a` on one path (R81, R85), with the stack. -/
def imgNext (a w nano : Nat) (st : List Nat) : List (Nat × List Nat) :=
  match mwSeq w with
  | 2 => []
  | 3 => if nwBrcond nano = 0 then [(nwBrtgt nano, st)] else [(a + 1, st), (nwBrtgt nano, st)]
  | 4 => if st.length < 4 then [(nwBrtgt nano, (a + 1) :: st)] else []
  | 5 => match st with
    | [] => []
    | r :: rs => [(r, rs)]
  | _ => [(a + 1, st)]

/-- R96: some path from the entry meets the commit microword before its first CMD cycle. -/
def commitEarly (b : List Byte) (commit : Nat) : Nat → List (Nat × List Nat) → List (Nat × List Nat) → Bool
  | 0, _, _ => false
  | _, [], _ => false
  | fuel + 1, x :: more, seen =>
    if seen.contains x || 0x43FF < x.1 then commitEarly b commit fuel more seen
    else
      let (a, w) := imgFetch b x.1
      let nano := imgNano b (mwNptr w)
      if nwCyc nano = 1 then commitEarly b commit fuel more (x :: seen)
      else if x.1 = commit ∨ a = commit then true
      else commitEarly b commit fuel (imgNext a w nano x.2 ++ more) (x :: seen)

def imgIdxOk (b : List Byte) (i : Nat) : Bool :=
  let (n, e, c) := imgIdx b i
  !((List.range i).any fun j => (imgIdx b j).1 == n) && e ≤ 0x43FF &&
  (c == 0x7FFF || (c ≤ 0x43FF && mwSeq (imgFetch b c).2 == 1 &&
    (c == e || !commitEarly b c 65536 [(e, [])] [])))

def imgMatchOk (b : List Byte) (i : Nat) : Bool :=
  let v := imgMatch b i
  !((List.range i).any fun j => matchRom (imgMatch b j) == matchRom v) && matchOff v < imgNmw b

/-- The first of `n` items that fails, as its byte offset. -/
def firstBad (n base step : Nat) (ok : Nat → Bool) : Option Nat :=
  ((List.range n).find? fun i => !ok i).map fun i => base + step * i

/-- Checks 2–10 of R107 on an image of the stated length: the code and the byte offset of the first failure. `cl` is the
cluster, none for an image that is verified without a load; `key` the key in force. -/
def imgCheck (cl : Option Nat) (len minver : Nat) (key : Option (List Byte)) (b : List Byte) : Option (Nat × Nat) :=
  if leAt b 0 4 ≠ 0x53515031 then some (1, 0)
  else if leAt b 4 2 ≠ 0x4832 then some (2, 4)
  else if leAt b 6 1 ≠ 0xB1 then some (2, 6)
  else if (match cl with | some c => !(leAt b 7 1).testBit c | none => false) then some (2, 7)
  else if 1024 < imgNmw b then some (3, 12)
  else if 256 < imgNnw b then some (3, 14)
  else if 64 < imgNmatch b then some (3, 16)
  else if 256 < imgNidx b then some (3, 18)
  else if len ≠ imgLen b then some (3, 12)
  else if leAt b 8 4 < minver then some (9, 8)
  else if (match key with
      | some k => !ecdsaOk k (sha256 (b.take (imgSigAt b))) ((b.drop (imgSigAt b)).take 64)
      | none => true) then some (8, imgSigAt b)
  else match firstBad (imgNmw b) 32 2 (imgMwOk b) with
    | some p => some (4, p)
    | none => match firstBad (imgNnw b) (imgNwAt b) 16 (fun i => nwLegal (imgNw b i)) with
      | some p => some (5, p)
      | none => match firstBad (imgNmatch b) (imgMatchAt b) 4 (imgMatchOk b) with
        | some p => some (6, p)
        | none => (firstBad (imgNidx b) (imgIdxAt b) 8 (imgIdxOk b)).map fun p => (7, p)

/-! ### The store (R104, R106, R108) -/

/-- Fill a table from a function on 0 … n−1. -/
def tblOf {α : Type} (n : Nat) (f : Nat → α) : Tbl α := (List.range n).map fun i => (i, f i)

/-- The cluster runs on the ROM alone: the store clear, no match valid, the ROM's index entries (R108). -/
def romAlone (cl : Nat) (d : Dev) : Dev :=
  let x := d.clu cl
  let d := d.setClu cl { x with pmw := [], pnw := [], rix := [] }
  let d := Dev.each (List.range 64) (fun m d => ((d.wr (F.MATCH_V.ix m) 0 cl).wr (F.MATCH_ROMADDR.ix m) 0 cl).wr (F.MATCH_PADDR.ix m) 0 cl) d
  (d.wr F.PAT_STAT_ACTIVE 0 cl).wr F.PAT_VER_VERSION 0 cl

/-- The words that have arrived enter the store (R106 step 2). -/
def patStore (cl : Nat) (b : List Byte) (d : Dev) : Dev :=
  let x := d.clu cl
  let n := min (min (imgNmw b) 1024) ((b.length - 32) / 2)
  let m := min (min (imgNnw b) 256) ((b.length - imgNwAt b) / 16)
  d.setClu cl { x with pmw := (tblOf n (imgMw b)).filter (fun (p : Nat × Nat) => p.2 != 0)
                       pnw := (tblOf m (imgNw b)).filter (fun (p : Nat × Nat) => p.2 != 0) }

/-- The match registers and index entries become valid, with the version (R106 step 3). -/
def patActivate (cl : Nat) (b : List Byte) (d : Dev) : Dev :=
  let d := patStore cl b d
  let d := Dev.each (List.range (imgNmatch b)) (fun i d =>
    let v := imgMatch b i
    ((d.wr (F.MATCH_V.ix i) (v / 2 ^ 31) cl).wr (F.MATCH_ROMADDR.ix i) (matchRom v) cl).wr (F.MATCH_PADDR.ix i) (matchOff v) cl) d
  let rix := (List.range (imgNidx b)).foldl (fun t i => let (n, e, c) := imgIdx b i; ins t n (e, c)) []
  let d := d.setClu cl { d.clu cl with rix := rix }
  (d.wr F.PAT_STAT_ACTIVE 1 cl).wr F.PAT_VER_VERSION (leAt b 8 4) cl

/-- The end of a load or clear: the cluster is released. -/
def patRelease (cl : Nat) (d : Dev) : Dev :=
  let d := ((d.wr F.PAT_STAT_BUSY 0 cl).wr F.PAT_STAT_PHASE 0 cl).setClu cl { d.clu cl with pat := none }
  (d.wr F.PAT_CTL_LOAD 0 cl).wr F.PAT_CTL_CLEAR 0 cl

/-- The image offset of the item that an uncorrectable store word holds (R107, check 11): a cluster's 768 words are its
microwords, four a word, and then its nanowords, two words each (assumption 84). -/
def storeErrPos (b : List Byte) (m : Mem) : Option Nat :=
  match m with
  | .uncorr w _ =>
    let i := w % 768
    some (if i < 256 then 32 + 8 * i else imgNwAt b + 16 * ((i - 256) / 2))
  | _ => none

/-- Take an image that has arrived, or leave the cluster on the ROM alone with its code and position (R107, R108). The
answer says whether it was taken. -/
def patTake (key : Option (List Byte)) (cl len : Nat) (b : List Byte) (early : Option (Nat × Nat)) (m : Mem) (d : Dev) :
    Bool × Dev :=
  let e := match early with
    | some p => some p
    | none => match imgCheck (some cl) len (d.rd F.PAT_MINVER_MINVER cl) key b with
      | some p => some p
      | none => (storeErrPos b m).map fun p => (0xB, p)
  match e with
  | some (code, pos) => (false, ((romAlone cl d).wr F.PAT_STAT_ERR code cl).wr F.PAT_ERRPOS_POS pos cl)
  | none => (true, (patActivate cl b d).wr F.PAT_STAT_ERR 0 cl)

/-! ### Loads and clears (R106, R109) -/

/-- A warm swap holds PAT_CTL (R426): UPD_SWAP.STATE 1 loading, 2 reverting. -/
def swapping (d : Dev) : Bool := d.rd F.UPD_SWAP_STATE == 1 || d.rd F.UPD_SWAP_STATE == 2

/-- Begin to drain a cluster. -/
def patBegin (p : PatLoad) (cl : Nat) (d : Dev) : Dev :=
  ((d.setClu cl { d.clu cl with pat := some p }).wr F.PAT_STAT_BUSY 1 cl).wr F.PAT_STAT_PHASE 1 cl

/-- A write of 1 to PAT_CTL.LOAD or CLEAR (R106, R109). -/
def patGo (clear : Bool) (cl : Nat) (d : Dev) : Dev :=
  if d.on F.PAT_STAT_BUSY cl || swapping d then d.inc F.PAT_STAT_DROP cl
  else patBegin { clear := clear } cl (d.wr (if clear then F.PAT_CTL_CLEAR else F.PAT_CTL_LOAD) 1 cl)

/-- The cluster has no context left: a context stands for each started ticket (R77, R106). -/
def clusterQuiet (d : Dev) (cl : Nat) : Bool :=
  ((List.range 8).all fun i => (d.chn (8 * cl + i)).ctxs.isEmpty) &&
  !(d.cells.any fun (p : Nat × Cell) => p.2.started && p.2.out.isNone && p.2.dix / 256 == cl)

/-- The next read of an image: one page piece of PAT_SRC (R106, R291, R298). -/
def patRead (cl : Nat) (p : PatLoad) (d : Dev) : Dev :=
  let a := d.rd64 F.PAT_SRC_LO_ADDR F.PAT_SRC_HI_ADDR cl + p.pos
  let n := min (d.rd F.PAT_LEN_LEN cl - p.pos) (4096 - a % 4096)
  if n = 0 then d
  else request cl false { what := .patchImage cl p.pos, addr := a % 2 ^ 64, len := n } d

/-- The bytes a read has returned (R107, check 1). -/
def patData (cl code : Nat) (bytes : List Byte) (d : Dev) : Dev :=
  match (d.clu cl).pat with
  | none => d
  | some p =>
    if p.phase ≠ 2 then d
    else if code ≠ 0 then d.setClu cl { d.clu cl with pat := some { p with err := true } }
    else
      let p := { p with got := p.got ++ bytes, pos := p.pos + bytes.length }
      patRead cl p (patStore cl p.got (d.setClu cl { d.clu cl with pat := some p }))

/-- PATCH_DRAIN_END (R106, R109): the clear ends, or the image's read begins. -/
def patDrainEnd (cl : Nat) (d : Dev) : Dev :=
  match (d.clu cl).pat with
  | none => d
  | some p =>
    if p.phase ≠ 1 ∨ !clusterQuiet d cl then d
    else
      let d := romAlone cl d
      if p.clear then patRelease cl ((d.wr F.PAT_STAT_ERR 0 cl).wr F.PAT_ERRPOS_POS 0 cl)
      else
        let p := { p with phase := 2 }
        let d := (d.setClu cl { d.clu cl with pat := some p }).wr F.PAT_STAT_PHASE 2 cl
        if p.swap then d else patRead cl p d

/-- PATCH_READ_END (R107): every byte has arrived, or a read failed. `m` is what the store's reads and writes met. -/
def patReadEnd (cl : Nat) (m : Mem) (d : Dev) : Dev :=
  match (d.clu cl).pat with
  | none => d
  | some p =>
    if p.phase ≠ 2 ∨ p.swap ∨ (!p.err ∧ p.pos < d.rd F.PAT_LEN_LEN cl) then d
    else
      let m := memFinds d 11 m
      let d := readMem 11 m d
      patRelease cl (patTake (keyInForce d) cl (d.rd F.PAT_LEN_LEN cl) p.got (if p.err then some (0xA, p.pos) else none) m d).2

/-- A write of PAT_MINVER (R109): true when the value is refused. -/
def minverLowers (d : Dev) (cl v : Nat) : Bool := v < d.rd F.PAT_MINVER_MINVER cl

end Sys2Proof.Machine
end

