-- ==== Sys2Proof/Machine/Thermal.lean ====
section
/-!
DEFINITION. Sensors, throttle levels, the trip and the thermal log (R376–R385, R411).
-/

namespace Sys2Proof.Machine

def Dev.sens (d : Dev) (s : Nat) : SensSt := (look d.th.sens s).getD {}

def Dev.setSens (d : Dev) (s : Nat) (x : SensSt) : Dev := { d with th := { d.th with sens := ins d.th.sens s x } }

/-- A sensor's power domain is on (R376, R393). -/
def sensOn (d : Dev) (s : Nat) : Bool := d.cclkOn && (32 ≤ s || phyAwake d s)

def exclBit (s : Nat) (v : Bool) (d : Dev) : Dev :=
  if s < 32 then d.wr F.TH_EXCL0_X (putBit (d.rd F.TH_EXCL0_X) s v) else d.wr F.TH_EXCL1_X (putBit (d.rd F.TH_EXCL1_X) (s - 32) v)

/-- All 40 sensors are excluded (R455, cause 10). -/
def allExcluded (d : Dev) : Bool := d.rd F.TH_EXCL0_X == 0xFFFFFFFF && d.rd F.TH_EXCL1_X == 0xFF

/-! ### Halt (R92, R163, R381) -/

/-- A context a thermal halt ends now: parked before its commit, or between the runs of a READ. -/
def haltEnds (d : Dev) (c : Nat) (p : Nat × Ctx) : Bool :=
  let x := p.2
  betweenRuns d c p || ((x.st == .gap || x.st == .parked || x.st == .ready || x.st == .sliced) && !pastNow d c x)

/-- What a halt in force does to a channel's contexts. -/
def haltSweep (c : Nat) (d : Dev) : Dev :=
  if !d.on F.TH_STAT_HALT then d
  else Dev.each ((d.chn c).ctxs.filter fun p => haltEnds d c p)
    (fun p d => endEarly c p.1 false .halted (fun _ => { status := 0x70, detail := 1 }) d) d

/-- After decodes of a channel: runs that have become due under a fence or a halt end, and resumes become due (R125, R163). -/
def dueSweep (c : Nat) (d : Dev) : Dev := latchDue c (haltSweep c (fenceSweep c d))

/-- The same for the eight channels of a cluster. -/
def dueSweepCl (cl : Nat) (d : Dev) : Dev := Dev.each (List.range 8) (fun i d => dueSweep (8 * cl + i) d) d

/-! ### Plausibility (R377, R378) -/

/-- The reading's oscillator count and temperature are taken. -/
def takeReading (s cnt t : Nat) (d : Dev) : Dev :=
  if !sensOn d s then d
  else
    let x := d.sens s
    (d.setSens s { x with cnt := cnt, same := if cnt = x.cnt then x.same + 1 else 0 }).wr (F.TS_TEMP.ix s) t

/-- The difference from the highest valid neighbour exceeds NDEV. -/
def deviates (d : Dev) (s : Nat) : Bool :=
  match nearTemp d s with
  | none => false
  | some n =>
    let e := sensTemp d s - n
    decide ((2 * d.rd F.TH_PLAUS_NDEV : Int) < e) || decide ((2 * d.rd F.TH_PLAUS_NDEV : Int) < -e)

/-- The code of the first failed check of R377, 0 for none; `x` holds the counts this reading gives. -/
def plausCode (d : Dev) (s : Nat) (x : SensSt) : Nat :=
  let t := sensTemp d s
  if x.cnt = 0 ∨ 4 ≤ x.same then 1
  else if t < -80 ∨ 300 < t then 2
  else if (match x.prev with
      | none => false
      | some p => decide ((d.rd F.TH_PLAUS_RATE : Int) < t - p) || decide ((d.rd F.TH_PLAUS_RATE : Int) < p - t)) then 3
  else if d.rd F.TH_PLAUS_NCNT < x.dev then 4
  else 0

/-- An implausible sensor is excluded (R378). -/
def exclude (s code : Nat) (d : Dev) : Dev :=
  let d := exclBit s true ((d.wr (F.TS_STATE.ix s) 1).wr (F.TS_XCODE.ix s) code)
  let d := (d.wr (F.TS_FLOOR.ix s) (d.rd (F.TS_ZLEVEL.ix s))).wr (F.TS_SUBST.ix s) 1
  let d := raise 0xA1 (safeLink 5 (d.inc F.TH_CNT_EXCLUSIONS))
  if allExcluded d then enterFailSafe 10 0 0 d else d

/-- 100 good readings end a probe (R378). -/
def probeEnd (s : Nat) (d : Dev) : Dev :=
  exclBit s false (((d.wr (F.TS_STATE.ix s) 0).wr (F.TS_FLOOR.ix s) 0).wr (F.TS_SUBST.ix s) 0)

/-! ### The thermal log (R384, R411) -/

def logAddr (i : Nat) : Nat := 0x4000 + 32 * i

def logBytes (d : Dev) (i : Nat) : List Byte := norRead d (logAddr i) 32

def logValid (b : List Byte) : Bool := leAt b 0 4 == 0x54484C31 && crc32c (b.take 28) == leAt b 28 4

/-- The next slot after slot `i`, from `i + 1` or, with no record, from slot 0: the first erased one of its sector, else
the first of the next sector, whose erase is then due. -/
def logNext (d : Dev) (i : Option Nat) : Nat × Bool :=
  let first := match i with | some k => k + 1 | none => 0
  let sec := (match i with | some k => k | none => 0) / 128
  match ((List.range 128).map (· + 128 * sec)).find? fun k => first ≤ k && isErased (logBytes d k) with
  | some k => (k, true)
  | none => ((sec + 1) % 4 * 128, false)

/-- The log's next slot and its registers, after slot `i` (R411). -/
def logSet (i : Option Nat) (d : Dev) : Dev :=
  let (k, ok) := logNext d i
  ((d.wr F.CFG_LOG_NEXT k).put F.CFG_LOG_ARMED ok).put F.CFG_LOG_PREP !ok

/-- The boot scan (R411): the valid record with the highest SEQ. -/
def logScan (d : Dev) : Dev :=
  let rs := (List.range 512).filter fun i => logValid (logBytes d i)
  let best := rs.foldl (fun b i => match b with
    | none => some i
    | some j => if leAt (logBytes d j) 4 4 < leAt (logBytes d i) 4 4 then some i else some j) (none : Option Nat)
  let seq := match best with
    | some i => leAt (logBytes d i) 4 4
    | none => 0
  (logSet best { d with th := { d.th with logSeq := seq } }).wr F.CFG_LOG_SEQ seq

/-- The record of R384. `open'` stands for the highest other valid reading when no other sensor is valid, which R384 leaves
open. -/
def logRecord (d : Dev) (s open' : Nat) : List Byte :=
  let others := ((List.range 40).filter fun n => n != s && d.rd (F.TS_STATE.ix n) == 0).map (sensTemp d)
  let b := leBytes 4 0x54484C31 ++ leBytes 4 ((d.th.logSeq + 1) % 2 ^ 32) ++ leBytes 8 d.time ++ leBytes 1 s ++
    leBytes 1 (d.rd F.TH_STAT_LEVEL) ++ leBytes 2 (wrapInt 16 (sensTemp d s)) ++ leBytes 2 (match maxInt others with | some t => wrapInt 16 t | none => open' % 2 ^ 16) ++
    leBytes 1 (popc 32 (d.rd F.TH_EXCL0_X) + popc 8 (d.rd F.TH_EXCL1_X)) ++ leBytes 1 0 ++ leBytes 2 d.instId ++ leBytes 2 0
  b ++ leBytes 4 (crc32c b)

def logFail (d : Dev) : Dev := raise 0xA8 (d.wr F.TH_STAT_LOGFAIL 1)

def tripLow (d : Dev) : Dev := { d with pins := { d.pins with thTripN := false } }

/-- THERMAL_LOG_PROGRAMMED (R383, R384): the record's program has ended, `ok` telling how. It waits for a session's NOR
operation (R435). -/
def logProgrammed (ok : Bool) (d : Dev) : Dev :=
  match d.th.record with
  | none => d
  | some b =>
    if !d.nor.found || !d.on F.CFG_LOG_ARMED || d.upd.nor != 0 || d.inReset then d
    else
      let d := { d with th := { d.th with record := none } }
      if !ok then logFail d
      else
        let k := d.rd F.CFG_LOG_NEXT
        let seq := leAt b 4 4
        let d := norProgram (logAddr k) b { d with th := { d.th with logSeq := seq } }
        tripLow ((logSet (some k) d).wr F.CFG_LOG_SEQ seq)

/-- THERMAL_TRIP_TIMEOUT (R383, R411): 5 ms after the trip. A record that still waits for its sector's erase is given up;
one on its way to the NOR goes on. -/
def tripTimeout (d : Dev) : Dev :=
  if !d.th.trip || !d.pins.thTripN then d
  else tripLow (if d.th.record.isSome && !d.on F.CFG_LOG_ARMED then logFail { d with th := { d.th with record := none } } else d)

/-- A recognised power fail: a record not on its way to the NOR is given up (R428, assumption 126). -/
def logShut (d : Dev) : Dev :=
  if d.th.record.isSome && (!d.on F.CFG_LOG_ARMED || d.upd.nor != 0) then logFail { d with th := { d.th with record := none } } else d

/-- THERMAL_LOG_ERASE_END (R411). -/
def logEraseEnd (d : Dev) : Dev :=
  if !d.on F.CFG_LOG_PREP then d
  else ((norErase (logAddr (d.rd F.CFG_LOG_NEXT)) d).wr F.CFG_LOG_PREP 0).wr F.CFG_LOG_ARMED 1

/-! ### The trip (R383) -/

/-- A pending power-state request is abandoned (R395). -/
def pmAbandon (d : Dev) : Dev :=
  if d.rd F.PM_STAT_STATE = 2 then
    let d := ((d.wr F.PM_STAT_STATE 0).wr F.PM_CTL_REQ 0).wr F.PM_STAT_BLOCK 0
    dozeShow { d with pm := { d.pm with off := false } }
  else d

/-- The trip by sensor `s`. -/
def thermalTrip (s : Nat) (d : Dev) : Dev :=
  let d := pmAbandon { d.wr F.TH_STAT_TRIPPED 1 with th := { d.th with trip := true } }
  let (v, d) := d.fresh
  let rec' := logRecord d s v
  let d := raise 0xA3 (safeLink 4 (enterFailSafe 9 0 0 d))
  if d.nor.found && !norShut d then { d with th := { d.th with record := some rec' } } else logFail d

/-- The checks on one sensor whose reading has been taken (R377, R378, R383, R395). -/
def checkReading (s : Nat) (d : Dev) : Dev :=
  if !sensOn d s then d
  else
    let x := d.sens s
    let x := { x with dev := if deviates d s then x.dev + 1 else 0 }
    let code := plausCode d s x
    let d := d.setSens s { x with prev := some (sensTemp d s) }
    let st := d.rd (F.TS_STATE.ix s)
    if code ≠ 0 then
      if st = 0 then exclude s code d
      else if st = 2 then (d.wr (F.TS_STATE.ix s) 1).wr (F.TS_XCODE.ix s) code
      else d
    else
      let d := if st = 2 then
          let n := (d.sens s).probe + 1
          let d := d.setSens s { d.sens s with probe := n }
          if 100 ≤ n then probeEnd s d else d
        else d
      if (st = 0 ∨ st = 2) ∧ 250 ≤ sensTemp d s ∧ !d.th.trip then thermalTrip s d else d

/-- TH_REINST (R378); the probe of a sensor that is HELD begins when its domain wakes. -/
def reinst (s : Nat) (d : Dev) : Dev :=
  if d.rd (F.TS_STATE.ix s) = 1 then (d.setSens s { d.sens s with probe := 0 }).wr (F.TS_STATE.ix s) 2
  else if d.rd (F.TS_STATE.ix s) = 3 ∧ (d.sens s).was = 1 then d.setSens s { d.sens s with probe := 0, was := 2 }
  else d

/-! ### Levels (R379–R381) -/

/-- TH_LVLk.TEMP in 0.5 °C. -/
def thT (d : Dev) (k : Nat) : Int := 2 * (d.rd (F.TH_LVL_TEMP.ix k) : Int)

def zoneRise (d : Dev) (t : Int) : Nat → Nat → Nat
  | 0, z => z
  | n + 1, z => if z < 7 ∧ thT d (z + 1) ≤ t then zoneRise d t n (z + 1) else z

def zoneFall (d : Dev) (t : Int) : Nat → Nat → Nat
  | 0, z => z
  | n + 1, z => if 0 < z ∧ t < thT d z - 2 * (d.rd F.TH_CFG_HYST : Int) then zoneFall d t n (z - 1) else z

/-- zone_level (R379) of one zone; a window of 10 µs has passed since the last. -/
def zoneLevel (s : Nat) (d : Dev) : Dev :=
  let x := d.sens s
  let held := !sensOn d s && !d.on (F.TS_SUBST.ix s)
  let x := { x with age := min (x.age + 1) 1048576 }
  let x := if held then x
    else match zoneTemp d s with
      | none => { x with z := 7, age := if x.z = 7 then x.age else 0 }
      | some t =>
        let up := zoneRise d t 7 x.z
        let age := if up = x.z then x.age else 0
        { x with z := if 100 * d.rd F.TH_CFG_DWELL ≤ age then zoneFall d t 7 up else up, age := age }
  (d.setSens s x).wr (F.TS_ZLEVEL.ix s) (max x.z (d.rd (F.TS_FLOOR.ix s)))

def zLvl (d : Dev) (s : Nat) : Nat := d.rd (F.TS_ZLEVEL.ix s)

/-- The sensor whose zone is hottest, the lowest on a tie. -/
def hotZone (d : Dev) : Nat :=
  (List.range 40).foldl (fun b s => if zLvl d b < zLvl d s then s else b) 0

/-- SAFE_IN[2] holds the throttle (R330, link 14). -/
def safeHold (d : Dev) : Bool := linkOn d 14 && bit d.pins.safeIn 2

/-- TH_MAX: the hottest valid reading. -/
def thMax (d : Dev) : Dev :=
  let vs := (List.range 40).filter fun s => d.rd (F.TS_STATE.ix s) == 0
  match vs with
  | [] => d
  | v :: _ =>
    let b := vs.foldl (fun b s => if sensTemp d b < sensTemp d s then s else b) v
    (d.wr F.TH_MAX_TEMP (d.rd (F.TS_TEMP.ix b))).wr F.TH_MAX_SENSOR b

/-- PGMLIM of the level in force (R134, R380). -/
def pgmShow (d : Dev) : Dev :=
  let k := d.rd F.TH_STAT_LEVEL
  d.wr F.LIFT_STAT_PGMLIM (if k = 0 then 255 else if 7 ≤ k then 0 else d.rd (F.TH_LVL_PGM.ix k))

/-- The boot hold of R383 after a trip. -/
def holdCheck (d : Dev) : Dev :=
  if d.th.holdTrip && (List.range 40).all fun s => d.rd (F.TS_STATE.ix s) != 0 ||
      decide (sensTemp d s < thT d 7 - 2 * (d.rd F.TH_CFG_HYST : Int)) then
    { d with th := { d.th with holdTrip := false } }
  else d

/-- CAUSE of a level change (R381). -/
def levelCause (d : Dev) (lv : Nat) : Nat :=
  let h := hotZone d
  if zLvl d h = lv ∨ d.th.holdTrip then (if d.on (F.TS_SUBST.ix h) && zLvl d h == lv then 1 else 0)
  else if lv = 7 ∧ safeHold d then 2 else 3

/-- The instance level (R379, R381). -/
def instLevel (d : Dev) : Dev :=
  let old := d.rd F.TH_STAT_LEVEL
  let h := hotZone d
  let lv := max (max (zLvl d h) (d.rd F.TH_FORCE_MIN)) (if safeHold d || d.th.holdTrip then 7 else 0)
  let d := ((d.wr F.TH_STAT_LEVEL lv).wr F.TH_STAT_HOT h).put F.TH_STAT_HALT (lv == 7)
  let d := pgmShow d
  if lv = old then d
  else
    let d := produce 0x72 (raise 0xA0 (d.inc F.TH_CNT_CHANGES))
    let d := telemetry 8 0 (lv * 2 ^ 15 + old * 2 ^ 12 + h * 2 ^ 6 + levelCause d lv * 2 ^ 4) d
    Dev.each (List.range 32) (fun c d => haltSweep c (rateCheck c d)) d

/-- SENSOR_READING (R376–R379): one window's readings, each a sensor, its oscillator count and its temperature. -/
def sensorWindow (rs : List (Nat × Nat × Nat)) (d : Dev) : Dev :=
  if d.inReset || !d.cclkOn then d
  else
    let d := Dev.each rs (fun r d => takeReading r.1 r.2.1 r.2.2 d) d
    let d := Dev.each rs (fun r d => checkReading r.1 d) d
    let d := instLevel (thMax (holdCheck (Dev.each (List.range 40) zoneLevel d)))
    let cs := (rs.map (·.1)).filter fun s => s < 32
    Dev.each ((List.range 4).filter fun cl => cs.any fun c => chCl c == cl) zqTempTest (Dev.each cs calTempTest d)

/-- The thresholds of a policy (R382). -/
def policyTemps (p : Nat) : List Nat :=
  match p with
  | 0 => [85, 90, 95, 100, 105, 110, 115]
  | 1 => [75, 80, 85, 90, 95, 100, 105]
  | 2 => [90, 95, 100, 104, 108, 112, 115]
  | _ => []

/-- The threshold ceiling of R382 and R385. -/
def tempCeiling (d : Dev) : Nat := if d.on F.TH_STAT_OVR then 122 else 115

/-- The thermal-limit override (R385): floors of the zones of the mask are released; bit 0 of `raise'` lifts the ceiling. -/
def thermalOverride (mask raise' : Nat) (d : Dev) : Dev :=
  let d := Dev.each (bitsOf 40 mask) (fun s d => d.wr (F.TS_FLOOR.ix s) 0) d
  if raise'.testBit 0 then d.wr F.TH_STAT_OVR 1 else d

end Sys2Proof.Machine
end

