-- ==== Sys2Proof/Machine/Reset.lean ====
section
/-!
DEFINITION. The state at PORST_N and SRST_N (R397–R399, R490), and at the loss of CORE in Hibernate (R389).
-/

namespace Sys2Proof.Machine

/-- Trim registers and their targets (R268, R269), and CAL_REF. -/
def isTrimOff (o : Nat) : Bool := (0x1430 ≤ o && o ≤ 0x1448) || (0x1470 ≤ o && o ≤ 0x1488) || o == 0x1414

/-- A die's kept registers: DIE_CFG and DIE_MAP, with the SPAREUSED that DIE_MAP gives, its geometry and CAPPED, STATE and FCAUSE when it is FENCED or in
PROBATION (R398). -/
def dieKept (d : Dev) (o lo x : Nat) : Bool :=
  o == F.DIE_CFG_TOLIM.off || o == F.DIE_MAP_TGT.off || o == 0x3010 || o == 0x3014 ||
  (o == 0x3000 && (lo == 3 || lo == 7 || ((lo == 0 || lo == 4) && (dieState d x == 3 || dieState d x == 4))))

/-- Fields SRST_N leaves alone (R490): FS_LAST and FS_CNT (R465), GIVEUP with its ABORTS (R279), the trims, CAL_REF and the reports of R283, the die
window, SPR_SAFEST, LG_TIME and the tenant window but for TN_USE.CELLS, MP_RCNTr and the logs, PM_* except PM_CTL,
TH_EXCLn, TS_s, TH_STAT.TRIPPED and OVR (R385), RG_EPOCH. -/
def srstKept (d : Dev) (k : Nat) : Bool :=
  let o := keyOff k
  let lo := keyLo k
  o == 0x28 || o == 0x2C || (o == F.CAL_STAT_STATE.off && (lo == F.CAL_STAT_STATE.lo || lo == F.CAL_STAT_ABORTS.lo) && calState d (keyInst k) == 5) || isTrimOff o || (0x1418 ≤ o && o ≤ 0x1420) || dieKept d o lo (keyInst k) || o == 0x5018 ||
  o == 0x700C || o == 0x7010 || (0x7100 ≤ o && o ≤ 0x71B4 && k / 4096 != F.TN_USE_CELLS.off * 32 + F.TN_USE_CELLS.lo) ||
  (0x8018 ≤ o && o ≤ 0x802C) || (0x8100 ≤ o && o ≤ 0x812C) || (0x9004 ≤ o && o ≤ 0x9018) || o == 0x9140 || o == 0x9144 ||
  (0x9200 ≤ o && o ≤ 0x929C) || (o == 0x9108 && (lo == 10 || lo == 11)) || o == 0xB018 || o == 0xB01C

/-- The type of the field a key names. -/
def keyTy (k : Nat) : Option FTy :=
  match fieldsAt (keyOff k) with
  | none => none
  | some fs => (fs.find? fun f => f.lo == keyLo k).map (·.ty)

/-- Read-only and W1C fields outside the RET regions that keep their values through Hibernate, the rules that say so over
R389: the doorbells, TQq_LOST, the safe-state record, the calibration's state and reports (R269, R463), GIVEUP and ABORTS of the
impedance search (R271), CH_STAT and the die states (R463), SPR_CHc and SPR_LUTk whole (R326), the thermal state (R393, R396), what
the boot records (R415, R436), the patch stores' registers (R490), and the ring's state. -/
def hibShown (o lo : Nat) : Bool :=
  (0xE400 ≤ o && o < 0xEC00 && o % 0x10 == 0xC) || (0xEC00 ≤ o && o ≤ 0xEFFF && o % 0x40 == 8) ||
  (0x20 ≤ o && o ≤ 0x3C) || (0x1418 ≤ o && o ≤ 0x1420) || o == 0x1410 || (o == 0x1008 && lo != 12) ||
  (o == F.PZQ_STAT_GIVEUP.off && (lo == F.PZQ_STAT_GIVEUP.lo || lo == F.PZQ_STAT_ABORTS.lo)) ||
  (o == 0x3000 && lo ≤ 7) || o == 0x3010 || o == 0x3014 ||
  (0x5100 ≤ o && o < 0x51C0) || (0x5300 ≤ o && o < 0x5340) || (o == 0x8030 && lo == 0) || o == 0x8000 ||
  (o == 0x9108 && lo != F.TH_STAT_LOGFAIL.lo) || o == 0x9140 || o == 0x9144 || (0x9200 ≤ o && o ≤ 0x929C) ||
  (0xA000 ≤ o && o ≤ 0xA018) || (0xA11C ≤ o && o ≤ 0xA128) || (0xA248 ≤ o && o ≤ 0xA254) || o == 0xA25C ||
  (0xF000 ≤ o && o ≤ 0xF1FC && o != 0xF01C && !(o == 0xF004 && 4 ≤ lo)) ||
  o == 0xC000 || (o == 0xB010 && lo == 0)

/-- Fields Hibernate keeps (R389): every RW, RWC and RWI field, the always-on block's and the RET regions', and those of
`hibShown`. DMA registers take their reset values. -/
def hibKept (k : Nat) : Bool :=
  let o := keyOff k
  !(0x6000 ≤ o && o ≤ 0x68DC) &&
  (keyTy k == some .rw || keyTy k == some .rwc || keyTy k == some .rwi || hibShown o (keyLo k) ||
   isTrimOff o || o == 0x5018 || o == 0x700C || o == 0x7010 || (0x7100 ≤ o && o ≤ 0x71B4) || (0x8018 ≤ o && o ≤ 0x802C) ||
   (0x8100 ≤ o && o ≤ 0x812C) || (0x9000 ≤ o && o ≤ 0x9018) || o == 0xB018 || o == 0xB01C)

/-- The fuse shadow (R398, R416): the unique ID, the key indices, the trims as current values and targets, the repairs. -/
def fuseLoad (fu : Fuses) (d : Dev) : Dev :=
  let d := Dev.each [0, 1, 2, 3] (fun i d => d.wr (F.ID_UID_UID.ix i) (leAt fu.uid (4 * i) 4)) d
  let d := ((d.wr F.SC_KEY_HIDX fu.hidx).wr F.SC_KEY_SIDX fu.sidx).put F.DBG_STAT_FUSELOCK fu.lock
  { d with fuses := { uid := fu.uid, trims := fu.trims, repairs := fu.repairs }, regs := fu.trims.foldl (fun m p =>
      let t := if 0x1430 ≤ keyOff p.1 ∧ keyOff p.1 ≤ 0x1448 then ins m (p.1 + 0x40 * 32 * 4096) p.2 else m
      ins t p.1 p.2) d.regs }

/-- Spares used twice, or macros that do not exist, are ignored with OVF (R371): 282 macros of 64 KiB hold the regions of
R27. -/
def repairScan : List (Nat × Nat × Nat) → List (Nat × Nat) → Nat × Bool
  | [], _ => (0, false)
  | (m, _, s) :: r, seen =>
    if seen.contains (m, s) || 282 ≤ m then
      let q := repairScan r seen
      (q.1, true)
    else
      let q := repairScan r ((m, s) :: seen)
      (q.1 + 1, q.2)

/-- The macros of the RET regions 5 and 6: regions take macros in the order of R27, 64 KiB each (assumption 124). -/
def retMacro (m : Nat) : Bool := 264 ≤ m && m < 273

/-- Row repair (R371): at PORST_N every entry, at a wake from Hibernate those of the CORE regions. -/
def repairs (core : Bool) (d : Dev) : Dev :=
  let (n, ovf) := repairScan (if core then d.fuses.repairs.filter (fun r => !retMacro r.1) else d.fuses.repairs) []
  let d := if core then d else d.wr F.MP_REPAIR_USED n
  if ovf then raise 0x85 (d.wr F.MP_REPAIR_OVF 1) else d

/-- Tenant 0 is enabled by PORST_N (R342). -/
def tenantZero (d : Dev) : Dev := d.wr F.TN_CFG_EN 1

/-- What a reset leaves in the NOR: the background erase completes inside it (R414), and a record write may be cut short
(R428). -/
def norReset (d : Dev) : Dev :=
  norLoss (if d.on F.CFG_LOG_PREP then norErase (logAddr (d.rd F.CFG_LOG_NEXT)) d else d)

/-- PORST_N falls (R397–R399): everything resets; the NOR, the inputs and the ring link's clock are outside. -/
def porst (fu : Fuses) (d : Dev) : Dev :=
  let d := norReset d
  let n : Dev := { nor := { mem := d.nor.mem, qe := d.nor.qe }, freeCtr := d.freeCtr, mp := { init := d.mp.init }
                   ring := { clock := d.ring.clock, txReady := d.ring.txReady }, int := { idle := d.int.idle }
                   pins := { porstN := false, srstN := d.pins.srstN, pfailN := d.pins.pfailN, supWarnN := d.pins.supWarnN
                             safeIn := d.pins.safeIn, testIn := d.pins.testIn, wakeIn := d.pins.wakeIn } }
  pzqFused (fuseLoad fu (tenantZero n))

/-- What SRST_N keeps of the ledger's own state (R342, R352, R358): the records, and banks a power-fail swap froze. -/
def ledKept (x : LedSt) : LedSt :=
  { active := x.active, activeD := x.activeD, frozen := x.frozen, frozenD := x.frozenD, seq := x.seq, lastSwap := x.lastSwap
    nextHalf := x.nextHalf, swapAt := x.swapAt, capAt := x.capAt, resetMark := x.resetMark, pfailExport := x.pfailHeld.or x.pfailExport, capNs := x.capNs, lost := x.lost }

/-- What SRST_N and Hibernate keep of memory protection (R28, R369): the log, and the words of the RET regions. -/
def mpKept (x : MpSt) : MpSt :=
  let y := keepRegions isRet x
  { init := x.init, log := x.log, bad := y.bad, words := y.words, chk := y.chk }

/-- SRST_N falls (R397–R399); ignored while PORST_N is low. -/
def srst (d : Dev) : Dev :=
  if !d.pins.porstN then { d with pins := { d.pins with srstN := false } }
  else
    let d := norReset d
    let n : Dev :=
      { regs := d.regs.filter fun (p : Nat × Nat) => srstKept d p.1
        nor := { mem := d.nor.mem, qe := d.nor.qe }, freeCtr := d.freeCtr, ring := { clock := d.ring.clock, txReady := d.ring.txReady }
        int := { idle := d.int.idle }, led := ledKept d.led, cold := false, fuses := d.fuses
        dies := d.dies.map fun (p : Nat × Die) => (p.1, { p.2 with fenceDue := none })
        mp := mpKept d.mp
        th := { sens := d.th.sens, holdTrip := d.on F.TH_STAT_TRIPPED }
        upd := { recoverNext := d.upd.recoverNext }, tst := { testMode := d.tst.testMode }
        pins := { d.pins with srstN := false, thTripN := true, spoOut := 0 } }
    let n := pzqFused n
    let n := Dev.each (List.range 32) (fun c n => sensBack c (gliding c n)) n
    let n := Dev.each [0, 1, 2, 3] (fun i n => n.wr (F.ID_UID_UID.ix i) (d.rd (F.ID_UID_UID.ix i))) n
    ((n.wr F.SC_KEY_HIDX (d.rd F.SC_KEY_HIDX)).wr F.SC_KEY_SIDX (d.rd F.SC_KEY_SIDX)).put F.DBG_STAT_FUSELOCK (d.on F.DBG_STAT_FUSELOCK)

/-- The telemetry records a queue holds (R69–R71). -/
def tqRecords (x : TqSt) : Nat := sumL (x.closed.map (·.length)) + x.opened.length

/-- The patch words that CORE's going off leaves to the power-state controller: those of the stores, or those it holds
already (assumption 95). -/
def patchKept (d : Dev) : Tbl PatWords :=
  if d.pm.patch.isEmpty then d.cls.map fun (p : Nat × Cl) => (p.1, { pmw := p.2.pmw, pnw := p.2.pnw, rix := p.2.rix }) else d.pm.patch

/-- CORE goes off (R389): what Hibernate leaves of the block. -/
def coreOff (d : Dev) : Dev :=
  let d := Dev.each d.tq (fun p d => d.incW (F.TQ_LOST_LOST.ix p.1) 0 (tqRecords p.2)) d
  pzqFused {
    regs := d.regs.filter fun (p : Nat × Nat) => hibKept p.1
    nor := d.nor, freeCtr := d.freeCtr, cold := d.cold, bootCh := d.bootCh, pins := d.pins
    port := d.port, pm := { d.pm with patch := patchKept d }, led := d.led, fuses := d.fuses
    th := d.th, upd := d.upd, ring := { clock := d.ring.clock, txReady := d.ring.txReady }
    int := { pend := d.int.pend, idle := d.int.idle, wake := d.int.wake, held := d.int.held }
    cq := d.cq, dies := d.dies, fs := d.fs
    cls := d.cls.map fun (p : Nat × Cl) => (p.1, ({ zqTemp := p.2.zqTemp } : Cl))
    chs := d.chs.map fun (p : Nat × Ch) => (p.1, ({ rb := p.2.rb, pads := p.2.pads, cal := p.2.cal, rateWant := p.2.rateWant, enum := p.2.enum.filter (·.step == 6) } : Ch))
    pfm := { armDue := d.on F.ADM_CTL_PFMEN && d.rd64 F.PFM_BASE_LO_ADDR F.PFM_BASE_HI_ADDR != 0, seq := d.pfm.seq }
    mp := mpKept d.mp }

end Sys2Proof.Machine
end

