-- ==== Sys2Proof/Machine/Dma.lean ====
section
/-!
DEFINITION. The DMA engine (R301–R312): descriptors, bursts, ends, halts and guards.
-/

namespace Sys2Proof.Machine

def Dev.dch (d : Dev) (c : Nat) : DmaCh := (look d.dma c).getD {}

def Dev.setDch (d : Dev) (c : Nat) (x : DmaCh) : Dev := { d with dma := ins d.dma c x }

/-- DMA_STAT.STATE encodings (R313). -/
def dmaState (d : Dev) (c : Nat) : Nat := d.rd (F.DMA_STAT_STATE.ix c)

def setDmaState (c s : Nat) (d : Dev) : Dev := d.wr (F.DMA_STAT_STATE.ix c) s

/-- RUN, STOPPING or HALTING: the busy states of R311 and R313. -/
def dmaBusy (d : Dev) (c : Nat) : Bool := dmaState d c == 1 || dmaState d c == 2 || dmaState d c == 4

def dmaTotal (d : Dev) (c : Nat) : Nat :=
  d.rd (F.DMA_ACNT_ACNT.ix c) * d.rd (F.DMA_BCCNT_BCNT.ix c) * d.rd (F.DMA_BCCNT_CCNT.ix c)

def dmaNext (d : Dev) (c : Nat) : Nat := d.rd64 (F.DMA_NEXT_LO_ADDR.ix c) (F.DMA_NEXT_HI_ADDR.ix c)

/-- Address of byte `m` on one side (R301), with 64-bit wrap-around. -/
def dmaAddr (d : Dev) (c m base s1 s2 : Nat) : Nat :=
  let a := d.rd (F.DMA_ACNT_ACNT.ix c)
  let b := d.rd (F.DMA_BCCNT_BCNT.ix c)
  wrapInt 64 ((base : Int) + (m / (a * b) : Nat) * signed 32 s2 + (m / a % b : Nat) * signed 32 s1 + (m % a : Nat))

def dmaSrc (d : Dev) (c m : Nat) : Nat :=
  dmaAddr d c m (d.rd64 (F.DMA_SRC_LO_ADDR.ix c) (F.DMA_SRC_HI_ADDR.ix c)) (d.rd (F.DMA_SSTEP1_STEP.ix c)) (d.rd (F.DMA_SSTEP2_STEP.ix c))

def dmaDst (d : Dev) (c m : Nat) : Nat :=
  dmaAddr d c m (d.rd64 (F.DMA_DST_LO_ADDR.ix c) (F.DMA_DST_HI_ADDR.ix c)) (d.rd (F.DMA_DSTEP1_STEP.ix c)) (d.rd (F.DMA_DSTEP2_STEP.ix c))

/-- Bytes of the burst that begins at byte `m`: within its run, at most 32 beats and no 4 KiB boundary on either side
(R304). -/
def dmaBurst (d : Dev) (c m : Nat) : Nat :=
  let a := d.rd (F.DMA_ACNT_ACNT.ix c)
  let s := dmaSrc d c m
  let t := dmaDst d c m
  min (a - m % a) (min (min (2048 - s % 64) (2048 - t % 64)) (min (4096 - s % 4096) (4096 - t % 4096)))

/-- DMA_GSTAT.BUSY and HALT follow the states (R313). -/
def dmaGstat (d : Dev) : Dev :=
  let busy := (List.range 16).foldl (fun m c => putBit m c (dmaBusy d c)) 0
  let halt := (List.range 16).foldl (fun m c => putBit m c (dmaState d c == 5)) 0
  (d.wr F.DMA_GSTAT_BUSY busy).wr F.DMA_GSTAT_HALT halt

/-- A half of the buffer has a request outstanding. -/
def Half.issued : Half → Bool
  | .free => false
  | .reading _ _ _ _ i => i
  | .writing _ _ _ _ i _ => i

/-- The address of a halt cause; where R308 names none, a free value. -/
def haltAddr (a : Option Nat) (d : Dev) : Nat × Dev :=
  match a with
  | some x => (x, d)
  | none => d.fresh

/-- DMA_HALT (R308): the channel enters HALTING, and HALT once nothing is outstanding; cause ERR. -/
def dmaSettle (c : Nat) (d : Dev) : Dev :=
  let x := d.dch c
  match x.fail with
  | none => d
  | some (kind, addr) =>
    if x.h0.issued || x.h1.issued || x.fetching then d
    else
      let d := d.setDch c { x with fail := none, h0 := .free, h1 := .free }
      let d := ((setDmaState c 5 d).wr (F.DMA_STAT_EKIND.ix c) kind).wr64 (F.DMA_ERRADDR_LO_ADDR.ix c) (F.DMA_ERRADDR_HI_ADDR.ix c) addr
      dmaGstat ((d.wr (F.DMA_STAT_ERR.ix c) 1).inc F.DMA_GERR_HALTS)

/-- A burst that no port has accepted yet goes out no more: its half is free, and bytes of it that have not gone out
count again in DMA_REMAIN (R304, R308). -/
def dmaDropBurst (c i : Nat) (d : Dev) : Dev :=
  let x := d.dch c
  let n := match (if i = 0 then x.h0 else x.h1) with
    | .writing _ _ n tries _ _ => if tries = 0 then n else 0
    | _ => 0
  let left := d.rd64 (F.DMA_REMAIN_LO_BYTES.ix c) (F.DMA_REMAIN_HI_BYTES.ix c)
  (d.setDch c (if i = 0 then { x with h0 := .free } else { x with h1 := .free })).wr64
    (F.DMA_REMAIN_LO_BYTES.ix c) (F.DMA_REMAIN_HI_BYTES.ix c) (left + n)

/-- The channel issues no further request (R308, R310): those waiting at the ports leave. -/
def dmaWithdraw (c : Nat) (d : Dev) : Dev :=
  let mine := d.fab.flatMap fun p => (p.2.rd.dma ++ p.2.wr.dma).filter fun r => r.dmaOf == some c
  let keep := fun (x : Dir) => { x with dma := x.dma.filter fun r => r.dmaOf != some c }
  let d := { d with fab := d.fab.map fun (p : Nat × Port) => (p.1, { rd := keep p.2.rd, wr := keep p.2.wr : Port }) }
  Dev.each mine (fun r d => match r.what with
    | .dmaRead _ i => dmaDropBurst c i d
    | .dmaWrite _ i => dmaDropBurst c i d
    | _ => d.setDch c { d.dch c with fetching := false }) d

def dmaFail (c kind : Nat) (a : Option Nat) (d : Dev) : Dev :=
  let x := d.dch c
  if x.fail.isSome then dmaSettle c d
  else
    let (addr, d) := haltAddr a d
    dmaSettle c (dmaGstat (setDmaState c 4 (dmaWithdraw c (d.setDch c { d.dch c with fail := some (kind, addr) }))))

/-- An illegal DMA_STAT.STATE: the channel halts with EKIND 0, though another halt has begun (R313). -/
def dmaIllegal (c : Nat) (d : Dev) : Dev :=
  match (d.dch c).fail with
  | none => dmaFail c 0 none d
  | some (_, a) => dmaSettle c (dmaGstat (setDmaState c 4 (d.setDch c { d.dch c with fail := some (0, a) })))

/-- Begin the descriptor in the registers (R303). -/
def dmaBegin (c : Nat) (d : Dev) : Dev :=
  let x := d.dch c
  let d := d.setDch c { x with h0 := .free, h1 := .free, placed := 0, doneBytes := 0, halfSent := false }
  d.wr64 (F.DMA_REMAIN_LO_BYTES.ix c) (F.DMA_REMAIN_HI_BYTES.ix c) (dmaTotal d c)

/-- Fetch the frond at NEXT under the guards of R309. -/
def dmaFetch (c : Nat) (d : Dev) : Dev :=
  let nx := dmaNext d c
  let hops := d.rd (F.DMA_HOPS_HOPS.ix c)
  let lim := let h := d.rd (F.DMA_CFG_HOPMAX.ix c); if h = 0 then 65536 else h
  let x := d.dch c
  if !d.on (F.DMA_CFG_CYCLIC.ix c) && lim ≤ hops then dmaFail c 7 none d
  else if !d.on (F.DMA_CFG_CYCLIC.ix c) && hops != 0 && (nx == x.guard || nx == x.loaded) then dmaFail c 8 none d
  else
    let d := d.setDch c { x with fetching := true, fetchTries := 0 }
    let d := d.incW (F.DMA_HOPS_HOPS.ix c)
    request (d.rd (F.DMA_CFG_PORT.ix c)) false
      { what := .dmaFrond c, addr := nx, len := 64, kind := .dma, ns := d.on (F.DMA_CFG_NS.ix c), hipri := d.on (F.DMA_CFG_HIPRI.ix c) } d

/-- DMA_DESCRIPTOR_END (R305, R307): every byte's write response has returned OK. -/
def dmaDescEnd (c : Nat) (d : Dev) : Dev :=
  let d := if d.on (F.DMA_DCTL_FULLIRQ.ix c) then d.wr (F.DMA_STAT_FULL.ix c) 1 else d
  if dmaNext d c = 0 then
    produce (0x50 + c) (dmaGstat (((setDmaState c 0 d).wr (F.DMA_STAT_DONE.ix c) 1).wr (F.DMA_CTL_STOP.ix c) 0))
  else if dmaState d c = 2 then dmaGstat ((setDmaState c 3 d).wr (F.DMA_CTL_STOP.ix c) 0)
  else dmaFetch c d

/-- Whether a START or trigger would be taken (R311, R372). -/
def dmaCanStart (d : Dev) (c : Nat) : Bool := regionReady d 9 && d.on F.DMA_GCTL_EN && (dmaState d c == 0 || dmaState d c == 3)

/-- DMA_CTL.START (R303, R307, R311). -/
def dmaStart (c : Nat) (d : Dev) : Dev :=
  if !dmaCanStart d c then d.inc (F.DMA_STAT_DROP.ix c)
  else
    let stopped := dmaState d c == 3
    let d := d.wr (F.DMA_HOPS_HOPS.ix c) 0
    let d := d.setDch c { d.dch c with guard := dmaNext d c, loaded := 0 }
    let d := dmaGstat (setDmaState c 1 d)
    if stopped then dmaFetch c d
    else if dmaTotal d c = 0 then dmaFail c 5 none d
    else dmaBegin c d

/-- DMA_CTL.STOP (R307): until the boundary the channel is STOPPING. -/
def dmaStop (c : Nat) (d : Dev) : Dev :=
  if dmaState d c = 1 then dmaGstat (setDmaState c 2 (d.wr (F.DMA_CTL_STOP.ix c) 1)) else d

/-- DMA_CTL.CLR (R308); STOP clears at IDLE (R313). -/
def dmaClr (c : Nat) (d : Dev) : Dev :=
  if dmaState d c = 5 then dmaGstat (((setDmaState c 0 d).wr (F.DMA_STAT_EKIND.ix c) 0).wr (F.DMA_CTL_STOP.ix c) 0) else d

/-- A frond is invalid (R302). -/
def frondBad (b : List Byte) : Bool :=
  leAt b 16 3 == 0 || leAt b 19 1 != 0 || leAt b 20 2 == 0 || leAt b 22 2 == 0 || leAt b 40 8 % 64 != 0 ||
  leAt b 48 4 / 8 != 0 || leAt b 52 8 != 0

/-- Load a frond into the descriptor registers (R302, R303). -/
def loadFrond (c : Nat) (b : List Byte) (d : Dev) : Dev :=
  let d := d.wr64 (F.DMA_SRC_LO_ADDR.ix c) (F.DMA_SRC_HI_ADDR.ix c) (leAt b 0 8)
  let d := d.wr64 (F.DMA_DST_LO_ADDR.ix c) (F.DMA_DST_HI_ADDR.ix c) (leAt b 8 8)
  let d := ((d.wr (F.DMA_ACNT_ACNT.ix c) (leAt b 16 3)).wr (F.DMA_BCCNT_BCNT.ix c) (leAt b 20 2)).wr (F.DMA_BCCNT_CCNT.ix c) (leAt b 22 2)
  let d := (d.wr (F.DMA_SSTEP1_STEP.ix c) (leAt b 24 4)).wr (F.DMA_DSTEP1_STEP.ix c) (leAt b 28 4)
  let d := (d.wr (F.DMA_SSTEP2_STEP.ix c) (leAt b 32 4)).wr (F.DMA_DSTEP2_STEP.ix c) (leAt b 36 4)
  let d := d.wr64 (F.DMA_NEXT_LO_ADDR.ix c) (F.DMA_NEXT_HI_ADDR.ix c) (leAt b 40 8)
  let k := leAt b 48 4
  ((d.wr (F.DMA_DCTL_HALFIRQ.ix c) (fld k 0 1)).wr (F.DMA_DCTL_FULLIRQ.ix c) (fld k 1 1)).wr (F.DMA_DCTL_DSTK.ix c) (fld k 2 1)

/-- The end of a frond read (R303, R308). -/
def frondDone (c code : Nat) (r : Req) (b : List Byte) (d : Dev) : Dev :=
  let x := d.dch c
  if !x.fetching then d
  else if x.fail.isSome then dmaSettle c (d.setDch c { x with fetching := false })
  else if code != 0 then
    if r.tries < d.rd (F.DMA_CFG_RETRY.ix c) then
      request (d.rd (F.DMA_CFG_PORT.ix c)) false { r with tries := r.tries + 1 } (d.inc F.DMA_GERR_RETRIES)
    else dmaFail c 4 (some r.addr) (d.setDch c { x with fetching := false })
  else
    let d := d.setDch c { x with fetching := false, loaded := r.addr }
    if d.on (F.DMA_CFG_FCRC.ix c) && crc32c (b.take 60) != leAt b 60 4 then dmaFail c 6 none d
    else if frondBad b then dmaFail c 5 none d
    else dmaBegin c (loadFrond c b d)

/-- A read burst has ended (R304, R308); `ue` says that its write into the buffer met an uncorrectable word, at which the
channel halts when the burst comes to be written (R364). -/
def dmaReadEnd (c half code : Nat) (b : List Byte) (ue : Bool) (d : Dev) : Dev :=
  let x := d.dch c
  let h := if half = 0 then x.h0 else x.h1
  let put := fun (y : Half) (d : Dev) => d.setDch c (if half = 0 then { d.dch c with h0 := y } else { d.dch c with h1 := y })
  match h with
  | .reading s t n tries true =>
    if x.fail.isSome then dmaSettle c (put .free d)
    else if code = 0 then
      let d := put (.writing s t n 0 false (fitTo n 0 b)) d
      d.setDch c { d.dch c with ue := putBit (d.dch c).ue half ue }
    else if tries < d.rd (F.DMA_CFG_RETRY.ix c) then put (.reading s t n (tries + 1) false) (d.inc F.DMA_GERR_RETRIES)
    else dmaFail c 1 (some s) (put .free d)
  | _ => d

/-- Bytes of the descriptor written with OK, and cause HALF once they are at least half of it, rounded down (R305). -/
def dmaWritten (c n : Nat) (d : Dev) : Dev :=
  let x := d.dch c
  let d := d.setDch c { x with doneBytes := x.doneBytes + n }
  if d.on (F.DMA_DCTL_HALFIRQ.ix c) && !x.halfSent && dmaTotal d c / 2 ≤ x.doneBytes + n then
    (d.setDch c { d.dch c with halfSent := true }).wr (F.DMA_STAT_HALF.ix c) 1
  else d

/-- The same, and the descriptor's end once they are all of it (R305). -/
def dmaCovered (c n : Nat) (d : Dev) : Dev :=
  let d := dmaWritten c n d
  if (d.dch c).doneBytes = dmaTotal d c then dmaDescEnd c d else d

/-- A write burst has been answered (R304). One outstanding when the channel failed completes normally (R308). -/
def dmaWriteEnd (c half code : Nat) (d : Dev) : Dev :=
  let x := d.dch c
  let h := if half = 0 then x.h0 else x.h1
  let put := fun (y : Half) (d : Dev) => d.setDch c (if half = 0 then { d.dch c with h0 := y } else { d.dch c with h1 := y })
  match h with
  | .writing s t n tries true b =>
    if code = 0 then
      if x.fail.isSome then dmaSettle c (dmaWritten c n (put .free d)) else dmaCovered c n (put .free d)
    else if x.fail.isSome then dmaSettle c (put .free d)
    else if tries < d.rd (F.DMA_CFG_RETRY.ix c) then put (.writing s t n (tries + 1) false b) (d.inc F.DMA_GERR_RETRIES)
    else
      let rem := d.rd64 (F.DMA_REMAIN_LO_BYTES.ix c) (F.DMA_REMAIN_HI_BYTES.ix c)
      dmaFail c (if rem = 0 then 3 else 2) (some t) (put .free d)
  | _ => d

/-- A half of the channel's buffer. -/
def DmaCh.half (x : DmaCh) (i : Nat) : Half := if i = 0 then x.h0 else x.h1

def setHalf (c i : Nat) (y : Half) (d : Dev) : Dev :=
  d.setDch c (if i = 0 then { d.dch c with h0 := y } else { d.dch c with h1 := y })

/-- The image intake takes bytes: a session is OPEN and nothing is being programmed (R419). -/
def intakeOpen (d : Dev) : Bool := d.rd F.UPD_STAT_STATE == 2 && !d.on F.UPD_STAT_FULL

/-- A half holds bytes whose write can be issued (R304, R419). -/
def writeReady (d : Dev) (c i : Nat) : Bool :=
  match (d.dch c).half i with
  | .writing _ _ _ _ false _ => !d.on (F.DMA_DCTL_DSTK.ix c) || intakeOpen d
  | _ => false

/-- A half waits to read its burst again (R308). -/
def rereadReady (d : Dev) (c i : Nat) : Bool :=
  match (d.dch c).half i with
  | .reading _ _ _ _ false => true
  | _ => false

/-- The write of a half's burst has been issued, or the half is free. -/
def Half.past : Half → Bool
  | .free => true
  | .reading _ _ _ _ _ => false
  | .writing _ _ _ _ i _ => i

/-- A half's destination holds a byte of a source range: that range is read once the half has been written (R312). -/
def Half.feeds (s n : Nat) : Half → Bool
  | .free => false
  | .reading _ t k _ _ => spansMeet (s, s + n) (t, t + k)
  | .writing _ t k _ _ _ => spansMeet (s, s + n) (t, t + k)

/-- A free half can take the next burst of the descriptor. -/
def placeReady (d : Dev) (c i : Nat) : Bool :=
  let x := d.dch c
  x.half i == .free && x.placed < dmaTotal d c &&
    (d.on (F.DMA_DCTL_DSTK.ix c) || !(x.half (1 - i)).feeds (dmaSrc d c x.placed) (dmaBurst d c x.placed))

/-- The half a channel would issue a burst for (R304): a filled one to write, the earlier burst before the later, as bytes
are copied in ascending order (R301); else one to read again; else a free one for the next burst. -/
def dmaPick (d : Dev) (c : Nat) : Option Nat :=
  let x := d.dch c
  let a := x.older % 2
  let b := 1 - a
  if !(dmaState d c == 1 || dmaState d c == 2) || x.fail.isSome || x.fetching then none
  else if writeReady d c a then some a
  else if writeReady d c b && (x.half a).past then some b
  else if rereadReady d c a then some a
  else if rereadReady d c b then some b
  else if placeReady d c 0 then some 0
  else if placeReady d c 1 then some 1
  else none

/-- Whether a channel has a burst to issue. -/
def dmaHasBurst (d : Dev) (c : Nat) : Bool := (dmaPick d c).isSome

/-- The first channel after `last` in round-robin order with a burst at a priority (R306). -/
def dmaTurn (d : Dev) (hi : Bool) (last : Nat) : Option Nat :=
  ((List.range 16).map fun i => (last + 1 + i) % 16).find? fun c =>
    d.on (F.DMA_CFG_HIPRI.ix c) == hi && dmaHasBurst d c

/-- Write a half's bytes (R304). `intake` delivers the bytes of a burst whose destination is the image intake, and answers
how many it took (R302, R419); the rest waits. `m` is the reading of the buffer: an uncorrectable word ends the burst (R308,
EKIND 9). -/
def dmaIssueWrite (intake : Nat → List Byte → Dev → Nat × Dev) (m : Mem) (c i s t n tries : Nat) (b : List Byte) (d : Dev) : Dev :=
  let m := memFinds d 9 m
  let d := readMem 9 m d
  let spend := fun (k : Nat) (d : Dev) =>
    let left := d.rd64 (F.DMA_REMAIN_LO_BYTES.ix c) (F.DMA_REMAIN_HI_BYTES.ix c)
    if tries = 0 then d.wr64 (F.DMA_REMAIN_LO_BYTES.ix c) (F.DMA_REMAIN_HI_BYTES.ix c) (left - k) else d
  if m.isUe || bit (d.dch c).ue i then dmaFail c 9 (some t) (setHalf c i .free d)
  else if d.on (F.DMA_DCTL_DSTK.ix c) then
    let (k, d) := intake t b d
    if k = 0 then d
    else dmaCovered c k (spend k (setHalf c i (if k < n then .writing s (t + k) (n - k) 0 false (b.drop k) else .free) d))
  else
    spend n (request (d.rd (F.DMA_CFG_PORT.ix c)) true
      { what := .dmaWrite c i, addr := t, len := n, kind := .dma, ns := d.on (F.DMA_CFG_NS.ix c), hipri := d.on (F.DMA_CFG_HIPRI.ix c)
        data := b } (setHalf c i (.writing s t n tries true b) d))

/-- Read a burst into a half (R304). -/
def dmaIssueRead (c i s t n tries : Nat) (d : Dev) : Dev :=
  request (d.rd (F.DMA_CFG_PORT.ix c)) false
    { what := .dmaRead c i, addr := s, len := n, kind := .dma, ns := d.on (F.DMA_CFG_NS.ix c), hipri := d.on (F.DMA_CFG_HIPRI.ix c) }
    (setHalf c i (.reading s t n tries true) d)

/-- Issue the next burst of a channel (R304). -/
def dmaIssue (intake : Nat → List Byte → Dev → Nat × Dev) (m : Mem) (c : Nat) (d : Dev) : Dev :=
  match dmaPick d c with
  | none => d
  | some i =>
    let x := d.dch c
    match x.half i with
    | .writing s t n tries _ b => dmaIssueWrite intake m c i s t n tries b d
    | .reading s t n tries _ => dmaIssueRead c i s t n tries d
    | .free =>
      let n := dmaBurst d c x.placed
      dmaIssueRead c i (dmaSrc d c x.placed) (dmaDst d c x.placed) n 0
        (d.setDch c { x with placed := x.placed + n, older := if x.half (1 - i) = .free then i else 1 - i })

/-- DMA_BURST_ISSUE (R306): the issue slot goes to a high-priority channel first, then round-robin. -/
def dmaBurstIssue (intake : Nat → List Byte → Dev → Nat × Dev) (m : Mem) (d : Dev) : Dev :=
  match dmaTurn d true d.dmaLastHi with
  | some c => dmaIssue intake m c { d with dmaLastHi := c }
  | none => match dmaTurn d false d.dmaLast with
    | some c => dmaIssue intake m c { d with dmaLast := c }
    | none => d

/-- Power fail: every running channel stops issuing and halts with PFAIL (R310). -/
def dmaPowerFail (d : Dev) : Dev :=
  Dev.each (List.range 16) (fun c d =>
    if dmaState d c == 1 || dmaState d c == 2 then dmaFail c 10 none d else d) d

end Sys2Proof.Machine
end

