-- ==== Sys2Proof/Machine/Spores.lean ====
section
/-!
DEFINITION. The consumer side of the Spore router: delivery, LUT cells, the loop guard (R329, R333–R337), and the inputs
SPI_IN and SAFE_IN (R328, R330).
-/

namespace Sys2Proof.Machine

/-! ### Consumers (R329) -/

/-- The cell and input a consumer number names. -/
def lutOf (dst : Nat) : Nat × Nat := ((dst - 0x20) / 3, (dst - 0x20) % 3)

/-- A consumer is non-secure. -/
def consumerNs (d : Dev) (dst : Nat) : Bool :=
  if dst < 0x10 then d.on (F.DMA_CFG_NS.ix dst)
  else if dst < 0x20 then true
  else if dst < 0x50 then d.on (F.SPR_LUT_NS.ix (lutOf dst).1)
  else bit (d.rd F.SPR_OUTNS_NS) (dst - 0x50)

/-- A consumer is busy. A DMA channel with TRIG = 0 takes no trigger, and drops none (R311). -/
def consumerBusy (d : Dev) (dst : Nat) : Bool :=
  if dst < 0x10 then d.on (F.DMA_CFG_TRIG.ix dst) && !dmaCanStart d dst
  else if dst < 0x20 then false
  else if dst < 0x50 then
    d.on (F.SPR_LUT_FF.ix (lutOf dst).1) && bit (d.rd (F.SPR_LUT_STICKY.ix (lutOf dst).1)) (lutOf dst).2
  else false

/-- A consumer's action; a DMA channel acts on a trigger with TRIG = 1 (R311); a LUT input in FF mode sets its sticky bit, one in COMB mode is read from `comb` of the cycle. -/
def consumerAct (dst : Nat) (d : Dev) : Dev :=
  if dst < 0x10 then (if d.on (F.DMA_CFG_TRIG.ix dst) then dmaStart dst d else d)
  else if dst < 0x20 then raise (0xF0 + (dst - 0x10)) d
  else if dst < 0x50 then
    let k := (lutOf dst).1
    if d.on (F.SPR_LUT_FF.ix k) then d.wr (F.SPR_LUT_STICKY.ix k) (setBit (d.rd (F.SPR_LUT_STICKY.ix k)) (lutOf dst).2) else d
  else
    let b := dst - 0x50
    { d with pins := { d.pins with spoOut := putBit d.pins.spoOut b (!bit d.pins.spoOut b) } }

/-! ### LUT cells (R335) -/

/-- A cell's function in this cycle; `comb` holds the inputs that received a spore, cell k's in bits 3k+2–3k. -/
def lutF (d : Dev) (comb k : Nat) : Bool :=
  let x := if d.on (F.SPR_LUT_FF.ix k) then d.rd (F.SPR_LUT_STICKY.ix k) else fld comb (3 * k) 3
  bit (d.rd (F.SPR_LUT_TRUTH.ix k)) x

/-- One cycle of a cell: it becomes due to fire when its function has been 1 for FILT + 1 cycles. -/
def lutCycle (comb k : Nat) (d : Dev) : Dev :=
  if lutF d comb k then
    let n := (look d.spr.filt k).getD 0 + 1
    if bit d.spr.spent k then d
    else
      let d := { d with spr := { d.spr with filt := ins d.spr.filt k n } }
      if d.rd (F.SPR_LUT_FILT.ix k) < n then
        { d with spr := { d.spr with due := setBit d.spr.due k, spent := setBit d.spr.spent k } }
      else d
  else { d with spr := { d.spr with filt := del d.spr.filt k, spent := clrBit d.spr.spent k } }

/-- LUT_FIRE: the spore enters producer 0x60 + k; FF mode clears the sticky bits. -/
def lutFire (k : Nat) (d : Dev) : Dev :=
  if !bit d.spr.due k then d
  else
    let d := { d with spr := { d.spr with due := clrBit d.spr.due k } }
    let d := if d.on (F.SPR_LUT_FF.ix k) then d.wr (F.SPR_LUT_STICKY.ix k) 0 else d
    produce (0x60 + k) d

/-- A write of SPR_LUTk clears the sticky bits and the filter count; a firing that is due stays so. -/
def lutWritten (k : Nat) (d : Dev) : Dev :=
  { d with spr := { d.spr with filt := del d.spr.filt k, spent := clrBit d.spr.spent k } }.wr
    (F.SPR_LUT_STICKY.ix k) 0

/-! ### Delivery (R333, R334, R337) -/

/-- One of the 48 channels has carried a spore: it is counted, and on a loop it counts as a re-entry and may trip (R337). -/
def carried (c : Nat) (d : Dev) : Dev :=
  if 48 ≤ c then d else
  let d := d.incW (F.SPR_CNT_CARRIED.ix c)
  if d.on (F.SPR_CH_LOOP.ix c) then
    let n := (look d.spr.reent c).getD 0 + 1
    let d := { d with spr := { d.spr with reent := ins d.spr.reent c n } }
    if d.rd F.SPR_LGCFG_MAX < n then
      ((d.wr (F.SPR_CH_EN.ix c) 0).wr (F.SPR_CH_TRIP.ix c) 1).wr F.SPR_FLAG_LOOPTRIP 1
    else d
  else d

/-- Spores that reach one consumer in one cycle: `n` of them pass security. A DMA channel counts the trigger it drops
(R311). -/
def reach (dst n : Nat) (d : Dev) : Dev :=
  if n = 0 then d
  else
    let d := if 2 ≤ n then (d.inc F.SPR_COINC_CNT).wr F.SPR_COINC_LASTCONS dst else d
    if consumerBusy d dst then
      let f := F.SPR_OVR_OVR.ix (dst / 32)
      let d := (d.wr f (setBit (d.rd f) (dst % 32))).wr F.SPR_FLAG_OVR 1
      if dst < 0x10 then dmaStart dst d else d
    else consumerAct dst d

/-- Drop the spores of non-secure channels that have reached a secure consumer. -/
def secDrop (n : Nat) (d : Dev) : Dev :=
  if n = 0 then d else (d.inc F.SPR_SECDROP_CNT 0 n).wr F.SPR_FLAG_SECDROP 1

/-- SPORE_DELIVER: one CCLK cycle of the router; while SPR_CTL.EN is 0 the channels carry nothing (R338). Every spore in a register stage reaches its consumer, and every LUT cell
takes its cycle. -/
def sporeDeliver (d : Dev) : Dev :=
  let st := if d.on F.SPR_CTL_EN then d.spr.stage else []
  let d := { d with spr := { d.spr with stage := [] } }
  let d := Dev.each st (fun s d => carried s.chan d) d
  let d0 := d
  let ok := st.filter fun s => !s.ns || consumerNs d0 s.dst
  let d := secDrop (st.length - ok.length) d
  let comb := ok.foldl (fun m s => if 0x20 ≤ s.dst ∧ s.dst < 0x50 then setBit m (s.dst - 0x20) else m) 0
  let d := Dev.each ((List.range 96).filter fun t => st.any fun s => s.dst == t)
    (fun t d => reach t (ok.filter fun s => s.dst == t).length d) d
  Dev.each (List.range 16) (lutCycle comb) d

/-- LOOP_WINDOW_END (R337). -/
def loopWindowEnd (d : Dev) : Dev := { d with spr := { d.spr with reent := [] } }

/-! ### The loop graph (R336) -/

/-- An edge from channel `c` to channel `e`. -/
def sprEdge (d : Dev) (c e : Nat) : Bool :=
  let dst := d.rd (F.SPR_CH_DST.ix c)
  let src := d.rd (F.SPR_CH_SRC.ix e)
  (0x20 ≤ dst && dst < 0x50 && src == 0x60 + (lutOf dst).1) || (dst < 0x10 && src == 0x50 + dst)

/-- Channels reached from a set, in `fuel` more steps. -/
def sprReach (d : Dev) (en : List Nat) : Nat → List Nat → List Nat
  | 0, s => s
  | fuel + 1, s => sprReach d en fuel (en.filter fun e => s.contains e || s.any fun c => sprEdge d c e)

def onLoop (d : Dev) (en : List Nat) (c : Nat) : Bool :=
  en.contains c && (sprReach d en en.length (en.filter fun e => sprEdge d c e)).contains c

/-- LOOP of every channel is computed again. -/
def loopScan (d : Dev) : Dev :=
  let en := (List.range 48).filter fun c => d.on (F.SPR_CH_EN.ix c)
  let d0 := d
  Dev.each (List.range 48) (fun c d => d.put (F.SPR_CH_LOOP.ix c) (onLoop d0 en c)) d

/-- A write of EN = 1 clears the channel's count (R337). -/
def chWritten (c : Nat) (on : Bool) (d : Dev) : Dev :=
  loopScan (if on then { d with spr := { d.spr with reent := del d.spr.reent c } } else d)

/-! ### Inputs (R328, R330) -/

/-- SPI_IN_EDGE: a rising edge of SPI_IN[i]. -/
def spiEdge (i : Nat) (d : Dev) : Dev := produce (0x7C + i) d

/-- The NOR after a recognised power fail (R428): what was in progress has ended inside it, nothing more is issued, and the
record in force is read as it stands. -/
def norCut (d : Dev) : Dev :=
  if d.nor.undone.isEmpty then logShut d else bpLoad (norLoss (logShut d))

/-- POWER_FAIL_RECOGNISED: a pending power-state request is abandoned, producer 0x70 (R72, R328, R388). In PHASE 9 the boot
waits for PFAIL_N all the same (R402). -/
def powerFailEvent (d : Dev) : Dev :=
  if d.inReset || d.pfSeen || d.rd F.BOOT_STAT_PHASE == 9 then d
  else norCut (powerFail dmaPowerFail (produce 0x70 (if d.cclkOn then pmAbandon d else d)))

/-- SAFE_IN_EDGE: SAFE_IN[i] takes a level; a rise is an event of link 12 + i. -/
def safeInEdge (i : Nat) (up : Bool) (d : Dev) : Dev :=
  let d := { d with pins := { d.pins with safeIn := putBit d.pins.safeIn i up } }
  if !d.pins.porstN then d
  else
    let d := if up then safeLink (12 + i) d else d
    let d := if i = 0 ∧ up ∧ d.rd F.FS_STAT_CAUSE = 11 then d.wr F.FS_STAT_CLEARED 0 else d
    if i = 2 then (if linkOn d 14 && d.live then instLevel d else d)
    else if !up || !linkOn d (12 + i) then d
    else match i with
      | 0 => enterFailSafe 11 0 0 d
      | 1 => powerFailEvent d
      | _ => d.wr F.ADM_CTL_EN 0

end Sys2Proof.Machine
end

