-- ==== Sys2Proof/Machine/Power.lean ====
section
/-!
DEFINITION. Power states (R386–R392, R395), the supply warning, and the clock watches (R32, R33, R393).
-/

namespace Sys2Proof.Machine

/-- The units of R387, code 5: a seed, sweep, patch load, export, accumulator move or emission, or impedance search. -/
def unitsBusy (d : Dev) : Bool :=
  d.on F.LM_STAT_SEEDBUSY || d.on F.LM_STAT_SWPBUSY || ((List.range 4).any fun cl => d.on F.PAT_STAT_BUSY cl || d.on F.PZQ_STAT_BUSY cl) ||
  swapping d || d.on F.LG_STAT_EXPBUSY || (List.range 64).any fun n => d.rd F.ACC_STAT_STATE n == 2 || d.rd F.ACC_STAT_STATE n == 4

/-- Requests still at a port's arbiter. -/
def fabricWaits (d : Dev) : Bool :=
  d.fab.any fun p => !(p.2.rd.ctrl.isEmpty && p.2.rd.data.isEmpty && p.2.rd.dma.isEmpty && p.2.wr.ctrl.isEmpty && p.2.wr.data.isEmpty && p.2.wr.dma.isEmpty)

/-- BLOCK: the first condition of R387 that does not hold, 0 for none. -/
def pmBlock (d : Dev) : Nat :=
  if !d.cells.isEmpty || !admIdle d then 1
  else if (List.range 16).any (dmaBusy d) then 2
  else if !fabricQuiet d || fabricWaits d || !d.answers.isEmpty || manifestDue d || d.pfm.phase == 1 || d.pfm.phase == 3 then 3
  else if d.int.gap != 0 then 4
  else if unitsBusy d then 5
  else 0

/-- What the entry also waits for without a code: routines without a ticket (R92, boundary), an update session's NOR
operation (R435). -/
def pmWaits (d : Dev) : Bool :=
  ((List.range 32).any fun c => !(d.chn c).ctxs.isEmpty || (d.chn c).waking) || d.upd.nor != 0

/-- PM_CTL.REQ written 1 or 2 (R387, R435): a calibration run in progress ends, at its step's end where one is running, and
is due again (R288). -/
def pmRequest (d : Dev) : Dev :=
  if d.rd F.PM_STAT_STATE ≤ 1 then
    let d := sessionAbort (d.wr F.PM_STAT_STATE 2)
    let d := Dev.each (List.range 32) (fun c d => if calState d c = 3 ∧ (calCtx d c).isNone then calAbandon c d else d) d
    d.wr F.PM_STAT_BLOCK (pmBlock d)
  else d

/-- A wake begins (R390). -/
def wakeStart (d : Dev) : Dev := if d.rd F.PM_STAT_STATE = 3 then d.wr F.PM_STAT_STATE 4 else d

/-- PM_CTL.REQ written 0 (R387, R390). -/
def pmCancel (d : Dev) : Dev := if d.rd F.PM_STAT_STATE = 2 then pmAbandon d else wakeStart d

/-- CCLK is gated, or the state is saved and CORE goes off (R326, R388, R389, R438, R463). -/
def pmGate (d : Dev) : Dev :=
  let hib := d.rd F.PM_CTL_REQ == 2
  let d := rgTake (loopbacksEnd (intSleep hib d))
  let d := ringQuiet { d with pm := { d.pm with off := false, hib := hib }, ring := { d.ring with active := false } }
  let d := (d.wr F.PM_STAT_STATE 3).wr F.PM_STAT_BLOCK 0
  if hib then coreOff d else d

/-- Every PHY goes off; runs in progress become due again (R288, R388). -/
def allPhysOff (d : Dev) : Dev :=
  Dev.each (List.range 32) (fun c d =>
    let d := if calState d c = 3 then calAbandon c d else d
    if phyAwake d c then phyOff c d else d) d

/-- POWER_STATE_ENTRY (R387, R388): once every condition holds, the PHYs go off and an empty manifest is written when one
is armed; once it has been answered, the clock is gated. -/
def powerEntry (d : Dev) : Dev :=
  if !pmPending d || d.inReset then d
  else
    let d := d.wr F.PM_STAT_BLOCK (pmBlock d)
    if pmBlock d ≠ 0 ∨ pmWaits d then d
    else if d.pm.off then pmGate d
    else
      let d := allPhysOff { d with pm := { d.pm with off := true } }
      if d.on F.PFM_STAT_ARMED then manifestEmpty d else pmGate d

/-- PM_ENTRY_TIMEOUT (R387). -/
def entryTimeout (d : Dev) : Dev := if pmPending d && d.on F.PM_CFG_ENTTO then raise 0xA6 d else d

/-- WAKE_IN_EDGE (R390, R395). -/
def wakeIn (d : Dev) : Dev :=
  let d := { d with pins := { d.pins with wakeIn := true } }
  if d.inReset then d else if pmPending d then pmAbandon d else wakeStart d

/-- The outcome of R365 for a retention word. -/
def retLoss (l : RetLoss) (d : Dev) : Dev :=
  match l with
  | .trims c w s =>
    let d := memUE 6 w 0 s d
    let d := Dev.each trims (fun t d => (d.wr t.1 (fusedTrim d t.1 c) c).wr t.2.1 (fusedTrim d t.1 c) c) d
    gliding c ((d.wr F.CAL_STAT_STATE 0 c).wr F.CAL_STAT_SRC 0 c)
  | .counter r w s => (((memUE 6 w 0 s d).wr (F.MP_RCNT_CE.ix r) 0xFFFF).wr (F.MP_RCNT_REP.ix r) 0xFF).wr (F.MP_RCNT_UE.ix r) 0xFF
  | .context w s => enterFailSafe 2 16 6 (safeLink 6 (memUE 6 w 0 s d))

/-- A fill under mode 0 has ended (R373). -/
def fillNote (d : Dev) : Dev := if d.mp.init = 0 then raise 0x84 d else d

/-- The CORE regions' readiness after a fill under the mode in force (R372). -/
def coreFill (d : Dev) : Dev :=
  let d := d.wr F.MP_CFG_INIT d.mp.init
  d.wr F.MP_STAT_READY (if d.mp.init = 0 then 0xFFF else 0x060)

/-- The causes recorded in Nap or Hibernate act at the wake; after a power fail no manifest is written (R388, R392). -/
def wakeCause (d : Dev) : Dev :=
  let cs := d.pm.causes
  let d := Dev.each cs (fun c d => enterFailSafe c 0 0 d) { d with pm := { d.pm with causes := [] } }
  if cs.contains 12 then { d with fs := { d.fs with man := false } } else d

/-- WAKE_COMPLETE (R326, R352, R372, R389, R390, R393): `us` is the wake time. -/
def wakeComplete (us : Nat) (loss : List RetLoss) (d : Dev) : Dev :=
  if d.rd F.PM_STAT_STATE ≠ 4 ∨ d.pins.cclkLost ∨ d.pins.aonLost then d
  else
    let hib := d.pm.hib
    let d := { d with pm := { d.pm with hib := false } }
    let d := if hib then coreFill d else d
    let d := if hib && d.mp.init = 0 then patchFill d else d
    let d := (d.wr F.PM_STAT_STATE 0).wr F.PM_CTL_REQ 0
    let d := dozeShow (d.put F.PM_STAT_LASTHIB hib)
    let d := if hib then d.incW F.PM_CNT_HIBS else d.incW F.PM_CNT_NAPS
    let d := d.wr F.PM_WAKE_LAST (min us 65535)
    let d := { d with th := { d.th with sens := d.th.sens.map fun (p : Nat × SensSt) => (p.1, { p.2 with prev := none }) } }
    let d := { d with ring := { d.ring with active := d.ring.clock && d.on F.RG_CTL_EN && !d.on F.TST_RINGLB_EN } }
    let d := intWake d
    -- repairs of the CORE regions (R371), the fills' end (R373), and the restored channels' loops (R326, R336)
    let d := if hib then loopScan (fillNote (repairs true d)) else d
    let d := raise 0xA5 (ledgerWake d)
    wakeCause (Dev.each (if hib then loss else []) retLoss d)

/-! ### Supply and clocks -/

/-- SUPPLY_WARNING (R392). -/
def supplyWarning (d : Dev) : Dev :=
  if !d.pins.porstN then d
  else enterFailSafe 8 0 0 (raise 0xA7 (safeLink 8 { d with pins := { d.pins with supWarnN := false } }))

/-- CLOCK_LOSS (R32, R393, R455): CCLK (0), a cluster link clock (1–4) or CFGCLK (5). -/
def clockLoss (k : Nat) (d : Dev) : Dev :=
  if !d.pins.porstN || (k = 0 && !d.cclkOn && !d.pm.hib) || d.pm.hib then d
  else
    let d := raise 0xA4 (safeLink 2 d)
    if k = 0 then enterFailSafe 5 0 0 (({ d with pins := { d.pins with cclkLost := true } }).wr F.PM_CLKMON_CCLK 1)
    else if k ≤ 4 then
      let d := { d with pins := { d.pins with linkLost := setBit d.pins.linkLost (k - 1) } }
      enterFailSafe 6 0 0 (d.wr F.PM_CLKMON_LINK (setBit (d.rd F.PM_CLKMON_LINK) (k - 1)))
    else ({ d with pins := { d.pins with cfgLost := true } }).wr F.PM_CLKMON_CFG 1

/-- AONCLK_WATCH (R33, R455). -/
def aonWatch (d : Dev) : Dev :=
  if !d.pins.porstN then d
  else enterFailSafe 7 0 0 ((raise 0xA4 (safeLink 3 { d with pins := { d.pins with aonLost := true } })).wr F.PM_CLKMON_AON 1)

/-- CFGCLK_RETURN (R32). -/
def cfgReturn (d : Dev) : Dev := { d with pins := { d.pins with cfgLost := false } }

end Sys2Proof.Machine
end

