-- ==== Sys2Proof/Machine/Ring.lean ====
section
/-!
DEFINITION. The Dvorlas ring (R437–R451): frames received, heartbeats, epochs, the fence, drift summaries and stripe
fragments.
-/

namespace Sys2Proof.Machine

/-- RG_EPOCH (R445). -/
def ringEpoch (d : Dev) : Nat := d.rd64 F.RG_EPOCH_LO_EPOCH F.RG_EPOCH_HI_EPOCH

/-- A new epoch; source 0x0E2. -/
def setEpoch (e : Nat) (d : Dev) : Dev := raise 0xE2 (d.wr64 F.RG_EPOCH_LO_EPOCH F.RG_EPOCH_HI_EPOCH (e % 2 ^ 64))

/-- A status flag of the ring and the source its rise raises (R443, R451). -/
def ringFlag (f : Fld) (src : Nat) (d : Dev) : Dev := if d.on f then d else raise src (d.wr f 1)

/-- RL_ACTIVE follows its conditions (R438, R469). -/
def ringActive (d : Dev) : Dev :=
  { d with ring := { d.ring with active := d.live && d.on F.RG_CTL_EN && d.ring.clock && !d.on F.TST_RINGLB_EN } }

/-! ### The fence and declarations (R445, R446) -/

/-- RING accumulators fail what they are sending or receiving (R446). -/
def ringAccFail (d : Dev) : Dev :=
  Dev.each (List.range 64) (fun n d =>
    let x := d.accu n
    if (isSender d n && x.waitAck) || (isReceiver d n && x.frag.isSome) then accRingFail n d else d) d

/-- INSTANCE_FENCE (R446). -/
def ringFence (d : Dev) : Dev :=
  if d.rd F.RG_STAT_STATE = 2 then d else ringAccFail (raise 0xE1 (safeLink 11 (d.wr F.RG_STAT_STATE 2)))

/-- A declaration (R445): the epoch rises by 1, an EPOCH frame names the dead instance. -/
def declareDead (x : Nat) (d : Dev) : Dev :=
  let e := (ringEpoch d + 1) % 2 ^ 64
  let d := ringPush 2 0xFFFF x 0 [] (setEpoch e d)
  let d := (d.wr F.RG_DEAD_ID x).inc F.RG_DEAD_DECL
  let d := { d with ring := { d.ring with deadAt := some (e, x) } }
  produce 0x79 (raise 0xE0 d)

/-- HEARTBEAT_LOSS (R445). A neighbour already recorded dead at this epoch is not declared again (DEDUCED, assumption 21). -/
def heartbeatLoss (d : Dev) : Dev :=
  let up := d.rd F.RG_UP_ID
  if !d.ring.active || d.rd F.RG_STAT_STATE != 1 || d.pfSeen || up == 0 || d.ring.deadAt == some (ringEpoch d, up) then d
  else declareDead up d

/-! ### Heartbeats (R442–R444) -/

/-- FLAGS of a heartbeat sent now (R442). -/
def beatFlags (d : Dev) : Nat := d.rd F.RG_CFG_TMASTER + 2 * d.rd F.FS_STAT_ACTIVE

/-- HEARTBEAT_SEND. -/
def heartbeatSend (d : Dev) : Dev :=
  let d := rgTake d
  ringPush 1 0xFFFF d.time (beatFlags d) [] d

/-- The own heartbeat has come back after `rtt` × 10 ns (R443). -/
def heartbeatBack (rtt : Nat) (d : Dev) : Dev :=
  let d := (d.wr F.RG_RTT_RTT (min rtt 65535)).wr F.RG_STAT_OPEN 0
  if 100 * d.rd F.RG_CFG2_BUDGET < rtt then ringFlag F.RG_STAT_OVERBUDGET 0xE4 d else d

/-- Own frames up to and with the oldest heartbeat, which has not returned, and those after it. -/
def dropBeat : List (Nat × Nat) → List (Nat × Nat) × List (Nat × Nat)
  | [] => ([], [])
  | (s, ty) :: r => if ty = 1 then ([(s, ty)], r) else ((s, ty) :: (dropBeat r).1, (dropBeat r).2)

/-- RING_RETURN_TIMEOUT (R443): the own heartbeat is later than BUDGET, or than 4 × BUDGET: it is awaited no longer, but a
return still counts (assumption 21). -/
def returnTimeout (late : Bool) (d : Dev) : Dev :=
  if !ringUp d || d.ring.outstanding.all (fun p => p.2 != 1) then d
  else if late then
    let (a, b) := dropBeat d.ring.outstanding
    ringFlag F.RG_STAT_OPEN 0xE3 { d with ring := { d.ring with outstanding := b, late := d.ring.late ++ a } }
  else ringFlag F.RG_STAT_OVERBUDGET 0xE4 d

/-- Alignment of LG_TIME to a MASTER heartbeat (R444, R356). -/
def alignTime (arg hops : Nat) (d : Dev) : Dev :=
  let a := (arg * 1000 + hops * d.rd F.RG_CFG3_HOPNS) / 1000
  let t := d.time
  let d := { d with ring := { d.ring with hold := if a + 1 < t then t - a else 0 } }
  if t + 1 < a then setTime (a % 2 ^ 64) d else d

/-- A consumed HEARTBEAT (R442, R444). -/
def takeHeartbeat (f : Frame) (d : Dev) : Dev :=
  let d := if f.hops = 0 then d.wr F.RG_UP_ID f.src else d
  if bit f.flags 0 && !d.on F.RG_CFG_TMASTER then alignTime f.arg f.hops d else d

/-- A consumed JOIN (R447). -/
def takeJoin (f : Frame) (d : Dev) : Dev := if f.hops = 0 then d.wr F.RG_UP_ID f.src else d

/-! ### Epochs (R441 row 7, R445) -/

/-- The epoch of an EPOCH frame that names another instance is adopted. -/
def adoptEpoch (f : Frame) (d : Dev) : Dev :=
  let x := f.arg % 65536
  let d := (setEpoch f.epoch d).wr F.RG_DEAD_ID x
  { d with ring := { d.ring with deadAt := some (f.epoch, x) } }

/-- A consumed EPOCH frame at this epoch (R445). -/
def takeEpoch (f : Frame) (d : Dev) : Dev :=
  let x := f.arg % 65536
  if x = d.rd F.RG_ID_ID then ringFence d
  else match d.ring.deadAt with
    | some (e, y) => if e = ringEpoch d ∧ y ≠ x then declareDead x d else d
    | none => d

/-! ### Drift summaries (R448) -/

/-- DRIFT_SEND. -/
def driftSend (d : Dev) : Dev :=
  if d.rd F.RG_CFG2_DSPER = 0 then d
  else ringPush 4 0xFFFF 0 0 ((List.range 1024).flatMap fun x => leBytes 4 (d.word [F.LM_SUM_MOVUP, F.LM_SUM_MOVDN] x)) d

/-- A consumed DRIFT frame goes to the next slot; from a full region the oldest summary is lost. -/
def takeDrift (f : Frame) (d : Dev) : Dev :=
  let id := d.ring.driftCount
  let n := d.rd F.RG_DCFG_SLOTS + 1
  let slot := d.rd F.RG_DCFG_NEXT % n
  let b := leBytes 2 f.src ++ leBytes 6 f.epoch ++ leBytes 4 d.time ++ leBytes 52 0 ++ fitTo 4096 0 f.payload
  let ps := pieces (d.rd64 F.RG_DBASE_LO_ADDR F.RG_DBASE_HI_ADDR + 4160 * slot) 4160
  let d := if n ≤ id then d.inc F.RG_DROP_LOST else d
  let d := d.wr F.RG_DCFG_NEXT ((slot + 1) % n)
  let d := { d with ring := { d.ring with driftCount := id + 1, drift := ins d.ring.drift id (ps.length, false) } }
  Dev.each ps (fun q d => request 0 true { what := .driftSlot id, addr := q.1, len := q.2.2, data := (b.drop q.2.1).take q.2.2 } d) d

/-- The answer to a piece of a slot's write (R298). -/
def driftAnswer (id : Nat) (r : Req) (code : Nat) (d : Dev) : Dev :=
  if code != 0 ∧ r.tries < 4 then request 0 true { r with tries := r.tries + 1 } d
  else match look d.ring.drift id with
    | none => d
    | some (n, bad) =>
      let bad := bad || code != 0
      if n ≤ 1 then
        let d := { d with ring := { d.ring with drift := del d.ring.drift id } }
        if bad then d.inc F.RG_DROP_LOST else raise 0xE6 d
      else { d with ring := { d.ring with drift := ins d.ring.drift id (n - 1, bad) } }

/-! ### Stripe fragments (R449) -/

def fragAck (f : Frame) (code : Nat) (d : Dev) : Dev := ringPush 6 f.src (f.arg % 65536 + 65536 * code) 0 [] d

/-- A consumed FRAG frame. `m` is the reading of the words it is XORed into, `ws` are the words (R217, R364): an uncorrectable one
ends in ERROR, and the frame has no answer (assumption 129). -/
def takeFrag (f : Frame) (m : Mem) (ws : List MemWr) (d : Dev) : Dev :=
  let n := fld f.arg 21 6
  let k := fld f.arg 16 5
  let x := d.accu n
  if d.on F.FS_STAT_ACTIVE then fragAck f 4 d
  else if !(accState d n == 1 && !d.on F.ACC_STAT_ABORTING n && isReceiver d n && d.rd F.ACC_RTAG_TAG n == fld f.arg 0 16 &&
      d.rd F.ACC_CFG_CPROF n == fld f.arg 27 3 && accCwn d n == fld f.arg 30 4) then fragAck f 1 d
  else
    let next := match x.frag with | some (_, i) => i | none => 0
    if (match x.frag with | some (s, _) => s != f.src | none => false) = true then fragAck f 2 d
    else if k ≠ next then fragAck f 3 (accRingFail n d)
    else
      let m := memFinds d 3 m
      let (ues, d) := memWrites 3 ws (readMem 3 m d)
      if m.isUe || ues.any id then accUe n (d.setAcc n { d.accu n with frag := none })
      else
      let d := xorContents (2048 * k) (fitTo 2048 0 f.payload) n d
      if k = 31 then
        let d := (d.setAcc n { d.accu n with frag := none }).inc F.ACC_RTAG_RCVD n
        emitCheck n (fragAck f 0 d)
      else d.setAcc n { d.accu n with frag := some (f.src, k + 1) }

/-- The SENDER a FRAGACK is for: the lowest that waits for its peer's answer on that tag. -/
def fragSender (d : Dev) (f : Frame) : Option Nat :=
  (List.range 64).find? fun n => isSender d n && accState d n == 2 && (d.accu n).waitAck &&
    d.rd F.ACC_RTAG_TAG n == fld f.arg 0 16 && d.rd F.ACC_RPEER_PEER n == f.src

/-- A consumed FRAGACK. -/
def takeFragAck (f : Frame) (d : Dev) : Dev :=
  match fragSender d f with
  | none => d
  | some n =>
    if fld f.arg 16 8 = 0 then accDone n (d.setAcc n { d.accu n with waitAck := false }) else accRingFail n d

/-- FRAG_TIMEOUT: a SENDER without its answer, or a RECEIVER stopped mid-fragment. -/
def fragTimeout (n : Nat) (d : Dev) : Dev :=
  let x := d.accu n
  if isSender d n && accState d n == 2 && x.waitAck then accRingFail n d
  else match x.frag with
    | none => d
    | some (src, _) =>
      if accState d n != 1 then d.setAcc n { x with frag := none }
      else ringPush 6 src (d.rd F.ACC_RTAG_TAG n + 65536 * 3) 0 [] (accRingFail n d)

/-! ### A received frame (R441) -/

/-- Bytes 0–27 of a frame's header (R439). -/
def Frame.header (f : Frame) : List Byte :=
  leBytes 2 f.dst ++ leBytes 2 f.src ++ leBytes 1 f.ty ++ leBytes 1 (f.payload.length / 32) ++ leBytes 1 f.hops ++
  leBytes 1 f.flags ++ leBytes 8 f.epoch ++ leBytes 4 f.seq ++ leBytes 8 f.arg

/-- FCRC of a frame. -/
def Frame.crc (f : Frame) : Nat := crc32c (f.header ++ f.payload)

/-- The frame goes on, with HOPS + 1: it waits in the forwarding buffer. -/
def forward (f : Frame) (d : Dev) : Dev := { d with ring := { d.ring with fwd := d.ring.fwd ++ [{ f with hops := f.hops + 1 }] } }

/-! ### The transmit side (R439, R441) -/

/-- Forwarded frames in a row after which one local frame goes out; 0 means 16 (R451). -/
def fairCount (d : Dev) : Nat := if d.rd F.RG_CFG_FAIR = 0 then 16 else d.rd F.RG_CFG_FAIR

/-- The link takes the oldest frame to forward. -/
def sendForward (f : Frame) (r : List Frame) (d : Dev) : Dev :=
  { d with ring := { d.ring with fwd := r, run := d.ring.run + 1, sent := d.ring.sent ++ [f] } }

/-- The link takes the oldest local frame: it has the sender's frame count, and a HEARTBEAT the time and the flags of its
sending (R442). -/
def sendOwn (f : Frame) (r : List Frame) (d : Dev) : Dev :=
  let x := d.ring
  let g := { f with seq := x.seq, arg := if f.ty = 1 then d.time else f.arg, flags := if f.ty = 1 then beatFlags d else f.flags }
  { d with ring := { x with own := r, run := 0, seq := (x.seq + 1) % 2 ^ 32, sent := x.sent ++ [g]
                            outstanding := x.outstanding ++ [(x.seq, f.ty)] } }

/-- The next frame on the link: a forwarded one, but for one local frame after FAIR of them in a row. -/
def linkFrame (d : Dev) : Dev :=
  match d.ring.fwd, d.ring.own with
  | [], [] => d
  | f :: r, [] => sendForward f r d
  | [], g :: q => sendOwn g q d
  | f :: r, g :: q => if d.ring.run < fairCount d then sendForward f r d else sendOwn g q d

/-- Local frames that may no longer go out: any while FENCED or after a power fail, FRAGs in the fail-safe state (R446,
R450). -/
def ownDrop (d : Dev) : Dev :=
  if d.pfSeen || d.rd F.RG_STAT_STATE == 2 then { d with ring := { d.ring with own := [] } }
  else if d.on F.FS_STAT_ACTIVE then { d with ring := { d.ring with own := d.ring.own.filter fun f => f.ty != 5 } }
  else d

/-- While RL_TX_READY is low the next frame stands on the link and is held (R437). -/
def linkHold (d : Dev) : Dev :=
  match d.ring.tx with
  | some _ => d
  | none =>
    let e := linkFrame d
    { e with ring := { e.ring with sent := d.ring.sent, tx := (e.ring.sent.drop d.ring.sent.length).head? } }

/-- The link takes the frames that wait, in the order of R441 (assumption 20), the one held first (R437). -/
def linkSend (d : Dev) : Dev :=
  if !ringUp d then d
  else
    let d := ownDrop d
    if !d.ring.txReady then linkHold d
    else
      let d := { d with ring := { d.ring with sent := d.ring.sent ++ d.ring.tx.toList, tx := none } }
      (List.range (d.ring.fwd.length + d.ring.own.length)).foldl (fun d _ => linkFrame d) d

/-- Own frames addressed to one instance do not come back while that instance takes them: those older than the frame that
has returned have been taken (assumption 21). -/
def skipTaken (seq : Nat) : List (Nat × Nat) → List (Nat × Nat)
  | [] => []
  | (s, ty) :: r => if s ≠ seq ∧ (ty = 5 ∨ ty = 6) then skipTaken seq r else (s, ty) :: r

/-- What a consumed frame does, by TYPE. -/
def consume (f : Frame) (m : Mem) (ws : List MemWr) (d : Dev) : Dev :=
  match f.ty with
  | 1 => takeHeartbeat f d
  | 2 => takeEpoch f d
  | 3 => takeJoin f d
  | 4 => takeDrift f d
  | 5 => takeFrag f m ws d
  | 6 => takeFragAck f d
  | _ => d

/-- An own frame that has come back (R441 rows 2 and 3, R443); one given up earlier may come, before any that went out after
it. -/
def ownFrame (f : Frame) (rtt : Nat) (d : Dev) : Dev :=
  match d.ring.late.find? fun p => p.1 == f.seq with
  | some (s, ty) =>
    let d := { d with ring := { d.ring with late := (d.ring.late.dropWhile fun p => p.1 != s).drop 1 } }
    if ty = 1 then heartbeatBack rtt d else d
  | none =>
  match skipTaken f.seq d.ring.outstanding with
  | (s, ty) :: r =>
    if s = f.seq then
      let d := { d with ring := { d.ring with outstanding := r, late := [] } }
      if ty = 1 then heartbeatBack rtt d else d
    else ringFence (ringFlag F.RG_STAT_DUPID 0xE5 d)
  | [] => ringFence (ringFlag F.RG_STAT_DUPID 0xE5 d)

/-- Rows 4–10 of R441 for another member's frame. -/
def otherFrame (f : Frame) (m : Mem) (ws : List MemWr) (d : Dev) : Dev :=
  if d.rd F.RG_CFG_MAXHOP ≤ f.hops then d.inc F.RG_DROP_HOPS
  else if d.rd F.RG_STAT_STATE = 2 then forward f d
  else if f.epoch < ringEpoch d then d.inc F.RG_DROP_STALE
  else if ringEpoch d < f.epoch then
    if f.ty = 2 ∧ f.epoch = ringEpoch d + 1 ∧ f.arg % 65536 ≠ d.rd F.RG_ID_ID then forward f (adoptEpoch f d)
    else forward f (ringFence d)
  else if f.dst = d.rd F.RG_ID_ID then (if d.pfSeen then d else consume f m ws d)
  else if f.dst = 0xFFFF then (if d.pfSeen then forward f d else forward f (consume f m ws d))
  else forward f d

/-- RL_RX_READY (R438): low while the forwarding buffer holds eight frames. -/
def rlRxReady (d : Dev) : Bool := d.ring.fwd.length < 8

/-- A frame arrives with the check `fcrc` (R439, R441); a heartbeat of this instance has taken `rtt` × 10 ns. RL_RX_READY is
low while eight frames wait to be forwarded, and the frame stays with the transport (R438). In ring loopback the frames
returned and their errors are counted (R469). -/
def ringRx (f : Frame) (fcrc rtt : Nat) (m : Mem) (ws : List MemWr) (d : Dev) : Dev :=
  if !ringUp d || !rlRxReady d then d
  else if fcrc ≠ f.crc then
    let d := if d.on F.TST_RINGLB_EN then d.inc F.TST_RINGLB_ERR else d
    d.inc F.RG_DROP_CRC
  else
    let d := if d.on F.TST_RINGLB_EN then d.inc F.TST_RINGLB_RTN else d
    if f.src = d.rd F.RG_ID_ID then ownFrame f rtt d else otherFrame f m ws d

/-! ### Joining, leaving, RL_CLK (R438, R440, R447) -/

/-- RG_CTL.EN has been written (R440, R450): an instance that leaves forgets the frames it waits for. FENCED ends only by
a rejoin (R447). -/
def ringEnable (on : Bool) (d : Dev) : Dev :=
  let d := rgTake d
  let d := if d.rd F.RG_STAT_STATE = 2 then d else d.wr F.RG_STAT_STATE (b2n on)
  let d := if on then d else ringQuiet d
  ringActive d

/-- RING_LINK_CLOCK_LOSS: without a clock no transfer ends. -/
def ringClockLoss (d : Dev) : Dev :=
  let d := { d with ring := { d.ring with tx := none } }
  ringActive { ringQuiet d with ring := { (ringQuiet d).ring with clock := false } }

/-- RING_LINK_CLOCK_RETURN. -/
def ringClockReturn (d : Dev) : Dev := ringActive { d with ring := { d.ring with clock := true } }

/-- SC_RING_REJOIN's effect (R447); its conditions are the sealed command's. -/
def ringRejoin (epoch : Nat) (d : Dev) : Dev :=
  ringPush 3 0xFFFF 0 0 [] (ringActive ((setEpoch epoch d).wr F.RG_STAT_STATE 1))

end Sys2Proof.Machine
end

