-- ==== Sys2Proof/Machine/Update.lean ====
section
/-!
DEFINITION. Update sessions (R418–R422) and the warm swap (R426).
-/

namespace Sys2Proof.Machine

/-! ### Sessions (R418–R420) -/

def updTarget (d : Dev) : Nat := d.rd F.UPD_CTL_TARGET
def updLen (d : Dev) : Nat := d.rd F.UPD_LEN_LEN

/-- The NOR address of a target (R405). -/
def targetAddr (t : Nat) : Nat := if t ≤ 1 then slotAddr t else if t ≤ 3 then setAddr (t - 2) else 0

/-- OPEN is allowed for the target (R418); in ROM recovery mode, for any (R429). -/
def targetOk (d : Dev) (t : Nat) : Bool :=
  let p := d.upd.bp
  if d.rd F.BOOT_STAT_PHASE = 8 then true
  else if t ≤ 1 then !(t == p.active || (p.trial && t == p.prev))
  else if t ≤ 3 then !(d.on F.CFG_SET_V && d.rd F.CFG_SET_COPY == t - 2)
  else false

/-- UPD_LEN is allowed for the target (R418). -/
def lenOk (t len : Nat) : Bool :=
  if t ≤ 1 then 256 ≤ len && len ≤ 34432 else if t ≤ 3 then 64 ≤ len && len ≤ 32768 && len % 8 == 0 else len == 64

/-- VOK of a slot. -/
def vok (s : Nat) : Fld := if s = 0 then F.UPD_STAT_VOKA else F.UPD_STAT_VOKB

def verFld (s : Nat) : Fld := if s = 0 then F.UPD_VERA_VERSION else F.UPD_VERB_VERSION

/-- UPD_CTL.OPEN (R418, R435). The sectors read as erased from the start of the erase on (assumption 22). -/
def updOpen (d : Dev) : Dev :=
  let t := updTarget d
  let s := d.rd F.UPD_STAT_STATE
  if d.on F.SC_STAT_BUSY ∨ s = 1 ∨ s = 2 ∨ s = 3 then d.inc F.UPD_STAT_DROP
  else if !d.nor.found then sessionError 1 d
  else if norShut d then sessionError 8 d
  else if !targetOk d t then (d.wr F.UPD_STAT_STATE 0).wr F.UPD_STAT_ERR 2
  else if !lenOk t (updLen d) then sessionError 3 d
  else
    let d := (((d.wr F.UPD_STAT_STATE 1).wr F.UPD_STAT_ERR 0).wr F.UPD_ERRPOS_POS 0).wr F.UPD_ERRPOS_PCODE 0
    let d := (d.wr F.UPD_RCVD_BYTES 0).wr F.UPD_STAT_HDROK 0
    let d := if t ≤ 1 then d.wr (vok t) 0 else d
    let d := { d with upd := { d.upd with got := [], intake := [], prog := [], flush := false, stored := false, aborting := false, nor := 1 } }
    Dev.each (List.range ((updLen d + 4095) / 4096)) (fun i d => norErase (targetAddr t + 4096 * i) d) d

/-- A NOR operation has ended: an end that was waiting for it takes effect (R422, ERR 8 or 12). -/
def norEnded (ok : Bool) (next : Dev → Dev) (d : Dev) : Dev :=
  let d := { d with upd := { d.upd with nor := 0, prog := [] } }.wr F.UPD_STAT_FULL 0
  if d.upd.aborting then sessionError 12 { d with upd := { d.upd with aborting := false, intake := [], flush := false } }
  else if !ok then sessionError 8 { d with upd := { d.upd with intake := [], flush := false } }
  else next d

/-- UPD_ERASE_END (R418). -/
def updEraseEnd (ok : Bool) (d : Dev) : Dev :=
  if d.upd.nor != 1 then d else norEnded ok (fun d => if d.rd F.UPD_STAT_STATE = 1 then d.wr F.UPD_STAT_STATE 2 else d) d

/-- Begin to program the intake (R419). -/
def intakeProgram (d : Dev) : Dev :=
  if d.upd.intake.isEmpty then { d with upd := { d.upd with flush := false } }
  else if d.upd.nor != 0 then { d with upd := { d.upd with flush := true } }
  else { d with upd := { d.upd with prog := d.upd.intake, intake := [], flush := false, nor := 2 } }.wr F.UPD_STAT_FULL 1

/-- The intake is to be programmed: its page is at its end. -/
def intakeFull (d : Dev) : Bool := d.upd.intake.any fun (p : Nat × Byte) => p.1 % 256 == 255

/-- INTAKE_PROGRAM_END (R419). -/
def intakeProgramEnd (ok : Bool) (d : Dev) : Dev :=
  if d.upd.nor != 2 then d
  else
    let a := targetAddr (updTarget d)
    let d := if ok then Dev.each d.upd.prog (fun (p : Nat × Byte) d => norPut (a + p.1) p.2 d) d else d
    norEnded ok (fun d => if d.upd.flush || intakeFull d then intakeProgram d else d) d

/-- The received byte at an offset. -/
def gotBytes (d : Dev) (n : Nat) : List Byte := (List.range n).map fun i => (look d.upd.got i).getD 0xFF

def gotAll (d : Dev) (n : Nat) : Bool := (List.range n).all fun i => (look d.upd.got i).isSome

/-- The early checks (R420), when a byte below the header's length arrives. -/
def earlyCheck (fu : Fuses) (off : Nat) (d : Dev) : Dev :=
  let t := updTarget d
  if t ≤ 1 then
    if off < 256 ∧ gotAll d 256 then
      let e := slotErr fu d.upd.bp.minver (some (updLen d)) (gotBytes d 256)
      if e = 0 then d.wr F.UPD_STAT_HDROK 1 else sessionError e d
    else d
  else if t ≤ 3 then
    if off < 64 ∧ gotAll d 64 then
      let h := gotBytes d 64
      if leAt h 0 4 = 0x53455431 ∧ updLen d = 64 + 8 * leAt h 6 2 then d else sessionError 11 d
    else d
  else d

/-- One byte reaches the intake (R419). -/
def takeByte (fu : Fuses) (off : Nat) (b : Byte) (d : Dev) : Dev :=
  let bad := fun (e : Nat) => sessionError e (d.wr F.UPD_ERRPOS_POS off)
  if d.rd F.UPD_STAT_STATE ≠ 2 then d
  else if updLen d ≤ off ∨ (updTarget d ≤ 1 ∧ 256 ≤ off ∧ !d.on F.UPD_STAT_HDROK) then bad 4
  else if (look d.upd.got off).isSome then bad 5
  else
    let d := if d.upd.intake.any fun (p : Nat × Byte) => p.1 / 256 != off / 256 then intakeProgram d else d
    let d := { d with upd := { d.upd with got := ins d.upd.got off b, intake := ins d.upd.intake off b } }.inc F.UPD_RCVD_BYTES
    let d := earlyCheck fu off d
    if intakeFull d then intakeProgram d else d

def takeBytes (fu : Fuses) (off : Nat) : List Byte → Dev → Dev
  | [], d => d
  | b :: r, d => takeBytes fu (off + 1) r (takeByte fu off b d)

/-- UPD_DATA (R419): outside OPEN and while the intake programs, the write is dropped and counted. -/
def updData (fu : Fuses) (v : Nat) (d : Dev) : Dev :=
  if d.rd F.UPD_STAT_STATE ≠ 2 ∨ d.on F.UPD_STAT_FULL then d.inc F.UPD_STAT_DROP
  else
    let off := d.rd F.UPD_OFF_OFF
    takeBytes fu off (leBytes 4 v) (d.wr F.UPD_OFF_OFF (off + 4))

/-- Bytes of a DMA channel whose destination is the intake (R302, R419): it takes them while a session is OPEN and nothing is
being programmed, and a byte of another page starts the program of the page held. The answer is how many it took. -/
def dmaIntake (fu : Fuses) (off : Nat) : List Byte → Dev → Nat × Dev
  | [], d => (0, d)
  | b :: r, d =>
    if !intakeOpen d then (0, d)
    else if d.upd.intake.any fun (p : Nat × Byte) => p.1 / 256 != off / 256 then (0, intakeProgram d)
    else
      let (k, d) := dmaIntake fu (off + 1) r (takeByte fu off b d)
      (k + 1, d)

/-- UPD_OFF has been written (R419). -/
def updOffWritten (d : Dev) : Dev := if d.rd F.UPD_STAT_STATE = 2 then intakeProgram d else d

/-- UPD_CTL.FLUSH (R419). -/
def updFlush (d : Dev) : Dev := if d.rd F.UPD_STAT_STATE = 2 then intakeProgram d else d

/-! ### Verification (R421) -/

/-- UPD_CTL.VERIFY: a slot counts as not verified while it is verified again (R421, R435). -/
def updVerify (d : Dev) : Dev :=
  let s := d.rd F.UPD_STAT_STATE
  if s = 2 then intakeProgram ({ d with upd := { d.upd with stored := false } }.wr F.UPD_STAT_STATE 3)
  else if (s = 0 ∨ s = 4) ∧ updTarget d ≤ 1 then
    if !d.nor.found then sessionError 1 d
    else if norShut d then sessionError 8 d
    else ({ d with upd := { d.upd with stored := true } }.wr F.UPD_STAT_STATE 3).wr (vok (updTarget d)) 0
  else d

/-- The images of a stored slot (R421): PCODE and POS of the first failure. -/
def imagesErr (d : Dev) (s : Nat) : Option (Nat × Nat) :=
  let h := slotHead d s
  (dirUsed h).findSome? fun e =>
    (imgCheck none e.2 d.upd.bp.minver (some (headKey h)) (norRead d (slotAddr s + e.1) e.2)).map fun r => (r.1, e.1 + r.2)

/-- The checks of a target as stored: ERR, PCODE and POS; ERR 0 when all pass. -/
def targetErr (fu : Fuses) (d : Dev) : Nat × Nat × Nat :=
  let t := updTarget d
  if t ≤ 1 then
    let e := slotErr fu d.upd.bp.minver (some (updLen d)) (slotHead d t)
    if e ≠ 0 then (e, 0, 0)
    else match imagesErr d t with
      | some (c, p) => (10, c, p)
      | none => (0, 0, 0)
  else if t ≤ 3 then
    if setSound d (t - 2) && updLen d == 64 + 8 * setEntries d (t - 2) then (0, 0, 0) else (11, 0, 0)
  else
    let e := headerErr fu.uid (norRead d 0 64)
    (if e = 0 then 0 else if e = 6 then 7 else 11, 0, 0)

/-- UPD_VERIFY_END (R421). -/
def updVerifyEnd (fu : Fuses) (d : Dev) : Dev :=
  if d.rd F.UPD_STAT_STATE ≠ 3 ∨ d.upd.nor ≠ 0 then d
  else if !d.upd.stored && d.rd F.UPD_RCVD_BYTES != updLen d then sessionError 9 d
  else
    let t := updTarget d
    let (e, c, p) := targetErr fu d
    let d := if t ≤ 1 then d.wr (verFld t) (if e = 0 then leAt (slotHead d t) 8 4 else 0) else d
    if e ≠ 0 then sessionError e ((d.wr F.UPD_ERRPOS_PCODE c).wr F.UPD_ERRPOS_POS p)
    else
      let d := if t ≤ 1 then d.wr (vok t) 1 else d
      raise 0xD1 ((d.wr F.UPD_STAT_STATE 4).wr F.UPD_STAT_ERR 0)

/-! ### The warm swap (R426) -/

/-- Begin the load of a cluster. -/
def swapLoad (cl : Nat) (d : Dev) : Dev :=
  patBegin { swap := true } cl { d with upd := { d.upd with swapAt := some cl } }

/-- Mode 1 of image activate, its TRIAL record written. -/
def swapStart (s : Nat) (d : Dev) : Dev :=
  swapLoad 0 (({ d with upd := { d.upd with swapSlot := s, swapBack := [] } }.wr F.UPD_SWAP_STATE 1).wr F.UPD_SWAP_DONE 0)

/-- The slot's key becomes the key in force (R416). -/
def takeKey (fu : Fuses) (s : Nat) (d : Dev) : Dev :=
  let k := headKey (slotHead d s)
  match keyFused fu k with
  | some i => ({ d with upd := { d.upd with slot := some s, key := some k } }.wr F.SC_KEY_KIN i).wr F.SC_KEY_KV 1
  | none => ({ d with upd := { d.upd with slot := some s, key := none } }.wr F.SC_KEY_KIN 0).wr F.SC_KEY_KV 0

/-- Load a cluster from a slot, under the slot's own key; a cluster no image names runs on the ROM alone (R417). -/
def slotLoad (s cl : Nat) (m : Mem) (d : Dev) : Bool × Dev :=
  match slotImage d s cl with
  | none => (true, (romAlone cl d).wr F.PAT_STAT_ERR 0 cl)
  | some (o, n) => patTake (some (headKey (slotHead d s))) cl n (norRead d (slotAddr s + o) n) none m d

/-- A record that reverts (R425, R426): ACTIVE is PREV, CONFIRMED, and PREV the slot left, as the worked example of R435's
chapter has it. -/
def bpRevert (p : BootPtr) : BootPtr := { p with active := p.prev, trial := false, prev := p.active }

/-- The end of a revert (R426): the record names PREV, CONFIRMED. -/
def swapReverted (d : Dev) : Dev :=
  let d := bpWrite (bpRevert d.upd.bp) d
  let d := { d with nor := { d.nor with undone := [] } }
  let d := { d with upd := { d.upd with swapAt := none, swapBack := [] } }
  raise 0xD6 ((d.wr F.UPD_SWAP_STATE 4).wr F.UPD_STAT_REVERTED 1)

/-- The next cluster of a revert, or its end. -/
def swapBackNext (d : Dev) : Dev :=
  match d.upd.swapBack with
  | [] => swapReverted d
  | cl :: r => swapLoad cl { d with upd := { d.upd with swapBack := r } }

/-- A cluster of a swap has been loaded, or has failed; in the fail-safe state nothing more is loaded (R435). -/
def swapEnd (fu : Fuses) (cl : Nat) (m : Mem) (d : Dev) : Dev :=
  let m := memFinds d 11 m
  let d := readMem 11 m d
  let back := d.rd F.UPD_SWAP_STATE == 2
  let s := d.upd.swapSlot
  let (ok, d) := if back then (match d.upd.slot with
      | some o => slotLoad o cl m d
      | none => (true, romAlone cl d)) else slotLoad s cl m d
  let d := patRelease cl d
  let d := if ok && !back then d.wr F.UPD_SWAP_DONE (setBit (d.rd F.UPD_SWAP_DONE) cl)
    else d.wr F.UPD_SWAP_DONE (clrBit (d.rd F.UPD_SWAP_DONE) cl)
  if d.on F.FS_STAT_ACTIVE || d.pfSeen then { d with upd := { d.upd with swapAt := none, swapBack := [] } }.wr F.UPD_SWAP_STATE 0
  else if back then swapBackNext d
  else if !ok then
    swapBackNext ({ d with upd := { d.upd with swapBack := bitsOf 4 (d.rd F.UPD_SWAP_DONE) ++ [cl] } }.wr F.UPD_SWAP_STATE 2)
  else if cl < 3 then swapLoad (cl + 1) d
  else raise 0xD5 ((takeKey fu s { d with upd := { d.upd with swapAt := none } }).wr F.UPD_SWAP_STATE 3)

/-- PATCH_READ_END (R107): the image of a load, or of a cluster of a warm swap. -/
def patchReadEnd (fu : Fuses) (cl : Nat) (m : Mem) (d : Dev) : Dev :=
  match (d.clu cl).pat with
  | none => d
  | some p => if p.swap then (if p.phase = 2 then swapEnd fu cl m d else d) else patReadEnd cl m d

end Sys2Proof.Machine
end

