-- ==== Sys2Proof/Machine/Sealed.lean ====
section
/-!
DEFINITION. Sealed commands (R429–R433): their checks, in order, and their effects.
-/

namespace Sys2Proof.Machine

/-- The 64 bytes of the command (R431). -/
def scBytes (d : Dev) : List Byte := (List.range 16).flatMap fun i => leBytes 4 (d.rd (F.SC_DATA_DATA.ix i))

def scCmd (b : List Byte) : Nat := leAt b 0 2
def scCtr (b : List Byte) : Nat := leAt b 8 8
def scArg (b : List Byte) (i n : Nat) : Nat := leAt b i n

/-- ARG bytes a command names, from byte 16 on (R432); none for an unknown command. -/
def argLen (cmd : Nat) : Option Nat :=
  match cmd with
  | 1 => some 3
  | 2 => some 2
  | 3 => some 0
  | 4 => some 8
  | 5 => some 5
  | 6 => some 2
  | 7 => some 2
  | 8 => some 6
  | 9 => some 2
  | 10 => some 10
  | 11 => some 1
  | _ => none

/-- Check 3: the command is known, bytes 2–7 and unnamed ARG bytes are 0. -/
def scFormOk (b : List Byte) : Bool :=
  match argLen (scCmd b) with
  | none => false
  | some n => leAt b 2 6 == 0 && ((b.drop (16 + n)).take (32 - n)).all (· == 0)

/-- Check 2: the tag under the active key (R431). -/
def scTagOk (fu : Fuses) (b : List Byte) : Bool :=
  match look fu.hkeys fu.hidx with
  | none => false
  | some k => (hmac k (b.take 48 ++ fu.uid)).take 16 == (b.drop 48).take 16

/-- Check 5: argument values (R430, R432, R472). -/
def scArgsOk (b : List Byte) : Bool :=
  scCtr b ≤ 0xFFFFFFFFFFFFFF00 &&
  (match scCmd b with
  | 1 => scArg b 16 1 ≤ 1 && scArg b 17 1 ≤ 1 && 1 ≤ scArg b 18 1 && scArg b 18 1 ≤ 15
  | 2 => scArg b 16 1 ≤ 1 && scArg b 17 1 ≤ 1
  | 4 => scArg b 16 2 ≤ 1023 && scArg b 18 2 ≤ 1023 && scArg b 20 2 ≤ 8191 && scArg b 22 2 ≤ 8191
  | 5 => scArg b 20 1 ≤ 1
  | 6 => scArg b 16 1 ≤ 1 && scArg b 17 1 ≤ 3
  | 7 => scArg b 16 2 ≤ 4095 || scArg b 16 2 == 0xFFFF
  | 8 => scArg b 21 1 ≤ 1
  | 9 => scArg b 16 2 ≤ 1023
  | 11 => scArg b 16 1 ≤ 3
  | _ => true)

/-- R399's condition for SRST_N, which a complete fail-safe manifest also meets (R458). -/
def srstReady (d : Dev) : Bool := (admIdle d && d.rd F.THL_FREE_FREE == 0x100000) || d.on F.FS_STAT_MANIFEST

/-- A die holds a queued, started or suspended ticket (R433). -/
def dieHasTicket (d : Dev) (x : Nat) : Bool :=
  d.cells.any fun (p : Nat × Cell) =>
    p.2.out.isNone && (p.2.dix == x || (tOpc p.2.tkt == opCopy && p.2.started && p.2.tdix == x))

/-- R433's conditions. -/
def sanReady (b : List Byte) (d : Dev) : Bool :=
  let lo := scArg b 16 2
  let hi := scArg b 18 2
  !d.on F.SAN_STAT_BUSY && lo ≤ hi && scArg b 20 2 ≤ scArg b 22 2 &&
    ((List.range (hi + 1 - lo)).all fun i => !dieHasTicket d (lo + i))

/-- A warm swap to a slot whose schema range leaves out the settings in force (R426). -/
def schemaMisfit (b : List Byte) (d : Dev) : Bool :=
  let h := slotHead d (scArg b 16 1)
  scCmd b == 1 && scArg b 17 1 == 1 && d.on F.CFG_SET_V &&
    !(leAt h 12 2 ≤ d.rd F.CFG_SET_SCHEMA && d.rd F.CFG_SET_SCHEMA ≤ leAt h 14 2)

/-- Check 6: the state allows the command (R429, R432). -/
def scStateOk (fu : Fuses) (b : List Byte) (d : Dev) : Bool :=
  let cmd := scCmd b
  (d.rd F.BOOT_STAT_PHASE != 8 || cmd == 1 || cmd == 2 || cmd == 5 || cmd == 6 || cmd == 11) &&
  (match cmd with
  | 1 => d.on (vok (scArg b 16 1)) && !d.upd.bp.trial && d.upd.bp.active != scArg b 16 1
  | 2 => d.upd.bp.trial && d.upd.slot == some (scArg b 16 1) && !d.on F.UPD_STAT_SCHEMA
  | 3 => srstReady d
  | 4 => sanReady b d
  | 5 => fu.repairs.length < 256
  | 6 => if scArg b 16 1 = 0 then fu.hidx < scArg b 17 1 && (look fu.hkeys (scArg b 17 1)).isSome
      else fu.sidx < scArg b 17 1 && (look fu.digests (scArg b 17 1)).isSome && d.on F.SC_KEY_KV &&
        scArg b 17 1 ≤ d.rd F.SC_KEY_KIN
  | 10 => d.rd F.RG_STAT_STATE == 2 && scArg b 16 2 == d.rd F.RG_ID_ID && ringEpoch d < scArg b 18 8
  | _ => true)

def scCounter (d : Dev) : Nat := d.rd64 F.SC_CTR_LO_CTR F.SC_CTR_HI_CTR

/-- A checkpoint is due before the command acts (R430). -/
def ckDue (b : List Byte) (d : Dev) : Bool := ckpt d + 256 ≤ scCtr b

/-- The command writes a boot-pointer record (R426, R427). -/
def bpDue (b : List Byte) : Bool := scCmd b == 1 || scCmd b == 2

/-- RES of a command (R431); `ck` says that a checkpoint write would succeed. With no NOR discovered every command is refused
with RES 7 (R429); so is one whose NOR write a recognised power fail shuts out (R428, assumption 126). -/
def scResult (fu : Fuses) (ck : Bool) (b : List Byte) (d : Dev) : Nat :=
  if !d.nor.found then 7
  else if d.on F.SC_STAT_LOCK then 8
  else if !scTagOk fu b then 2
  else if !scFormOk b then 4
  else if scCtr b ≤ scCounter d then 3
  else if !scArgsOk b then 5
  else if !scStateOk fu b d || schemaMisfit b d then 6
  else if ckDue b d && !ck then 7
  else if norShut d && (ckDue b d || bpDue b) then 7
  else 1

/-! ### Effects (R432) -/

/-- Image activate (R426). -/
def scActivate (b : List Byte) (d : Dev) : Dev :=
  let s := scArg b 16 1
  let p := d.upd.bp
  let d := bpWrite { p with active := s, trial := true, tries := scArg b 18 1, prev := p.active } d
  if scArg b 17 1 = 1 then swapStart s d else d

/-- Image confirm (R427): of the slot in force, which the record then names even where a later activate named the other
(assumption 127). -/
def scConfirm (b : List Byte) (d : Dev) : Dev :=
  let p := d.upd.bp
  let s := scArg b 16 1
  let v := leAt (slotHead d s) 8 4
  bpWrite { p with active := s, prev := if p.active = s then p.prev else p.active, trial := false, tries := 0, minver := if scArg b 17 1 = 1 then max p.minver v else p.minver } d

/-- Recovery entry acts as SRST_N, and the next boot goes to recovery (R429). -/
def scRecovery (d : Dev) : Dev :=
  let d := srst d
  { d with upd := { d.upd with recoverNext := true } }

/-- The next erase of a sanitise on a die (R433). -/
def sanBegin (first last x : Nat) (d : Dev) : Dev :=
  if !(dieState d x == 1 || dieState d x == 4) then d.inc F.SAN_FAIL_SKIPPED
  else if d.rd F.DIE_GEOM0_NBLK x < first ∨ last < first then d
  else
    let d := { d with upd := { d.upd with san := ins d.upd.san x first } }
    (addCtx (dixCh x) { work := .sanitise, dix := x, cls := 3, cost := 2, rix := 0x019, blk := first
                        planes := 2 ^ (d.rd F.DIE_GEOM0_NPL x + 1) - 1 } d).2

def scSanitise (b : List Byte) (d : Dev) : Dev :=
  let lo := scArg b 16 2
  let d := ((d.wr F.SAN_STAT_BUSY 1).wr F.SAN_STAT_ABORTED 0)
  let d := { d with upd := { d.upd with sanLast := scArg b 22 2, san := [] } }
  Dev.each (List.range (scArg b 18 2 + 1 - lo)) (fun i d => sanBegin (scArg b 20 2) (scArg b 22 2) (lo + i) d) d

/-- SANITISE_END (R433): every die has ended. -/
def sanitiseEnd (d : Dev) : Dev :=
  if d.on F.SAN_STAT_BUSY && d.upd.san.isEmpty then raise 0xD7 ((d.wr F.SAN_STAT_BUSY 0).wr F.SAN_STAT_DONE 1) else d

/-- Tenant ledger reset (R355). -/
def scLedger (b : List Byte) (d : Dev) : Dev :=
  if scArg b 16 2 = 0xFFFF then ledgerReset 0 4095 d else ledgerReset (scArg b 16 2) (scArg b 16 2) d

/-- What an accepted command does to the block. -/
def scEffect (b : List Byte) (d : Dev) : Dev :=
  match scCmd b with
  | 1 => scActivate b d
  | 2 => scConfirm b d
  | 3 => scRecovery d
  | 4 => scSanitise b d
  | 6 => if scArg b 16 1 = 0 then d.wr F.SC_KEY_HIDX (scArg b 17 1) else d.wr F.SC_KEY_SIDX (scArg b 17 1)
  | 7 => scLedger b d
  | 8 => thermalOverride (scArg b 16 5) (scArg b 21 1) d
  | 9 => dieUnfence (scArg b 16 2) d
  | 10 => ringRejoin (scArg b 18 8) d
  | 11 => d.wr F.DBG_STAT_LEVEL (scArg b 16 1)
  | _ => d

/-- What an accepted command does to the fuses: fuse-map program burns one repair entry (R371), key rotation raises HIDX or
SIDX (R432). -/
def scFuses (b : List Byte) (fu : Fuses) : Fuses :=
  match scCmd b with
  | 5 => { fu with repairs := fu.repairs ++ [(scArg b 16 2, scArg b 18 2, scArg b 20 1)] }
  | 6 => if scArg b 16 1 = 0 then { fu with hidx := scArg b 17 1 } else { fu with sidx := scArg b 17 1 }
  | _ => fu

/-- A tag failure (R431). -/
def scTagFailed (d : Dev) : Dev :=
  let d := raise 0xD4 (safeLink 10 (d.inc F.SC_STAT_FAILS))
  if 8 ≤ d.rd F.SC_STAT_FAILS then d.wr F.SC_STAT_LOCK 1 else d

/-- A write of 1 to SC_GO (R431). A refused command ends at once; the NOR writes of an accepted one end in
SEALED_COMMAND_END. -/
def scGo (ck : Bool) (fu : Fuses) (d : Dev) : Fuses × Dev :=
  if d.on F.SC_STAT_BUSY then (fu, d.inc F.SC_STAT_DROP)
  else
    let b := scBytes d
    let r := scResult fu ck b d
    let d := (d.wr F.SC_STAT_RES r).wr F.SC_STAT_CMD (scCmd b % 256)
    if r = 1 then
      let d := d.wr F.SC_STAT_FAILS 0
      let d := if ckDue b d then ckWrite (scCtr b) d else d
      let d := ((d.wr64 F.SC_CTR_LO_CTR F.SC_CTR_HI_CTR (scCtr b)).incW F.SC_CNT_ACCEPTED).wr F.SC_STAT_BUSY 1
      (scFuses b fu, scEffect b d)
    else
      let d := if d.on F.SC_STAT_LOCK then d else if !scTagOk fu b then scTagFailed d else d.wr F.SC_STAT_FAILS 0
      let d := if r = 6 ∧ scStateOk fu b d then d.wr F.UPD_STAT_SCHEMA 1 else d
      (fu, raise 0xD3 (d.inc F.SC_CNT_REJECTED))

/-- SEALED_COMMAND_END (R431): its NOR writes have ended. -/
def scEnd (d : Dev) : Dev :=
  if d.on F.SC_STAT_BUSY then raise 0xD3 ({ d with nor := { d.nor with undone := [] } }.wr F.SC_STAT_BUSY 0) else d

/-- SC_LOCKOUT_END (R431). -/
def scLockoutEnd (d : Dev) : Dev := if d.on F.SC_STAT_LOCK then (d.wr F.SC_STAT_LOCK 0).wr F.SC_STAT_FAILS 0 else d

end Sys2Proof.Machine
end

