-- ==== Sys2Proof/Machine/Test.lean ====
section
/-!
DEFINITION. Loopbacks and the echo responder (R466–R471), injections (R473), the IEEE 1500 wrapper and the fuses
(R474–R476), and illegal state encodings (R461).
-/

namespace Sys2Proof.Machine

/-! ### Loopbacks -/

/-- The busy condition of DEPTH (R467). -/
def loopBusy (d : Dev) (c : Nat) : Bool :=
  let h := d.chn c
  h.enum.isSome || calState d c == 3 || !h.ctxs.isEmpty ||
  ((List.range 32).any fun i => dieState d (32 * c + i) == 2) ||
  d.cells.any fun (p : Nat × Cell) => p.2.out.isNone && dixCh p.2.dix == c

/-- The counts of a channel's checker are cleared (R468). -/
def loopClear (c : Nat) (d : Dev) : Dev := (d.wr F.TST_LBSTAT_BYTES 0 c).wr F.TST_LBERR_BITS 0 c

/-- DEPTH has been written (R467, R468): the pads hold the idle row with WP_N low, and the channel is STALE in a depth. -/
def depthWritten (c : Nat) (d : Dev) : Dev :=
  let d := if d.rd F.TST_LBCTL_DEPTH c = 0 ∨ d.rd F.TST_LBCTL_DEPTH c = 5 then d.wr F.TST_LBCTL_RUN 0 c else d
  staleShow c (idlePads c (loopClear c d))

/-- RUN has been written (R468, R477). When the generator stops, `bytes` have been compared since it started and `bits`
of them differed: what comes back is outside the block's rules. -/
def runWritten (c : Nat) (was : Bool) (bytes bits : Nat) (d : Dev) : Dev :=
  let dep := d.rd F.TST_LBCTL_DEPTH c
  if dep = 0 ∨ dep = 5 then d.wr F.TST_LBCTL_RUN 0 c
  else if was && !d.on F.TST_LBCTL_RUN c then (d.incW F.TST_LBSTAT_BYTES c bytes).inc F.TST_LBERR_BITS c bits
  else d

/-- TST_RINGLB.EN has been written (R469). -/
def ringLoopWritten (d : Dev) : Dev := ringActive (ringQuiet d)

/-- ECHO_BUSY_END (R470, R471): the responder's busy time is over; a hung routine never becomes ready. -/
def echoBusyEnd (x busy : Nat) (m : Mem) (d : Dev) : Dev :=
  if d.rd F.TST_LBCTL_DEPTH (dixCh x) != 5 || !d.live || d.on F.FS_STAT_ACTIVE then d else dieReady x busy m d

/-- A pending LINKERR strikes the frames of the nanoword in progress (R473). -/
def linkInjected (c : Nat) (d : Dev) : Dev :=
  if d.on F.TST_INJ_LINKERR c && (d.chn c).run.isSome then linkError c (d.wr F.TST_INJ_LINKERR 0 c) else d

/-! ### Illegal encodings (R461) -/

/-- The state registers with illegal encodings: register, stride and count of its elements, first illegal value, UNIT. -/
def stateRegs : List (Nat × Nat × Nat × Nat × Nat) := [
  (0x1204, 0, 1, 5, 1), (0xE214, 0, 1, 6, 6), (0x2210, 4, 4, 6, 7), (0x6148, 0x80, 16, 6, 8), (0x1410, 0, 1, 6, 9),
  (0x9008, 0, 1, 5, 10), (0xA110, 0, 1, 6, 11), (0xA12C, 0, 1, 5, 11), (0xB010, 0, 1, 3, 12)]

/-- The unit and index of an illegal value in a state register. -/
def illegalAt (off lo inst v : Nat) : Option (Nat × Nat) :=
  if lo ≠ 0 then none
  else stateRegs.findSome? fun r =>
    let k := if r.2.1 = 0 then 0 else (off - r.1) / r.2.1
    if off = r.1 + r.2.1 * k ∧ k < r.2.2.1 ∧ r.2.2.2.1 ≤ v then some (r.2.2.2.2, if r.2.1 = 0 then inst else k) else none

/-- An illegal state of a machine: link 7, cause 1; a running ticket of a sequencer ends under R103, and a DMA channel
halts with EKIND 0 (R313). -/
def illegalUnit (u i : Nat) (d : Dev) : Dev :=
  match u with
  | 1 => match (d.chn i).run with
    | some id => illegalState i id d
    | none => enterFailSafe 1 1 i (safeLink 7 (d.wr F.SEQ_FAULT_ILLEGAL 1 i))
  | 8 => enterFailSafe 1 8 i (safeLink 7 (dmaIllegal i d))
  | _ => enterFailSafe 1 u i (safeLink 7 d)

/-! ### The wrapper (R474–R476) -/

def setTst (f : TstSt → TstSt) (d : Dev) : Dev := { d with tst := f d.tst }

/-- WS_BYPASS: the bits come out one shift later. -/
def wsBypass (bits : List Bool) (d : Dev) : Dev :=
  setTst (fun t => { t with instr := .bypass, wso := (t.byp :: bits).take bits.length, byp := (t.byp :: bits).getLast?.getD false }) d

/-- WS_EXTEST and WS_INTEST: what the boundary register has captured is shifted out, and what is shifted in drives the pads
or the core side. The register's order is not in the spec. -/
def wsBoundary (i : WsInstr) (bits cap : List Bool) (d : Dev) : Dev :=
  if d.tst.testMode then setTst (fun t => { t with instr := i, wso := cap, boundary := bits }) d else d

/-- SCAN: the chains' contents are not in the spec, so what comes out is free. -/
def wsScan (bits : List Bool) (d : Dev) : Dev :=
  if d.tst.testMode then
    let n := d.freeCtr
    setTst (fun t => { t with instr := .scan, scan := bits, wso := (List.range bits.length).map fun i => (Config.freeValue (n + i)).testBit 0 })
      { d with freeCtr := n + bits.length }
  else d

/-- MBIST: every word is left zero with a good code, and each region's pass bit and up to 16 failing rows come out. -/
def wsMbist (res : List (Bool × List Nat)) (d : Dev) : Dev :=
  if d.tst.testMode then
    let d := { d with led := {}, mp := keepRegions (fun _ => false) d.mp, regs := d.regs.filter fun (p : Nat × Nat) => !(0x7100 ≤ keyOff p.1 && keyOff p.1 ≤ 0x71B4) }
    setTst (fun t => { t with instr := .mbist, mbist := (res.take 12).map fun (r : Bool × List Nat) => (r.1, r.2.take 16) }) d
  else d

/-- FUSERD: the fuse shadow, keys excepted: the unique ID, HIDX, SIDX, FUSELOCK, the trims and the repair entries. The order
is not in the spec. -/
def wsFuserd (d : Dev) : Dev :=
  setTst (fun t => { t with instr := .fuserd, words := [leNat d.fuses.uid, d.rd F.SC_KEY_HIDX, d.rd F.SC_KEY_SIDX, d.rd F.DBG_STAT_FUSELOCK] ++
    (d.fuses.trims.flatMap fun (p : Nat × Nat) => [p.1, p.2]) ++ d.fuses.repairs.flatMap fun (r : Nat × Nat × Nat) => [r.1, r.2.1, r.2.2] }) d

/-- A fuse only blows: bits are added to those already blown. -/
def orBytes : List Byte → List Byte → List Byte
  | [], ys => ys
  | xs, [] => xs
  | x :: xs, y :: ys => (x ||| y) :: orBytes xs ys

/-- Program one fuse item (R476): nothing once FUSELOCK is blown. -/
def burn (fu : Fuses) (x : Fuse) : Fuses :=
  if fu.lock then fu
  else match x with
    | .hkey i v => { fu with hkeys := ins fu.hkeys (i % 4) (orBytes ((look fu.hkeys (i % 4)).getD []) (fitTo 32 0 v)) }
    | .digest i v => { fu with digests := ins fu.digests (i % 4) (orBytes ((look fu.digests (i % 4)).getD []) (fitTo 32 0 v)) }
    | .uid v => { fu with uid := orBytes fu.uid (fitTo 16 0 v) }
    | .trim k v => { fu with trims := ins fu.trims k ((look fu.trims k).getD 0 ||| v) }
    | .repair m r s => if fu.repairs.length < 256 then { fu with repairs := fu.repairs ++ [(m, r, s)] } else fu
    | .lock => { fu with lock := true }

def burnAll : List Fuse → Fuses → Fuses
  | [], fu => fu
  | x :: r, fu => burnAll r (burn fu x)

/-- FUSEPGM's part outside the fuses. -/
def wsFusepgm (d : Dev) : Dev := if d.tst.testMode then setTst (fun t => { t with instr := .fusepgm }) d else d

/-- OBSERVE: a field of the register file, at debug level 2 or above. -/
def wsObserve (off lo inst : Nat) (d : Dev) : Dev :=
  if d.live && 2 ≤ d.rd F.DBG_STAT_LEVEL then
    match (fieldsAt off).bind fun fs => fs.find? fun f => f.lo == lo with
    | some f => setTst (fun t => { t with instr := .observe, words := [d.rd f inst] }) d
    | none => d
  else d

/-- DEPOSIT: a field of the register file takes a value, at debug level 3; an illegal encoding of a state register acts as
R461 says. -/
def wsDeposit (off lo inst v : Nat) (d : Dev) : Dev :=
  if d.live && d.rd F.DBG_STAT_LEVEL == 3 then
    match (fieldsAt off).bind fun fs => fs.find? fun f => f.lo == lo with
    | some f =>
      let d := setTst (fun t => { t with instr := .deposit }) (d.wr f v inst)
      match illegalAt off lo inst (v % 2 ^ f.w) with
      | some (u, i) => illegalUnit u i d
      | none => d
    | none => d
  else d

end Sys2Proof.Machine
end

