-- ==== Sys2Proof/Machine/Deliver.lean ====
section
/-!
DEFINITION. What the end of a fabric request does in its unit (R298), and the ledger's export writes (R349, R350).
-/

namespace Sys2Proof.Machine

/-! ### The export (R349, R350, R352) -/

/-- Change the export in progress. -/
def setExport (e : Export) (d : Dev) : Dev := { d with led := { d.led with run := some e } }

/-- The write of entry `i`. -/
def exportReq (d : Dev) (e : Export) (i : Nat) : Req :=
  { what := .ledgerEntry i, addr := exportBase d e.half + 4096 + 64 * i, len := 64, data := exportEntry d e i }

/-- Issue the next entry of an export that has none in hand; the banks a power fail froze come before any further swap. -/
def exportKick (d : Dev) : Dev :=
  let d := match d.led.run, d.led.pfailExport with
    | none, some e =>
      if d.on F.LG_CTL_EXPEN && d.rd F.BOOT_STAT_PHASE == 7 then startExport e { d with led := { d.led with pfailExport := none } } else d
    | _, _ => d
  match d.led.run with
  | some e =>
    if e.tries = 0 ∧ e.next < 4096 ∧ !e.failed then request 0 true (exportReq d e e.next) (setExport { e with tries := 1 } d) else d
  | none => d

/-- An entry's write has been answered. -/
def exportEntryAnswer (r : Req) (code : Nat) (d : Dev) : Dev :=
  match d.led.run with
  | none => d
  | some e =>
    if code != 0 ∧ r.tries < 4 then request 0 true { r with tries := r.tries + 1 } d
    else if code != 0 then setExport { e with tries := 0, failed := true } d
    else exportKick (setExport { e with tries := 0, next := e.next + 1 } d)

/-- LEDGER_EXPORT_END: every entry has been answered, and the header is written. -/
def exportEnd (d : Dev) : Dev :=
  match d.led.run with
  | none => d
  | some e =>
    if e.header || e.tries != 0 || (e.next < 4096 && !e.failed) then d
    else
      request 0 true { what := .ledgerHeader, addr := exportBase d e.half, len := 64, data := exportHeader d e (!e.failed) }
        (setExport { e with header := true } d)

/-- The header's write has been answered: the export ends. -/
def exportHeaderAnswer (r : Req) (code : Nat) (d : Dev) : Dev :=
  match d.led.run with
  | none => d
  | some e =>
    if code != 0 ∧ r.tries < 4 then request 0 true { r with tries := r.tries + 1 } d
    else if code = 0 ∧ !e.failed then exportDone (produce 0x77 (raise 0xC0 (d.incW F.LG_XCNT_EXPORTS)))
    else exportDone (raise 0xC1 ((d.wr F.LG_STAT_EXPERR 1).inc F.LG_XCNT_FAILS))

/-! ### Delivery -/

/-- Keep an answer for the command that takes it. -/
def keepAnswer (r : Req) (code : Nat) (b : List Byte) (ue : Bool) (d : Dev) : Dev :=
  { d with answers := d.answers ++ [{ what := r.what, code := code, bytes := b, req := r, ue := ue }] }

/-- The region that the bytes of an answer are written into, where the writes can be narrow ones (R27, R363,
assumption 101). -/
def intoRegion : Purpose → Option Nat
  | .progData _ _ _ => some 0
  | .cellFetch _ _ => some 1
  | .accRestore _ _ => some 3
  | .mapRead _ => some 4
  | .ticketFetch _ _ _ _ => some 8
  | .dmaRead _ _ => some 9
  | _ => none

/-- The lines of the sweep's unit, unlocked when the unit is done (R187, R189). -/
def sweepFreed (d0 : Dev) (q : MapReads) (d : Dev) : Dev :=
  match d0.lm.sweep with
  | none => d
  | some u => mapUnlocked ((List.range 4).map fun k => unitLine u + k) q d

/-- The unit of a finished request takes its data or its response. `m` are the readings of what
waited for a map line (R180), `ws` the words that its bytes are written into (R364). -/
def deliver (r : Req) (code : Nat) (b : List Byte) (m : MapReads) (ws : List MemWr) (d : Dev) : Dev :=
  let (ues, d) := match intoRegion r.what with
    | some q => if code = 0 then memWrites q ws d else ([], d)
    | none => ([], d)
  let ue := ues.any id
  match r.what with
  | .ticketFetch k slot n g => ticketsArrive k slot n g code b ues d
  | .progData c off m => progArrived c (progDataRead c off m code b ue d)
  | .readData c _ _ _ => readDataWritten sourceSettled d.fs.pfail c code d
  | .sweepUnitRead _ => sweepFreed d m (sweepRead code b m.seed d)
  | .sweepUnitWrite _ => sweepFreed d m (sweepWritten code r m.seed d)
  | .sweepCell c => sweepCell c code b d
  | .accEmit n _ => accAnswer n true r code b d
  | .accSpill n _ => accAnswer n true r code b d
  | .accRestore n _ => accAnswer n false r code b (if ue then accUe n d else d)
  | .pfmRegion g off => pfmPage g off code b d
  | .pfmEntry _ => manifestEntryAnswer r code d
  | .pfmHeader => manifestHeaderAnswer r code d
  | .patchImage cl _ => patData cl code b d
  | .dmaRead c h => dmaReadEnd c h code b ue d
  | .dmaWrite c h => dmaWriteEnd c h code d
  | .dmaFrond c => frondDone c code r b d
  | .ledgerEntry _ => exportEntryAnswer r code d
  | .ledgerHeader => exportHeaderAnswer r code d
  | .driftSlot id => driftAnswer id r code d
  | .dropped => d
  | .cellFetch _ _ => keepAnswer r code b ue d
  | .cellWrite _ | .freeWrite _ _ => keepAnswer r code b ue d
  | .record _ _ => keepAnswer r code b ue d
  | .mapRead _ => keepAnswer r code b ue d
  | .mapWrite _ => keepAnswer r code b ue d
  | .bitmap _ => keepAnswer r code b ue d
  | .bitmapAgain _ => keepAnswer r code b ue d

/-- FABRIC_READ_DATA (R290, R293). -/
def readBeat (p tag : Nat) (bytes : List Byte) (last : Bool) (resp : Nat) (m : MapReads) (ws : List MemWr) (d : Dev) : Dev :=
  match takeReadBeat p tag bytes last resp d with
  | (d, none) => d
  | (d, some (r, code, b)) => deliver r code b m ws d

/-- FABRIC_WRITE_RESPONSE (R293, R294). -/
def writeResp (p tag resp : Nat) (m : MapReads) (d : Dev) : Dev :=
  match takeWriteResp p tag resp d with
  | (d, none) => d
  | (d, some (r, code)) => deliver r code [] m [] d

/-- FABRIC_TIMEOUT (R295). -/
def fabricTimeout (p : Nat) (write : Bool) (tag : Nat) (m : MapReads) (d : Dev) : Dev :=
  match takeTimeout p write tag d with
  | (d, none) => d
  | (d, some r) => deliver r 4 [] m [] d

/-- FABRIC_REQUEST_GRANT (R299): a granted write may be the last of a codeword that its decoder held (R147). -/
def requestGrant (p : Nat) (write : Bool) (tag : Nat) (d : Dev) : Dev :=
  let d := fabricGrant p write tag (if p = 0 ∧ write then exportKick d else d)
  if write then decodersSweep p d else d

end Sys2Proof.Machine
end

