-- ==== Sys2Proof/Machine/Commit.lean ====
section
/-!
DEFINITION. The commit protocol (R18, R412–R414): shadows, their capture by a write of COMMIT, and the application of a
captured group or part at its unit's safe point.
-/

namespace Sys2Proof.Machine

/-- A part of an earlier commit of the group still waits in one of the named instances (R413). -/
def commitWaits (d : Dev) (g : Nat) (named : Nat → Bool) : Bool :=
  d.captured.any fun p => cmGroup (keyOff p.1) == g && (!groupSelects g || named (keyInst p.1))

/-- Channels whose captured shadows change CH_OPCFG.RATE: no ticket starts from then on (R249, R412). -/
def rechgMark (ks : FMap) (d : Dev) : Dev :=
  Dev.each (ks.filter fun p => keyOff p.1 == 0x1000 && keyLo p.1 == F.CH_OPCFG_RATE.lo && p.2 != d.rd F.CH_OPCFG_RATE (keyInst p.1))
    (fun p d => d.wr F.CH_STAT_RECHG 1 (keyInst p.1)) d

/-- COMMIT (R413): the shadows pending in the named instances are captured. -/
def commitCapture (g : Nat) (named : Nat → Bool) (d : Dev) : Dev :=
  let mine := fun (p : Nat × Nat) => cmGroup (keyOff p.1) == g && (!groupSelects g || named (keyInst p.1))
  let ks := d.shadow.filter mine
  rechgMark ks { d with shadow := d.shadow.filter fun p => !mine p, captured := insAll d.captured ks }

/-- The die window's check (R265, R409): the first failing die and its code. -/
def dieCheck (boot : Bool) (ks : FMap) (d : Dev) : Option (Nat × Nat) :=
  let v (f : Fld) (x : Nat) : Nat := (look ks (f.key x)).getD (d.rd f x)
  let n : DieNext := { pend := fun x => (look ks (F.DIE_MAP_V.key x)).isSome || (look ks (F.DIE_MAP_TGT.key x)).isSome, spare := fun x => v F.DIE_CFG_SPARE x != 0, v := fun x => v F.DIE_MAP_V x != 0, tgt := v F.DIE_MAP_TGT, boot := boot }
  let ds := List.range 1024
  (ds.find? fun x => mapCode d n ds x != 0).map fun x => (x, mapCode d n ds x)

/-- What a channel's commit does beyond its fields: restored trims (R286), a rate (R249). -/
def channelCommitted (c : Nat) (ks : FMap) (d : Dev) : Dev :=
  let d := if ks.any fun p => keyOff p.1 == 0x1000 && keyLo p.1 == F.CH_OPCFG_RATE.lo then
      let d := if d.rd F.CH_STAT_IF c != 0 && d.rd F.CH_STAT_MAXOK c < d.rd F.CH_OPCFG_RATE c then d.wr F.CH_STAT_RATECLIP 1 c else d
      if d.rd F.CH_STAT_IF c = 0 then d.wr F.CH_STAT_RECHG 0 c
      else
        let d := rateCheck c d
        if (d.chn c).rateWant || (d.chn c).newRate.isSome || (d.cal c).hold then d else d.wr F.CH_STAT_RECHG 0 c
    else d
  let ts := trims.filter fun t => ks.any fun p => p.1 == t.1.key c
  if ts.isEmpty && !(ks.any fun p => keyOff p.1 == 0x1414) then d else calRestore c ts d

/-- What a commit does beyond its fields, by group. -/
def committed (g i : Nat) (ks : FMap) (d : Dev) : Dev :=
  match g with
  | 0 => channelCommitted i ks d
  | 2 => spareUsed (List.range 1024) d
  | 3 =>
    let d := if ks.any fun p => keyOff p.1 == 0x7100 then { d with led := { d.led with lost := d.led.lost.filter (· != i) } } else d
    if ks.any fun p => keyOff p.1 == F.TN_BUSCAP_CAP.off then checkCap i d else d
  | 8 => Dev.each (List.range 32) rateCheck (pgmShow d)
  | _ => d

/-- Apply a captured group, or part, in an instance (R18, R413). A refused die-window commit leaves its shadows pending. -/
def commitTake (boot : Bool) (g i part : Nat) (d : Dev) : Dev :=
  let ks := d.captured.filter (capturedOf g i part)
  if ks.isEmpty then d
  else
    let rest := d.captured.filter fun p => !capturedOf g i part p
    match (if g = 2 then dieCheck boot ks d else none) with
    | some (x, code) =>
      commitStat (((({ d with captured := rest, shadow := insAll ks d.shadow }).wr F.DIEW_ERR_DIX x).wr F.DIEW_ERR_CODE code).wr F.DIEW_ERR_FAIL 1)
    | none => commitStat (committed g i ks (putAll ks { d with captured := rest }))

def commitApply (g i part : Nat) (d : Dev) : Dev := commitTake false g i part d

/-- A channel's safe point (R412, R414): its sequencer is idle; with a new rate, no started ticket and no recovery poll. -/
def channelSafe (d : Dev) (c : Nat) : Bool :=
  (d.chn c).run.isNone && d.rd F.SEQ_STAT_STATE c == 0 && !d.on F.FS_STAT_ACTIVE && !d.fs.pfail &&
  (!rateWaits d c ||
    ((d.chn c).ctxs.isEmpty && !(d.cells.any fun (p : Nat × Cell) => p.2.started && p.2.out.isNone && dixCh (startedDie p.2) == c) &&
     !((chDies c).any fun x => dieState d x == 2)))

/-- The unit of a group, or part, is at its safe point (R412). A command finds the units of groups 2 to 6, the Traverse part
and the thermal unit between their own; the ledger's safe points are its swap and its boundary, which apply by themselves. -/
def atSafePoint (d : Dev) (g i part : Nat) : Bool :=
  match g with
  | 0 => channelSafe d i
  | 1 => part == 0 || portRoundOver d i
  | 7 => false
  | _ => true

/-- COMMIT_APPLY (R18, R412): the unit has reached its safe point. -/
def commitPoint (g i part : Nat) (d : Dev) : Dev := if atSafePoint d g i part then commitApply g i part d else d

/-- Instances in which a commit of a group waits. -/
def waitingInsts (d : Dev) (g : Nat) : List Nat :=
  if groupSelects g then ((d.captured.filter fun p => cmGroup (keyOff p.1) == g).map fun p => keyInst p.1).eraseDups else [0]

/-- A waiting commit of a group is taken, at the latest, as its unit's next work begins (R18, R412). -/
def commitWaiting (g : Nat) (d : Dev) : Dev := Dev.each (waitingInsts d g) (fun i d => commitApply g i 0 d) d

/-- The safe points that an admission, a selection of a channel, a grant decision and a thermal evaluation begin with (R76,
R138, R142, R265, R358, R379, R412). -/
def beforeAdmit (d : Dev) : Dev := commitWaiting 4 (commitWaiting 3 (commitWaiting 2 d))
def beforeSelect (c : Nat) (d : Dev) : Dev := commitWaiting 5 (commitPoint 0 c 0 d)
def beforeGrant (d : Dev) : Dev := commitWaiting 6 (commitWaiting 5 d)
def beforeEvaluation (d : Dev) : Dev := commitWaiting 8 d

/-- Every group with a pending shadow is committed with ALL set, and applies at once (R408); the die window is left. -/
def commitBoot (d : Dev) : Dev :=
  Dev.each [0, 1, 3, 4, 5, 6, 7, 8] (fun g d =>
    let d := commitCapture g (fun _ => true) d
    Dev.each (waitingInsts d g) (fun i d => commitApply g i 1 (commitApply g i 0 d)) d) d

end Sys2Proof.Machine
end

