-- ==== Sys2Proof/Machine/RegRead.lean ====
section
/-!
DEFINITION. The register port's selects, its service by state, and reads (R479–R487, R489, R401).
-/

namespace Sys2Proof.Machine

/-- What multiplies a register (R485, R487): nothing, a window select, a secondary select, or the domain's bank. -/
inductive Sel
  | one | ch | cl | die | ten | acc | rty | bank
deriving DecidableEq, Repr

/-- The select of an offset (R487). -/
def selOf (o : Nat) : Sel :=
  if (0x1000 ≤ o ∧ o < 0x2000) ∨ (0xC100 ≤ o ∧ o < 0xC118) then .ch
  else if (0x2000 ≤ o ∧ o < 0x3000) ∨ (0xD0A0 ≤ o ∧ o ≤ 0xD0AC) ∨ o = 0xD0C0 ∨ 0xF000 ≤ o then .cl
  else if (0x3000 ≤ o ∧ o ≤ 0x301C) ∨ (0x3100 ≤ o ∧ o < 0x4000) then .die
  else if 0x7100 ≤ o ∧ o < 0x8000 then .ten
  else if (0xE204 ≤ o ∧ o ≤ 0xE23C) ∨ o = 0xE24C ∨ o = 0xE250 then .acc
  else if o = 0xD084 ∨ o = 0xD088 then .rty
  else if 0x400 ≤ o ∧ o < 0x410 then .bank
  else .one

/-- The INDEX and BCAST of a window select in a domain's bank, and how many instances it names. -/
def selIndex (d : Dev) (dom : Nat) : Sel → Nat
  | .one => 0
  | .ch => d.rd F.CHSEL_INDEX dom
  | .cl => d.rd F.CLSEL_INDEX dom
  | .die => d.rd F.DSEL_INDEX dom
  | .ten => d.rd F.TSEL_INDEX dom
  | .acc => d.rd F.ACC_SEL_ACC
  | .rty => d.rd F.RTY_SEL_STEP
  | .bank => dom

def selBcast (d : Dev) (dom : Nat) : Sel → Bool
  | .ch => d.on F.CHSEL_BCAST dom
  | .cl => d.on F.CLSEL_BCAST dom
  | .die => d.on F.DSEL_BCAST dom
  | .ten => d.on F.TSEL_BCAST dom
  | _ => false

def selCount : Sel → Nat
  | .ch => 32
  | .cl => 4
  | .die => 1024
  | .ten => 4096
  | _ => 1

/-- The index a write error records: 0 for a register that no window select multiplies (R487, R491, assumption 12). -/
def errIndex (i : Nat) : Sel → Nat
  | .ch | .cl | .die | .ten => i
  | .one | .acc | .rty | .bank => 0

/-! ### Service by state (R401, R480, R489) -/

/-- What the port does with an access. -/
inductive Route
  /-- Not acknowledged: in reset, in Hibernate, in test mode, or with CFGCLK lost. -/
  | dead
  /-- Held until Rinva is awake. -/
  | wakes
  /-- A read returns 0 and a write is dropped with cause 4. -/
  | refused
  | served
deriving DecidableEq, Repr

/-- Ranges served before READY (R401). -/
def servedEarly (o : Nat) : Bool := (o < 0x40 && o != 0x10 && o != 0x14) || (0xA000 ≤ o && o < 0xA020)

/-- Ranges that ROM recovery mode serves besides (R429, R489). -/
def servedRecovery (o : Nat) : Bool :=
  o == 0x10 || o == 0x14 || (0x400 ≤ o && o < 0x410) || (0x4000 ≤ o && o < 0x5000) || (0x6000 ≤ o && o < 0x7000) ||
  (0xA100 ≤ o && o < 0xB000)

def isPm (o : Nat) : Bool := 0x9000 ≤ o && o < 0x9020

def portRoute (o : Nat) (d : Dev) : Route :=
  if d.inReset || d.pm.hib || d.tst.testMode || d.pins.cfgLost then .dead
  else if 3 ≤ d.rd F.PM_STAT_STATE then if isPm o && d.port.waiting.isEmpty then .served else .wakes
  else if d.rd F.BOOT_STAT_PHASE = 7 ∨ servedEarly o then .served
  else if d.rd F.BOOT_STAT_PHASE = 8 ∧ servedRecovery o then .served
  else .refused

/-- A non-secure access to a secure-only window (R484). -/
def masked (o : Nat) (a : Acc) (d : Dev) : Bool := a.ns && bit (d.rd F.REG_SECMASK_SEC) (o / 4096)

/-! ### Reads -/

/-- 32 bits of a test, from a base. -/
def bits32 (p : Nat → Bool) (base : Nat) : Nat := sumL ((List.range 32).map fun b => b2n (p (base + b)) * 2 ^ b)

/-- ST_DATA's word (R111): a ROM or patch word, unless region 11 is not ready, or a trace entry, 0xFFFF when it cannot be
read (R365). -/
def storeWord (cl c : Nat) (m : Mem) (d : Dev) : Nat × Dev :=
  let a := d.rd F.ST_ADDR_ADDR cl
  let m := memFinds d (if d.rd F.ST_ADDR_SPACE cl = 2 then 7 else 11) m
  match d.rd F.ST_ADDR_SPACE cl with
  | 0 =>
    if a ≤ 0x3FFF then (romWord a, d)
    else if a ≤ 0x43FF then
      (if regionReady d 11 && !m.isUe then (look (d.clu cl).pmw (a - 0x4000)).getD 0 else 0, readMem 11 m d)
    else d.fresh
  | 1 =>
    if a ≤ 0x7FF then (Config.romNanoword a % 2 ^ 128, d)
    else if a ≤ 0x8FF then
      (if regionReady d 11 && !m.isUe then (look (d.clu cl).pnw (a - 0x800)).getD 0 else 0, readMem 11 m d)
    else d.fresh
  | 2 =>
    if a < 1024 then
      if !regionReady d 7 then (0, d)
      else if m.isUe then (0xFFFF, readMem 7 m (d.setCh c { d.chn c with trace := ins (d.chn c).trace a 0xFFFF }))
      else ((look (d.chn c).trace a).getD 0, readMem 7 m d)
    else d.fresh
  | _ => d.fresh

/-- RIX_ENT (R89, R111): an index without an entry shows DEF 0, and its other bits are not stated. -/
def rixWord (cl : Nat) (d : Dev) : Nat × Dev :=
  match indexEntry d cl (d.rd F.RIX_SEL_INDEX cl) with
  | some (e, c) => (e % 2 ^ 15 + c % 2 ^ 15 * 2 ^ 15 + 2 ^ 31, d)
  | none =>
    let (v, d) := d.fresh
    (v % 2 ^ 30, d)

/-- A word of a tenant's bank as a read finds it (R358, R365): an uncorrectable word has been rewritten before it is read. The
bank with the parity of SEQ is the active one (assumption 24). -/
def tenantWord (t w : Nat) (frozen : Bool) (m : Mem) (d : Dev) : Nat × Dev :=
  let d := tenantReading (m.onWord (16 * t + 2 + 7 * ((d.led.seq + b2n frozen) % 2) + w / 2)) d
  (bankWord (if frozen then frozenBank d t else activeBank d t) w, d)

/-- The word a read of a listed register returns, and what the read does (R320, R138). HEADBLK, IDLE and the interrupt words
are views of the state. -/
def regWord (o : Nat) (fs : List Fld) (i c : Nat) (m : Mem) (d : Dev) : Nat × Dev :=
  let w := d.word fs i
  if o = 0x4004 then
    (sumL (d.int.pres.map fun p => 2 ^ p.1) + d.int.wake % 2 ^ 16 * 2 ^ 16, d)
  else if 0x3100 ≤ o ∧ o < 0x3110 then (w + b2n (headBlocked d (i * 4 + (o - 0x3100) / 4)) * 2 ^ 21, d)
  else if 0x4100 ≤ o ∧ o < 0x4120 then (bits32 (intPending d) ((o - 0x4100) / 4 * 32), d)
  else if 0x4120 ≤ o ∧ o < 0x4140 then (bits32 (intActive d) ((o - 0x4120) / 4 * 32), d)
  else if 0x4140 ≤ o ∧ o < 0x4160 then (bits32 (fun s => isLevel s && rawLevel d s) ((o - 0x4140) / 4 * 32), d)
  else if 0x4200 ≤ o ∧ o < 0x4400 ∧ o % 0x20 = 0xC then (claimValue d ((o - 0x4200) / 0x20), claimRead ((o - 0x4200) / 0x20) d)
  else if 0x4200 ≤ o ∧ o < 0x4400 ∧ o % 0x20 = 0x14 then
    let t := (o - 0x4200) / 0x20
    (((look d.int.pres t).map (·.1)).getD 0x3FF + b2n (bit d.int.idle t) * 2 ^ 16 + b2n (bit d.int.wake t) * 2 ^ 17, d)
  else if 0x4400 ≤ o ∧ o < 0x4800 then (w + b2n (isLevel ((o - 0x4400) / 4)) * 2 ^ 27, d)
  else if 0x7140 ≤ o ∧ o < 0x7178 then tenantWord i ((o - 0x7140) / 4) false m d
  else if 0x7180 ≤ o ∧ o < 0x71B8 then tenantWord i ((o - 0x7180) / 4) true m d
  else if o = 0x9108 then (w - d.rd F.TH_STAT_SAFEHOLD * 2 ^ 13 + b2n (bit d.pins.safeIn 2) * 2 ^ 13, d)
  else if o = 0xE004 then (w - d.rd F.ADM_STAT_IDLE + b2n (admIdle d), d)
  else if o = 0x983C then (w, d.wr F.LIFT_WAIT_MAXWAIT 0)
  else if o = 0xC200 then (w - d.rd F.TST_INJ_LINKERR i * 2 ^ 8 + d.rd F.TST_INJ_LINKERR c * 2 ^ 8, d)
  else if o = 0xF024 then rixWord i d
  else if 0xF034 ≤ o ∧ o < 0xF044 then
    let (v, d) := storeWord i c m d
    (v / 2 ^ (8 * (o - 0xF034)) % 2 ^ 32, d)
  else (w, d)

/-- _LO registers whose read latches the _HI half (R483, R358). -/
def latches (o : Nat) : Bool :=
  o == 0x241C || o == 0x700C || o == 0x7038 || o == 0xA248 || o == 0xA250 || o == 0xB018 ||
  o == 0xE218 || o == 0xE220 || o == 0xE228 || o == 0xE230 ||
  (0x6100 ≤ o && o < 0x6900 && ((o - 0x6100) % 0x80 == 0x4C || (o - 0x6100) % 0x80 == 0x54))

/-- Routing-channel and LUT registers hide from non-secure accesses while their NS is 0 (R332). -/
def sprHidden (o : Nat) (a : Acc) (d : Dev) : Bool :=
  a.ns && ((0x5100 ≤ o && o < 0x51C0 && !d.on (F.SPR_CH_NS.ix ((o - 0x5100) / 4))) ||
           (0x5300 ≤ o && o < 0x5340 && !d.on (F.SPR_LUT_NS.ix ((o - 0x5300) / 4))))

/-- A served read: its value and what it does. -/
def servedRead (o : Nat) (a : Acc) (m : Mem) (d : Dev) : Nat × Dev :=
  match fieldsAt o with
  | none => (0, d)
  | some fs =>
    if masked o a d || sprHidden o a d then (0, d)
    else
      let dom := a.dom.val
      let i := selIndex d dom (selOf o)
      let k := dom * 65536 + o
      match look d.port.latched k with
      | some v => (v, { d with port := { d.port with latched := del d.port.latched k } })
      | none =>
        let (v, d) := regWord o fs i (selIndex d dom .ch) m d
        if latches o then
          let hi := ((fieldsAt (o + 4)).map fun fs => d.word fs i).getD 0
          (v, { d with port := { d.port with latched := ins d.port.latched (k + 4) hi } })
        else (v, d)

/-- The port completes an access with its read data (R479). -/
def portDone (v : Nat) (d : Dev) : Dev := { d with port := { d.port with rdata := v % 2 ^ 32, ack := true } }

/-- An access that is not acknowledged. -/
def portSilent (d : Dev) : Dev := { d with port := { d.port with rdata := 0, ack := false } }

/-- A read that is not held (R480, R481, R489). -/
def readNow (x : Access) (d : Dev) : Dev :=
  match portRoute x.off d with
  | .dead | .wakes => portSilent d
  | .refused => portDone 0 d
  | .served =>
    let (v, d) := servedRead x.off x.acc x.env.mem d
    portDone v d

end Sys2Proof.Machine
end

