-- ==== Sys2Proof/Machine/RegWrite.lean ====
section
/-!
DEFINITION. A write of one register in one instance: why it is dropped (R19, R482, R488), the fields it changes (R17), and
what it does (the rule each arm cites).
-/

namespace Sys2Proof.Machine

/-- One write to one instance of a register. -/
structure Wr where
  off : Nat
  v : Nat
  inst : Nat := 0
  acc : Acc := {}
  env : PortEnv := {}
deriving DecidableEq, Repr

/-- The bits of a write that fall to a field. -/
def Wr.get (w : Wr) (f : Fld) : Nat := fld w.v f.lo f.w

def Wr.bit (w : Wr) (f : Fld) : Bool := w.get f != 0

/-- The element of an array of registers `stride` bytes apart from `base`. -/
def Wr.elem (w : Wr) (base stride : Nat) : Nat := (w.off - base) / stride

/-! ### Drops -/

/-- A value outside its range (cause 2): the field tables' limits, and the rules cited. -/
def rangeErr (w : Wr) (fs : List Fld) (d : Dev) : Bool :=
  let o := w.off
  fs.any (fun f => w.get f < f.vmin || (match f.vmax with
    | some m => m < w.get f
    | none => false)) ||
  -- R382, R385
  (0x9124 ≤ o && o ≤ 0x913C && (w.v % 256 < 40 || tempCeiling d < w.v % 256)) ||
  -- R248
  (o == 0x1000 && !(0 :: chModes d w.inst).contains (w.get F.CH_OPCFG_RATE)) ||
  -- R45
  (0xE400 ≤ o && o < 0xE800 && o % 0x10 == 0xC && d.on (F.SQ_CFG_EN.ix (w.elem 0xE400 0x10)) &&
    2 ^ d.rd (F.SQ_CFG_SIZE.ix (w.elem 0xE400 0x10)) ≤ w.get F.SQ_DB_TAIL) ||
  -- R63
  (0xE800 ≤ o && o < 0xEC00 && o % 0x10 == 0xC && !cqHeadOk d (w.elem 0xE800 0x10) (w.get F.CQ_DB_HEAD)) ||
  -- R109
  (o == 0xF018 && minverLowers d w.inst w.v) ||
  -- R210
  (o == 0xE210 && (w.get F.ACC_CMD_CMD == 0 || w.get F.ACC_CMD_CMD == 7)) ||
  -- R412
  (o == 0x10 && 8 < w.get F.COMMIT_GROUP)

/-- Admission is busy as the owner of its base registers (R76). -/
def admOwned (d : Dev) : Bool := d.on F.ADM_CTL_EN || d.rd F.THL_FREE_FREE != 0x100000

/-- The owner of an RWI field is busy (R19, R76, R109, R194, R222, R313, R358, R436, R451, R467, R469). -/
def ownerBusy (f : Fld) (w : Wr) (d : Dev) : Bool :=
  let o := w.off
  if 0xE000 ≤ o ∧ o < 0xE040 then admOwned d
  else if 0xE400 ≤ o ∧ o < 0xE800 then d.on (F.SQ_CFG_EN.ix (w.elem 0xE400 0x10))
  else if 0xE800 ≤ o ∧ o < 0xEC00 then
    let j := w.elem 0xE800 0x10
    let en := d.on (F.CQ_CFG_EN.ix j)
    let held := ringHeld (d.cqs j) || (d.cqs j).first != 0
    if o % 0x10 = 8 ∧ f.lo = 0 then (en && (d.cqs j).reserved != 0) || (held && en) else en || held
  else if 0xF000 ≤ o then d.on F.PAT_STAT_BUSY w.inst
  else if 0xD108 ≤ o ∧ o ≤ 0xD10C then d.on F.LM_CTL_EN || !d.on F.LM_STAT_IDLE
  else if 0xD180 ≤ o ∧ o < 0xD1A0 then d.on F.LM_STAT_SWPBUSY
  else if o = 0x3200 then d.cells.any fun (p : Nat × Cell) => p.2.started && p.2.out.isNone && startedDie p.2 == w.inst
  else if 0xE200 ≤ o ∧ o < 0xE280 then accState d w.inst != 0
  else if 0x6100 ≤ o ∧ o < 0x6900 then dmaBusy d (w.elem 0x6100 0x80)
  else if o = 0x7014 ∨ o = 0x7018 then d.on F.LG_STAT_EXPBUSY
  else if 0xA100 ≤ o ∧ o < 0xA200 then 1 ≤ d.rd F.UPD_STAT_STATE && d.rd F.UPD_STAT_STATE ≤ 3
  else if (0xB000 ≤ o ∧ o < 0xC000) ∨ o = 0xC004 then d.on F.RG_CTL_EN
  else if o = 0xC100 then loopBusy d w.inst
  else false

/-- An RWI field would change while its owner is busy (cause 1). -/
def idleErr (w : Wr) (fs : List Fld) (d : Dev) : Bool :=
  fs.any fun f => f.ty == .rwi && w.get f != d.rd f w.inst && ownerBusy f w d

/-- The instances a COMMIT names (R412). -/
def commitNames (w : Wr) (d : Dev) (i : Nat) : Bool :=
  w.bit F.COMMIT_ALL ||
  (match w.get F.COMMIT_GROUP with
   | 0 => i == selIndex d w.acc.dom.val .ch
   | 1 => i == selIndex d w.acc.dom.val .cl
   | 3 => i == selIndex d w.acc.dom.val .ten
   | _ => true)

/-- The unit's state refuses the write (cause 3: R187, R262, R413, R440, R459, R460, R472). -/
def unitErr (w : Wr) (d : Dev) : Bool :=
  let o := w.off
  (o == 0x10 && commitWaits d (w.get F.COMMIT_GROUP) (commitNames w d)) ||
  (o == 0x24 && ((w.bit F.FS_CTL_EXIT && !exitOk d) || (w.bit F.FS_CTL_FLUSH && !flushOk d))) ||
  (o == 0x3004 && w.bit F.DIE_CTL_ADMIT && dieState d w.inst != 4) ||
  (o == 0xD180 && w.bit F.LM_SWP_CTL_GO && d.on F.LM_STAT_SWPBUSY) ||
  (o == 0xB000 && w.bit F.RG_CTL_EN && (d.rd F.RG_ID_ID == 0 || d.rd F.RG_ID_ID == 0xFFFF)) ||
  ((o == 0xC200 || o == 0xC204) && d.rd F.DBG_STAT_LEVEL == 0)

/-- The cause for which an instance drops a write; 0 when it takes it. The order among several causes is the model's. -/
def dropCause (w : Wr) (fs : List Fld) (d : Dev) : Nat :=
  if rangeErr w fs d then 2 else if idleErr w fs d then 1 else if unitErr w d then 3 else 0

/-! ### Fields -/

/-- Rings whose RG_CFG fields wait for the next heartbeat period (R451). -/
def isRgCfg (o : Nat) : Bool := o == 0xB008 || o == 0xB00C || o == 0xB040

/-- A field takes its bits of a write (R17). W1S and WO fields act in `regAction`. -/
def takeField (w : Wr) (f : Fld) (d : Dev) : Dev :=
  let x := w.get f
  match f.ty with
  | .rw | .rwi => if isRgCfg f.off && d.on F.RG_CTL_EN then { d with ring := { d.ring with cfg := ins d.ring.cfg (f.key 0) x } } else d.wr f x w.inst
  | .rwc => setShadow f x w.inst d
  | .w1c => d.wr f (maskOff f.w (d.rd f w.inst) x) w.inst
  | .ro | .wo | .w1s => d

/-- The policy registers write their policies' shadows (R287, R382). -/
def policyAction (w : Wr) (d : Dev) : Dev :=
  if w.off = 0x1408 then
    let p := w.v % 4
    let sh (f : Fld) (v : Nat) (d : Dev) : Dev := setShadow f v w.inst d
    sh F.CAL_CFG_AUTO (if p = 3 then 0 else 1) (sh F.CAL_CFG_DTEMP (if p = 1 then 12 else if p = 2 then 4 else 8)
      (sh F.CAL_CFG2_PERIOD (if p = 2 then 10 else 0) d))
  else if w.off = 0x9104 then
    Dev.each ((policyTemps (w.v % 4)).mapIdx fun i t => (i + 1, t)) (fun p d => setShadow (F.TH_LVL_TEMP.ix p.1) p.2 0 d) d
  else d

/-! ### Actions -/

/-- Actions of the admission and queue registers (R44, R48, R54, R58, R63, R71, R494). -/
def admAction (w : Wr) (old d : Dev) : Dev :=
  let o := w.off
  if o = 0xE000 then if w.get F.ADM_CTL_PFMEN = old.rd F.ADM_CTL_PFMEN then d else pfmDue d
  else if o = 0xE010 ∨ o = 0xE014 then if admOwned old then d else freeAll d
  else if o = 0xE024 then if w.bit F.THL_SWEEP_START then sweepStart d else d
  else if o = 0xE028 ∨ o = 0xE02C then if admOwned old then d else pfmDue d
  else if o = 0xE01C then admStall d
  else if o = 0xE080 then if w.bit F.TKT_GO_GO ∨ old.on F.TKT_STAT_BUSY then tktGo (latchAll d) else d
  else if 0xE400 ≤ o ∧ o < 0xE800 then
    let k := w.elem 0xE400 0x10
    if o % 0x10 = 8 ∧ w.bit F.SQ_CFG_EN ∧ !old.on (F.SQ_CFG_EN.ix k) then sqEnable k d else d
  else if 0xE800 ≤ o ∧ o < 0xEC00 then
    let j := w.elem 0xE800 0x10
    if o % 0x10 = 8 ∧ w.bit F.CQ_CFG_EN ∧ !old.on (F.CQ_CFG_EN.ix j) then cqEnable j d
    else if o % 0x10 = 0xC then waitRecall j d
    else d
  else if 0xEC00 ≤ o ∧ o < 0xF000 ∧ o % 0x40 = 0xC then
    if w.bit F.TQ_POP_POP then tqPop (w.elem 0xEC00 0x40) w.env.mem d else d
  else d

/-- ACC_CMD (R210). From a fail-safe entry or a power fail to the exit every accumulator stays as that left it (R217): a
command is dropped and counted, and ACC_STAT keeps its value (assumption 102). -/
def accAction (w : Wr) (d : Dev) : Dev :=
  if d.on F.FS_STAT_ACTIVE || d.fs.pfail then d.inc F.ACC_CNT_CMDDROP
  else match w.get F.ACC_CMD_CMD with
  | 1 => accOpen w.inst d
  | 2 => accForce w.inst d
  | 3 => accAbort w.inst d
  | 4 => accSpill w.inst d
  | 5 => accRestore w.inst d
  | 6 => accRelease w.inst d
  | _ => d

/-- An action taken when a bit is written 1. -/
def onBit (w : Wr) (f : Fld) (g : Dev → Dev) (d : Dev) : Dev := if w.bit f then g d else d

/-- Actions of the channel, cluster and die windows (R205, R252, R258, R261, R262, R267, R270, R275–R279, R295). -/
def busAction (w : Wr) (d : Dev) : Dev :=
  let o := w.off
  let i := w.inst
  if o = 0x1004 then if (d.chn i).pads.row = 1 then idlePads i d else d
  else if o = 0x100C then onBit w F.CH_ENUM_GO (enumGo i) d
  else if o = 0x1010 then onBit w F.CH_RB_EXIT (fun d => d.wr F.CH_RB_FB 0 i) d
  else if o = 0x1318 then holdRelWrite i (w.get F.WR_HOLDREL_REL) d
  else if o = 0x140C then
    onBit w F.CAL_CTL_RETRY (calRetry i) (onBit w F.CAL_CTL_FORCE (calTrigger i 3 true) (onBit w F.CAL_CTL_GO (calTrigger i 3 false) d))
  else if o = 0x2300 then
    onBit w F.PZQ_CTL_GO (fun d => if d.on F.PZQ_STAT_BUSY i then pzqCleared i d else pzqStart i false (d.wr F.PZQ_CTL_GO 1 i)) d
  else if o = 0x2418 then onBit w F.FP_CTL_UNQUAR (unquarantine i) d
  else if o = 0x3004 then
    onBit w F.DIE_CTL_FENCE (fenceDie i 0) (onBit w F.DIE_CTL_ADMIT (dieAdmit i) (onBit w F.DIE_CTL_TOCLR (fun d => d.wr F.DIE_STAT_TOCONS 0 i) d))
  else if o = 0xF000 then onBit w F.PAT_CTL_CLEAR (patGo true i) (onBit w F.PAT_CTL_LOAD (patGo false i) d)
  else d

/-- Actions of the interrupt controller and the Spore router (R315, R321, R322, R328, R330, R335–R337). -/
def intAction (w : Wr) (d : Dev) : Dev :=
  let o := w.off
  if o = 0x4000 then if w.bit F.INT_GCTL_EN then d else gctlOff w.env.ack d
  else if 0x4100 ≤ o ∧ o < 0x4120 then pendWrite (w.elem 0x4100 4) w.v d
  else if 0x4200 ≤ o ∧ o < 0x4400 ∧ o % 0x20 = 0x10 then completeSource (w.elem 0x4200 0x20) (w.get F.INT_COMPL_ID) d
  else if o = 0x5010 then
    let d := if bit w.v 0 then produce 0x7A d else d
    if bit w.v 1 then produce 0x7B d else d
  else if o = 0x5018 then safeClear (w.v % 2 ^ 16) d
  else if 0x5100 ≤ o ∧ o < 0x51C0 then chWritten (w.elem 0x5100 4) (w.bit F.SPR_CH_EN) d
  else if 0x5300 ≤ o ∧ o < 0x5340 then lutWritten (w.elem 0x5300 4) d
  else d

/-- DMA_CTL (R303, R307, R308). -/
def dmaAction (w : Wr) (d : Dev) : Dev :=
  let c := w.elem 0x6100 0x80
  if 0x6100 ≤ w.off ∧ w.off < 0x6900 ∧ (w.off - 0x6100) % 0x80 = 0x44 then
    onBit w F.DMA_CTL_STOP (dmaStop c) (onBit w F.DMA_CTL_START (dmaStart c) (onBit w F.DMA_CTL_CLR (dmaClr c) d))
  else d

/-- Actions of the ledger, memory protection, power and thermal windows (R348, R358, R369, R372, R378, R387). -/
def sysAction (w : Wr) (d : Dev) : Dev :=
  let o := w.off
  if o = 0x7000 then onBit w F.LG_CTL_SNAP (fun d => if d.on F.LG_CTL_SNAP then d else dueSwap .snap (d.wr F.LG_CTL_SNAP 1)) d
  else if o = 0x8008 then onBit w F.MP_FILL_GO fillGo d
  else if o = 0x801C then onBit w F.MP_LOGPOP_POP logPop d
  else if o = 0x9000 then if w.get F.PM_CTL_REQ = 0 then pmCancel d else pmRequest d
  else if o = 0x9148 then Dev.each (bitsOf 32 w.v) reinst d
  else if o = 0x914C then Dev.each ((bitsOf 8 w.v).map (· + 32)) reinst d
  else d

/-- Actions of the update window but for SC_GO (R418–R422). -/
def updAction (w : Wr) (fu : Fuses) (d : Dev) : Dev :=
  let o := w.off
  if o = 0xA100 then
    onBit w F.UPD_CTL_ABORT sessionAbort (onBit w F.UPD_CTL_VERIFY updVerify (onBit w F.UPD_CTL_FLUSH updFlush
      (onBit w F.UPD_CTL_OPEN updOpen d)))
  else if o = 0xA108 then updOffWritten (d.wr F.UPD_OFF_OFF (w.v % 2 ^ 17 / 4 * 4))
  else if o = 0xA10C then updData fu w.v d
  else d

/-- Actions of the map, ring and test windows (R186, R187, R440, R467–R473). -/
def auxAction (w : Wr) (old d : Dev) : Dev :=
  let o := w.off
  let i := w.inst
  if o = 0xD160 then onBit w F.LM_SCMD_GO (seedGo w.env.lines) d
  else if o = 0xD180 then
    onBit w F.LM_SWP_CTL_STOP sweepStop (onBit w F.LM_SWP_CTL_GO (fun d => sweepGo (d.wr F.LM_SWP_CTL_GO 1)) d)
  else if o = 0xB000 then if w.get F.RG_CTL_EN = old.rd F.RG_CTL_EN then d else ringEnable (w.bit F.RG_CTL_EN) d
  else if o = 0xC004 then if w.get F.TST_RINGLB_EN = old.rd F.TST_RINGLB_EN then d else ringLoopWritten d
  else if o = 0xC100 then
    let d := if w.get F.TST_LBCTL_DEPTH ≠ old.rd F.TST_LBCTL_DEPTH i then depthWritten i d
             else if w.get F.TST_LBCTL_SEED ≠ old.rd F.TST_LBCTL_SEED i then loopClear i d else d
    runWritten i (old.on F.TST_LBCTL_RUN i) w.env.bytes w.env.bits d
  else if o = 0xC114 then onBit w F.TST_ECHOINJ_HANG (fun d => d.wr F.TST_ECHOINJ_HANG 1 i) d
  else if o = 0xC200 then onBit w F.TST_INJ_ARM (fun d => d.wr F.TST_INJ_ARM 1) d
  else d

/-- The two global registers that act (R413, R459, R460). -/
def globalAction (w : Wr) (d : Dev) : Dev :=
  if w.off = 0x10 then
    if w.get F.COMMIT_GROUP ≤ 8 then commitStat (commitCapture (w.get F.COMMIT_GROUP) (commitNames w d) d) else d
  else if w.off = 0x24 then onBit w F.FS_CTL_FLUSH fsFlush (onBit w F.FS_CTL_EXIT fsExit d)
  else d

/-- What an accepted write does beyond its fields. -/
def regAction (w : Wr) (fu : Fuses) (old d : Dev) : Dev :=
  let o := w.off
  if o < 0x1000 then globalAction w d
  else if o = 0xE210 then accAction w d
  else if o < 0x4000 ∨ 0xF000 ≤ o then busAction w d
  else if o < 0x6000 then intAction w d
  else if o < 0x7000 then dmaAction w d
  else if o < 0xA000 then sysAction w d
  else if o < 0xB000 then updAction w fu d
  else if o < 0xE000 then auxAction w old d
  else admAction w old d

/-! ### One instance -/

/-- TKT_DATA while the direct ticket is in admission (R48), a doorbell of a disabled ring (R44), and a GO of a seed or a fill
while one runs, which is dropped whole (R186, R372, R482). -/
def ignored (w : Wr) (d : Dev) : Option Dev :=
  if 0xE040 ≤ w.off ∧ w.off < 0xE080 ∧ d.on F.TKT_STAT_BUSY then some (d.inc F.TKT_STAT_DROP)
  else if 0xE400 ≤ w.off ∧ w.off < 0xE800 ∧ w.off % 0x10 = 0xC ∧ !d.on (F.SQ_CFG_EN.ix (w.elem 0xE400 0x10)) then some d
  else if w.off = 0xD160 ∧ w.bit F.LM_SCMD_GO ∧ d.on F.LM_STAT_SEEDBUSY then some (d.inc F.LM_SCMD_DROP)
  else if w.off = 0x8008 ∧ w.bit F.MP_FILL_GO ∧ d.on F.MP_STAT_FILLBUSY then some (d.inc F.MP_FILL_DROP)
  else none

/-- LG_TIME's two halves (R358). -/
def timeHalf (w : Wr) (d : Dev) : Option Dev :=
  if w.off = 0x700C then some { d with led := { d.led with timeHeld := some (w.v % 2 ^ 32) } }
  else if w.off = 0x7010 then some (timeWrite (w.v % 2 ^ 32) d)
  else none

/-- A write to one instance: the cause for which it is dropped, 0 when it is taken, and the state after it. -/
def writeInst (w : Wr) (fs : List Fld) (fu : Fuses) (d : Dev) : Nat × Dev :=
  match ignored w d with
  | some d => (0, d)
  | none =>
    match dropCause w fs d with
    | 0 =>
      match timeHalf w d with
      | some d => (0, d)
      | none =>
        let n := policyAction w (Dev.each fs (takeField w) d)
        let n := if fs.any (fun f => f.ty == .rwc) then commitStat n else n
        (0, regAction w fu d n)
    | c => (c, d)

/-- A write to several instances, each by its own state: the lowest that drops it, with its cause (R486). -/
def writeEach (w : Wr) (fs : List Fld) (fu : Fuses) : List Nat → Dev → Option (Nat × Nat) × Dev
  | [], d => (none, d)
  | i :: is, d =>
    let (c, d) := writeInst { w with inst := i } fs fu d
    let (e, d) := writeEach w fs fu is d
    (if c = 0 then e else some (i, c), d)

end Sys2Proof.Machine
end

