-- ==== Sys2Proof/Machine/Port.lean ====
section
/-!
DEFINITION. The register port (R479–R489): a write and a read of any register, and the accesses held while Rinva wakes.
-/

namespace Sys2Proof.Machine

/-- A write error (R488): the window's bit, the count, and the record of the write. -/
def writeErr (x : Access) (idx cause : Nat) (bc : Bool) (d : Dev) : Dev :=
  let d := (d.wr F.REG_WERR_WIN (setBit (d.rd F.REG_WERR_WIN) (x.off / 4096))).inc F.REG_WCNT_CNT
  let d := ((d.wr F.REG_WCNT_INDEX idx).wr F.REG_WLAST_OFFSET (x.off / 4)).wr F.REG_WLAST_DOM x.acc.dom.val
  (d.wr F.REG_WLAST_CAUSE cause).put F.REG_WLAST_BCAST bc

/-- A COMMIT dropped because an earlier commit of its group still waits is counted (R413). -/
def commitDropped (x : Access) (cause : Nat) (d : Dev) : Dev :=
  if x.off = 0x10 ∧ cause = 3 then d.inc F.COMMIT_STAT_DROP else d

/-- A write of a routing-channel or LUT register, or of one of the three registers of secure domain 0 alone, is refused
(R332). -/
def sprRefuses (x : Access) (d : Dev) : Bool :=
  let o := x.off
  let root := x.acc.dom.val == 0 && !x.acc.ns
  if root then false
  else if o = 0x500C ∨ o = 0x5014 ∨ o = 0x5040 then true
  else
    let owned (own ns : Fld) : Bool :=
      d.rd own == x.acc.dom.val && (d.on ns || !x.acc.ns) &&
      fld x.data own.lo own.w == d.rd own && fld x.data ns.lo ns.w == d.rd ns
    if 0x5100 ≤ o ∧ o < 0x51C0 then !owned (F.SPR_CH_OWNER.ix ((o - 0x5100) / 4)) (F.SPR_CH_NS.ix ((o - 0x5100) / 4))
    else if 0x5300 ≤ o ∧ o < 0x5340 then !owned (F.SPR_LUT_OWNER.ix ((o - 0x5300) / 4)) (F.SPR_LUT_NS.ix ((o - 0x5300) / 4))
    else false

/-- A refused router write is counted in SPR_ACCERR alone (R332, R484). The register index of the three registers outside
the channels and cells is not stated. -/
def sprAccErr (x : Access) (d : Dev) : Dev :=
  let o := x.off
  let (reg, d) := if 0x5100 ≤ o ∧ o < 0x51C0 then ((o - 0x5100) / 4, d)
    else if 0x5300 ≤ o ∧ o < 0x5340 then (48 + (o - 0x5300) / 4, d)
    else d.fresh
  ((d.inc F.SPR_ACCERR_CNT).wr F.SPR_ACCERR_LASTREG reg).wr F.SPR_ACCERR_LASTDOM x.acc.dom.val |>.wr F.SPR_FLAG_ACCERR 1

/-- TST_INJ.LINKERR, the one bit of its register that CHSEL multiplies (R487, R473). -/
def linkErrWrite (x : Access) (d : Dev) : Dev :=
  if x.off = 0xC200 ∧ x.data.testBit 8 ∧ d.rd F.DBG_STAT_LEVEL ≠ 0 ∧ fld x.data 0 4 ≤ 11 then
    let dom := x.acc.dom.val
    Dev.each (if selBcast d dom .ch then List.range 32 else [selIndex d dom .ch]) (fun c d => d.wr F.TST_INJ_LINKERR 1 c) d
  else d

/-- A served write (R481–R488). -/
def servedWrite (x : Access) (fu : Fuses) (d : Dev) : Dev :=
  match fieldsAt x.off with
  | none => d
  | some fs =>
    let dom := x.acc.dom.val
    let s := selOf x.off
    let bc := selBcast d dom s
    let i := selIndex d dom s
    if fs.all (fun f => f.ty == .ro) then d
    else if masked x.off x.acc d || (x.off == 8 && !(dom == 0 && !x.acc.ns)) then
      writeErr x (errIndex i s) 5 bc d
    else if sprRefuses x d then sprAccErr x d
    else
      let (e, d) := writeEach { off := x.off, v := x.data, acc := x.acc, env := x.env } fs fu (if bc then List.range (selCount s) else [i]) d
      match e with
      | some (j, c) => writeErr x (errIndex j s) c bc (commitDropped x c d)
      | none => linkErrWrite x d

/-- A write that is not held (R480, R489). SC_GO may blow fuses. -/
def writeNow (x : Access) (fu : Fuses) (d : Dev) : Fuses × Dev :=
  match portRoute x.off d with
  | .dead | .wakes => (fu, portSilent d)
  | .refused =>
    match fieldsAt x.off with
    | none => (fu, portDone 0 d)
    | some fs => (fu, portDone 0 (if fs.all (fun f => f.ty == .ro) then d else writeErr x 0 4 false d))
  | .served =>
    let go := x.off == 0xA240 && x.data.testBit 0 && !masked x.off x.acc d
    let d := portDone 0 (servedWrite x fu d)
    if go then scGo x.env.ck fu d else (fu, d)

/-- An access that is not held. -/
def accessNow (x : Access) (fu : Fuses) (d : Dev) : Fuses × Dev :=
  if x.wr then writeNow x fu d else (fu, readNow x d)

/-- An access of the register port: in Nap, any access but of PM_* wakes Rinva and waits (R390, R480). -/
def portAccess (x : Access) (fu : Fuses) (d : Dev) : Fuses × Dev :=
  match portRoute x.off d with
  | .wakes => (fu, wakeStart { portSilent d with port := { (portSilent d).port with waiting := d.port.waiting ++ [x] } })
  | _ => accessNow x fu d

/-- The accesses held through a wake complete, in order (R480). -/
def portDrain (xs : List Access) (fu : Fuses) (d : Dev) : Fuses × Dev :=
  match xs with
  | [] => (fu, d)
  | x :: r =>
    let (fu, d) := accessNow x fu d
    portDrain r fu d

/-- A write of `v` to the register at `o`. -/
def portWrite (o v : Nat) (a : Acc) (e : PortEnv) (fu : Fuses) (d : Dev) : Fuses × Dev :=
  portAccess { wr := true, off := o, data := v, acc := a, env := e } fu d

/-- A read of the register at `o`. -/
def portRead (o : Nat) (a : Acc) (m : Mem) (d : Dev) : Dev :=
  (portAccess { wr := false, off := o, acc := a, env := { mem := m } } {} d).2

/-- A register write whose meaning blows no fuse. -/
def regWrite (o v : Nat) (a : Acc) (e : PortEnv) (fu : Fuses) (d : Dev) : Dev := (portWrite o v a e fu d).2

/-- A write of 1 to SC_GO with command `n` in the buffer (R431): what the rows of the sealed commands are. -/
def sealedGo (n : Nat) (a : Acc) (ck : Bool) (fu : Fuses) (d : Dev) : Fuses × Dev :=
  if scCmd (scBytes d) = n then portWrite 0xA240 1 a { ck := ck } fu d else (fu, d)

end Sys2Proof.Machine
end

