-- ==== Sys2Proof/Machine/Boot.lean ====
section
/-!
DEFINITION. The boot (R400–R411): the release of a reset, the slot choice (R424), the settings (R407, R408, R425), ROM
recovery mode (R429), and the end of boot enumeration (R409, R410).
-/

namespace Sys2Proof.Machine

def phase (n : Nat) (d : Dev) : Dev := d.wr F.BOOT_STAT_PHASE n

/-- An event meets the boot (R402). -/
def bootEvent (ev : BootEvent) (d : Dev) : Dev :=
  match ev with
  | .powerFail => powerFailEvent { d with pins := { d.pins with pfailN := false }, pfm := { d.pfm with fell := d.time } }
  | .readings rs => sensorWindow rs d

/-- A power fail or a trip has stopped the boot: the fail-safe state holds until a reset (R402). -/
def bootStopped (d : Dev) : Bool := d.on F.FS_STAT_ACTIVE && d.on F.FS_STAT_RESETONLY

/-- The boot reaches a phase and goes on with it, unless an event stops it there (R400, R402, assumption 19). -/
def bootAt (e : BootEnv) (n : Nat) (go : Dev → Dev) (d : Dev) : Dev :=
  let d := phase n d
  let d := match e.stop with
    | some (p, ev) => if p = n then bootEvent ev d else d
    | none => d
  if bootStopped d then d else go d

/-! ### The slot (R424) -/

/-- A boot-pointer record of the boot; a failed write does not stop it. -/
def bootRecord (ok : Bool) (p : BootPtr) (d : Dev) : Dev :=
  if ok then
    let d := bpWrite p d
    { d with nor := { d.nor with undone := [] } }
  else bpShow { d with upd := { d.upd with bp := p } }

/-- Load each cluster of a slot from the images that name it (R417): false at the first cluster that fails. -/
def loadClusters (s : Nat) : List (Nat × Mem) → Dev → Bool × Dev
  | [], d => (true, d)
  | (cl, m) :: r, d =>
    let m := memFinds d 11 m
    let (ok, d) := slotLoad s cl m (readMem 11 m d)
    if ok then loadClusters s r d else (false, d)

/-- load_slot of R424: the header's checks, then every cluster; MINVER is the record's (R417). -/
def loadSlot (fu : Fuses) (s : Nat) (ms : List Mem) (d : Dev) : Bool × Dev :=
  if slotErr fu d.upd.bp.minver none (slotHead d s) ≠ 0 then (false, d.wr (verFld s) 0)
  else
    let (ok, d) := loadClusters s ((List.range 4).map fun cl => (cl, ms.getD cl .clean)) d
    if ok then (true, takeKey fu s (d.wr (verFld s) (leAt (slotHead d s) 8 4))) else (false, d.wr (verFld s) 0)

/-- Every cluster runs on the ROM alone. -/
def romOnly (d : Dev) : Dev := Dev.each [0, 1, 2, 3] romAlone { d with upd := { d.upd with slot := none } }

/-- The first half of boot_slot: a trial counts down, or reverts. -/
def bootTrial (ok : Bool) (d : Dev) : Dev :=
  let p := d.upd.bp
  if !p.trial then d
  else if p.tries = 0 then bootRecord ok { p with active := p.prev, trial := false } (d.wr F.UPD_STAT_REVERTED 1)
  else bootRecord ok { p with tries := p.tries - 1 } d

/-- boot_slot of R424. -/
def bootSlot (fu : Fuses) (e : BootEnv) (d : Dev) : Dev :=
  let d := Dev.each [0, 1, 2, 3] (fun cl d => d.wr F.PAT_MINVER_MINVER d.upd.bp.minver cl) d
  let d := bootTrial e.bpOk d
  let p := d.upd.bp
  let (ok, d) := loadSlot fu p.active e.loads d
  if ok then d
  else
    let d := if p.trial then bootRecord e.bpOk { p with active := p.prev, trial := false } (d.wr F.UPD_STAT_REVERTED 1)
             else d.wr F.UPD_STAT_FALLBACK 1
    let (ok, d) := loadSlot fu (1 - p.active) (e.loads.drop 4) d
    if ok then d else romOnly d

/-! ### Settings (R407, R408, R425) -/

/-- The instances a settings entry names; none when it names no instance. -/
def entryInsts (d : Dev) (o sel : Nat) : Option (List Nat) :=
  let s := selOf o
  if s = .one ∨ s = .acc ∨ s = .rty ∨ s = .bank then some [selIndex d 0 s]
  else if sel = 0xFFFF then some (List.range (selCount s))
  else if sel < selCount s then some [sel] else none

/-- The bits of a value that fall to the RW, RWC and RWI fields; EN of ADM_CTL is left out. -/
def entryBits (o v : Nat) (fs : List Fld) : Nat :=
  let m := fs.foldl (fun m f => if f.ty == .rw || f.ty == .rwc || f.ty == .rwi then m + fld v f.lo f.w * 2 ^ f.lo else m) 0
  if o = 0xE000 then clrBit m 0 else m

/-- One settings entry (R408). -/
def settingsEntry (fu : Fuses) (b : List Byte) (d : Dev) : Dev :=
  let o := leAt b 0 2
  let sel := leAt b 2 2
  let v := leAt b 4 4
  if o = 0x3004 ∧ v.testBit 0 then
    match entryInsts d o sel with
    | some is => Dev.each is (fun x d => fenceDie x 0 d) d
    | none => d.inc F.CFG_SKIP_SKIP
  else if o < 0x500 ∨ (0xA000 ≤ o ∧ o < 0xB000) ∨ 0xF000 ≤ o ∨ (!d.cold ∧ (o = 0x3008 ∨ o = 0x300C)) then d.inc F.CFG_SKIP_SKIP
  else match fieldsAt o with
    | none => d.inc F.CFG_SKIP_SKIP
    | some fs =>
      let fs := fs.filter fun f => f.ty == .rw || f.ty == .rwc || f.ty == .rwi
      if fs.isEmpty then d.inc F.CFG_SKIP_SKIP
      else match entryInsts d o sel with
        | none => d.inc F.CFG_SKIP_SKIP
        | some is =>
          let (e, d) := writeEach { off := o, v := entryBits o v fs } fs fu is d
          if e.isSome then d.inc F.CFG_SKIP_WERR else d

def settingsEntries (fu : Fuses) (a : Nat) : Nat → Nat → Dev → Dev
  | 0, _, d => d
  | n + 1, i, d => settingsEntries fu a n (i + 1) (settingsEntry fu (norRead d (a + 64 + 8 * i) 8) d)

/-- The schema range of the image in force: that of its slot, or schema 1 on the ROM alone (R407, R417). -/
def schemaRange (d : Dev) : Nat × Nat :=
  match d.upd.slot with
  | some s => (leAt (slotHead d s) 12 2, leAt (slotHead d s) 14 2)
  | none => (1, 1)

/-- The settings are selected and applied (R407, R408), or a mismatch is recorded (R407, R425). -/
def bootSettings (fu : Fuses) (e : BootEnv) (d : Dev) : Dev :=
  let (lo, hi) := schemaRange d
  match setPick d lo hi with
  | some c =>
    let d := ((d.wr F.CFG_SET_COPY c).wr F.CFG_SET_V 1).wr F.CFG_SET_SCHEMA (leAt (setHead d c) 4 2)
    commitBoot (settingsEntries fu (setAddr c) (setEntries d c) 0 d)
  | none =>
    let d := d.wr F.BOOT_STAT_DEFSET 1
    if setSound d 0 || setSound d 1 then
      let d := d.wr F.BOOT_STAT_SCHEMA 1
      match d.upd.slot with
      | none => d
      | some s =>
        let p := d.upd.bp
        let d := d.wr F.UPD_STAT_SCHEMA 1
        if p.trial ∧ p.active = s then bootRecord e.bpOk (bpRevert p) d else d
    else d

/-! ### The phases (R400) -/

/-- PHASE 8 (R429). -/
def bootRecovery (err : Nat) (d : Dev) : Dev := phase 8 (d.wr F.BOOT_STAT_ERR err)

/-- The records and the checkpoint (R423, R430). -/
def bootRecords (d : Dev) : Dev :=
  let d := bpLoad d
  let k := ckScan d
  (setCkpt k d).wr64 F.SC_CTR_LO_CTR F.SC_CTR_HI_CTR (k + 255)

/-- PHASE 7 (R410, R424, R352). -/
def bootReady (e : BootEnv) (d : Dev) : Dev :=
  let d := ((phase 7 d).wr F.BOOT_STAT_READY 1).wr F.BOOT_TIME_TIME (min e.us 65535)
  let d := if d.on F.UPD_STAT_REVERTED || d.on F.UPD_STAT_FALLBACK then raise 0xD6 d else d
  let d := { d.wr F.BOOT_STAT_ENUM 1 with bootCh := d.rd F.CFG_CHEN_EN }
  let d := Dev.each (bitsOf 32 d.bootCh) (fun c d => enumStart c true d) d
  exportKick (ringActive d)

/-- PHASE 5 and PHASE 6, and READY. -/
def bootImage (fu : Fuses) (e : BootEnv) (d : Dev) : Dev :=
  bootAt e 5 (fun d => bootAt e 6 (fun d => bootReady e (logScan (bootSettings fu e d))) (bootSlot fu e d)) d

/-- PHASE 4 (R406, R423, R430), with a NOR discovered. -/
def bootHeader (fu : Fuses) (e : BootEnv) (d : Dev) : Dev :=
  let h := norRead d 0 64
  let err := headerErr fu.uid h
  let d := bootRecords d
  if err ≠ 0 then bootRecovery err d
  else
    let flags := leAt h 7 1
    let d := norQuad e.sfdp (flags.testBit 1) (d.wr F.CFG_NOR_SCKDIV (leAt h 12 1 % 4))
    bootImage fu e { d with mp := { d.mp with init := b2n (flags.testBit 0) } }

/-- PHASE 1: repairs and the ROM check (R371, R475). -/
def bootRepair (e : BootEnv) (d : Dev) : Dev := if d.cold then (repairs false d).put F.TST_ROM_ROMOK e.romOk else d

/-- A cluster's impedance search, from its start to its end (R270, R271, R400). -/
def bootSearch (e : BootEnv) (cl : Nat) (d : Dev) : Dev :=
  let r := e.pzq.getD cl (0, 0)
  pzqEnd cl r.1 r.2 (pzqStart cl false d)

/-- PHASE 2: the fills (R372, R373), the impedance searches (R270), and the pads' idle row (R246). -/
def bootFill (e : BootEnv) (d : Dev) : Dev :=
  let d := coreFill d
  let d := if d.cold || d.mp.init == 0 then raise 0x84 d else d
  let d := Dev.each [0, 1, 2, 3] (bootSearch e) d
  Dev.each (List.range 32) (fun c d => setPads (padsIdle (d.on F.CH_PAD_KEEP c)) c d) d

/-- PHASE 3: discovery (R404), and the way to recovery (R429). -/
def bootNor (fu : Fuses) (e : BootEnv) (recovery : Bool) (d : Dev) : Dev :=
  let d := norFind e.sfdp d
  if sfdpErr e.sfdp ≠ 0 then bootRecovery (sfdpErr e.sfdp) d
  else if recovery then bootRecovery 7 (bootRecords d)
  else bootAt e 4 (bootHeader fu e) d

/-- The boot from PHASE 1 on. -/
def bootRun (fu : Fuses) (e : BootEnv) (d : Dev) : Dev :=
  let rec' := d.upd.recoverNext
  bootAt e 1 (fun d => bootAt e 2 (fun d => bootAt e 3 (bootNor fu e rec') (bootFill e d)) (bootRepair e d))
    { d with upd := { d.upd with recoverNext := false } }

/-- PM_STAT outlives SRST_N (R396): at the release CCLK runs, and no request is pending. -/
def bootAwake (d : Dev) : Dev :=
  let s := d.rd F.PM_STAT_STATE
  if s = 2 then pmAbandon d else if s = 3 ∨ s = 4 then dozeShow ((d.wr F.PM_STAT_STATE 0).wr F.PM_STAT_BLOCK 0) else d

/-- RESET_RELEASE (R397, R400, R402, R474). -/
def resetRelease (fu : Fuses) (e : BootEnv) (d : Dev) : Dev :=
  if !d.inReset then d
  else
    let test := if d.cold then e.testMode else d.tst.testMode
    let d := { d with tst := { d.tst with testMode := test }
                      pins := { d.pins with porstN := true, srstN := true, cclkLost := false, linkLost := 0, cfgLost := false, aonLost := false
                                            testIn := test } }
    if test then d
    else
      let d := bootAwake (d.put F.BOOT_STAT_WARM !d.cold)
      if d.pins.pfailN then bootRun fu e d else phase 9 d

/-- BOOT_PFAIL_WAIT_END (R402). -/
def pfailWaitEnd (fu : Fuses) (e : BootEnv) (d : Dev) : Dev :=
  if d.inReset || d.tst.testMode || d.rd F.BOOT_STAT_PHASE != 9 || bootStopped d then d
  else bootRun fu e { d with pins := { d.pins with pfailN := true } }

/-- The deferred commit of the die window (R409). -/
def bootDieCommit (d : Dev) : Dev :=
  if !d.cold || !d.shadow.any (fun p => cmGroup (keyOff p.1) == 2) then d
  else
    let d := commitCapture 2 (fun _ => true) d
    let bad := (dieCheck true (d.captured.filter (capturedOf 2 0 0)) d).isSome
    let d := commitTake true 2 0 0 d
    if bad then d.wr F.BOOT_STAT_DIEERR 1 else d

/-- BOOT_ENUM_END (R410): the enumerations begun at PHASE 7 have ended, `ms` after READY. -/
def bootEnumEnd (ms : Nat) (d : Dev) : Dev :=
  if !d.on F.BOOT_STAT_ENUM || (bitsOf 32 d.bootCh).any (fun c => d.on F.CH_STAT_ENUMBUSY c) then d
  else raise 0xD0 (bootDieCommit ((d.wr F.BOOT_STAT_ENUM 0).wr F.BOOT_TIME_ENUM (min ms 65535)))

end Sys2Proof.Machine
end

