-- ==== Sys2Proof/Machine/RowsAdmission.lean ====
section
/-!
DEFINITION. Commands: Queues, tickets, completion rings, the cell pool and the power-fail manifest (R44–R76, R218,
R494). One meaning for each row of the table.
-/

namespace Sys2Proof.Machine

/-- SQ_DOORBELL. SQk_DB takes a word with TAIL; a TAIL outside the ring is a write error (R44, R45). -/
def execSqDoorbell (k : Fin 64) (v : Word) (a : Acc) (s : State) : Host.Outcome State Fault Refusal :=
  .next (s.upd (regWrite (0xE40C + 0x10 * k.val) v.toNat a {}))

/-- SQ_ENABLE. SQk_CFG takes a word; EN from 0 to 1 enables the ring (R44). -/
def execSqEnable (k : Fin 64) (v : Word) (a : Acc) (s : State) : Host.Outcome State Fault Refusal :=
  .next (s.upd (regWrite (0xE408 + 0x10 * k.val) v.toNat a {}))

/-- TICKET_FETCH. R46. -/
def execTicketFetch (s : State) : Host.Outcome State Fault Refusal :=
  .next (s.upd fun _ d => whenLive (Sys2Proof.Machine.ticketFetch) d)

/-- TICKET_ADMIT. R49, R50, R54, R55; the readings of the admission staging and of the control tables. -/
def execTicketAdmit (m8 : Mem) (m10 : MemUse) (s : State) : Host.Outcome State Fault Refusal :=
  .next (s.upd fun _ d => whenLive (fun d => Sys2Proof.Machine.ticketAdmit m8 m10.m m10.ws (latchAll (beforeAdmit d))) d)

/-- TKT_GO. R48. -/
def execTktGo (a : Acc) (s : State) : Host.Outcome State Fault Refusal :=
  .next (s.upd (regWrite 0xE080 1 a {}))

/-- ADM_ENABLE. ADM_CTL takes a word (R76). -/
def execAdmEnable (v : Word) (a : Acc) (s : State) : Host.Outcome State Fault Refusal :=
  .next (s.upd (regWrite 0xE000 v.toNat a {}))

/-- PFM_ARM. R494. -/
def execPfmArm (s : State) : Host.Outcome State Fault Refusal :=
  .next (s.upd fun _ d => whenLive (Sys2Proof.Machine.pfmArm) d)

/-- PFM_REGION_READ_END. R494. -/
def execPfmRegionReadEnd (s : State) : Host.Outcome State Fault Refusal :=
  .next (s.upd fun _ d => whenLive (pfmReadEnd) d)

/-- THL_BASE_WRITE. A half of THL_BASE (R54). -/
def execThlBaseWrite (hi : Bool) (v : Word) (a : Acc) (s : State) : Host.Outcome State Fault Refusal :=
  .next (s.upd (regWrite (if hi then 0xE014 else 0xE010) v.toNat a {}))

/-- CELL_WRITEBACK_RESPONSE. R56. -/
def execCellWritebackResponse (k : Fin 1048576) (s : State) : Host.Outcome State Fault Refusal :=
  .next (s.upd fun _ d => whenLive (cellWriteBack k) d)

/-- CELL_FETCH_RETURN. R57. -/
def execCellFetchReturn (k : Fin 1048576) (s : State) : Host.Outcome State Fault Refusal :=
  .next (s.upd fun _ d => whenLive (fun d => withdrawBroken k (cellReturned k d)) d)

/-- THL_SWEEP_START. R58. -/
def execThlSweepStart (v : Word) (a : Acc) (s : State) : Host.Outcome State Fault Refusal :=
  .next (s.upd (regWrite 0xE024 (v.toNat ||| 2 ^ F.THL_SWEEP_START.lo) a {}))

/-- THL_SWEEP_END. R58. -/
def execThlSweepEnd (s : State) : Host.Outcome State Fault Refusal :=
  .next (s.upd fun _ d => whenLive (sweepEnd) d)

/-- CQ_ENABLE. CQj_CFG takes a word (R63, R67). -/
def execCqEnable (j : Fin 64) (v : Word) (a : Acc) (s : State) : Host.Outcome State Fault Refusal :=
  .next (s.upd (regWrite (0xE808 + 0x10 * j.val) v.toNat a {}))

/-- CQ_HEAD_WRITE. CQj_DB takes a word with HEAD (R63). -/
def execCqHeadWrite (j : Fin 64) (v : Word) (a : Acc) (s : State) : Host.Outcome State Fault Refusal :=
  .next (s.upd (regWrite (0xE80C + 0x10 * j.val) v.toNat a {}))

/-- COMPLETION_RECORD_WRITE. R38, R62, R67. -/
def execCompletionRecordWrite (r : Rec) (lat : RecordIn) (s : State) : Host.Outcome State Fault Refusal :=
  .next (s.upd fun _ d => whenLive (completionWrite r lat.lat lat.m) d)

/-- COMPLETION_WRITE_RESPONSE. R67. -/
def execCompletionWriteResponse (j : Fin 64) (s : State) : Host.Outcome State Fault Refusal :=
  .next (s.upd fun _ d => whenLive (fun d => latchAll (completionResponse j d)) d)

/-- TQ_POP. R71, R365. -/
def execTqPop (q : Fin 16) (a : Acc) (m : Mem) (s : State) : Host.Outcome State Fault Refusal :=
  .next (s.upd (regWrite (0xEC0C + 0x40 * q.val) 1 a { mem := m }))

/-- PFAIL_N_FALL. PFAIL_N is low; the 100 ns run (R72). -/
def execPfailNFall (s : State) : Host.Outcome State Fault Refusal :=
  .next (s.upd fun _ d => { d with pins := { d.pins with pfailN := false }
                                   pfm := { d.pfm with fell := if d.pins.pfailN then d.time else d.pfm.fell } })

/-- POWER_FAIL_RECOGNISED. R72, once PFAIL_N is low. -/
def execPowerFailRecognised (s : State) : Host.Outcome State Fault Refusal :=
  .next (s.upd fun _ d => if d.pins.pfailN then d else powerFailEvent d)

/-- PFM_WAIT_EXPIRY. R218. -/
def execPfmWaitExpiry (s : State) : Host.Outcome State Fault Refusal :=
  .next (s.upd fun _ d => whenLive (Sys2Proof.Machine.pfmWaitExpiry) d)

/-- MANIFEST_WRITE. R73. -/
def execManifestWrite (lat : Nat) (s : State) : Host.Outcome State Fault Refusal :=
  .next (s.upd fun _ d => whenLive (Sys2Proof.Machine.manifestWrite lat) d)

/-- MANIFEST_HEADER_WRITE. R74. -/
def execManifestHeaderWrite (span : Nat) (s : State) : Host.Outcome State Fault Refusal :=
  .next (s.upd fun _ d => whenLive (Sys2Proof.Machine.manifestHeaderWrite span) d)

end Sys2Proof.Machine
end

