-- ==== Sys2Proof/Machine/RowsBus.lean ====
section
/-!
DEFINITION. Commands: Channels, dies and PHY calibration (R252–R288, R386). One meaning for each row of the table.
-/

namespace Sys2Proof.Machine

/-- CH_ENUM_GO. R252. -/
def execChEnumGo (v : Word) (a : Acc) (s : State) : Host.Outcome State Fault Refusal :=
  .next (s.upd (regWrite 0x100C (v.toNat ||| 2 ^ F.CH_ENUM_GO.lo) a {}))

/-- RECOVERY_POLL. R256. -/
def execRecoveryPoll (x : Fin 1024) (status : Nat) (ns : Nat) (s : State) : Host.Outcome State Fault Refusal :=
  .next (s.upd fun _ d => whenLive (fun d => latchAll (Sys2Proof.Machine.recoveryPoll x status ns d)) d)

/-- RECOVERY_TIMEOUT. R256. -/
def execRecoveryTimeout (x : Fin 1024) (s : State) : Host.Outcome State Fault Refusal :=
  .next (s.upd fun _ d => whenLive (fun d => latchAll (Sys2Proof.Machine.recoveryTimeout x d)) d)

/-- DIE_FENCE. R258. -/
def execDieFence (a : Acc) (s : State) : Host.Outcome State Fault Refusal :=
  .next (s.upd (regWrite 0x3004 1 a {}))

/-- DIE_ADMIT. R262. -/
def execDieAdmit (a : Acc) (s : State) : Host.Outcome State Fault Refusal :=
  .next (s.upd (regWrite 0x3004 2 a {}))

/-- DIE_TOCLR. R267. -/
def execDieToclr (a : Acc) (s : State) : Host.Outcome State Fault Refusal :=
  .next (s.upd (regWrite 0x3004 4 a {}))

/-- RB_FALLBACK_ENTRY. R261. -/
def execRbFallbackEntry (c : Fin 32) (g : Fin 2) (s : State) : Host.Outcome State Fault Refusal :=
  .next (s.upd fun _ d => whenLive (fallbackEnter c g) d)

/-- RB_FALLBACK_QUIET. R261. -/
def execRbFallbackQuiet (c : Fin 32) (g : Fin 2) (s : State) : Host.Outcome State Fault Refusal :=
  .next (s.upd fun _ d => whenLive (fallbackQuiet c g) d)

/-- CH_RB_EXIT. R261. -/
def execChRbExit (v : Word) (a : Acc) (s : State) : Host.Outcome State Fault Refusal :=
  .next (s.upd (regWrite 0x1010 (v.toNat ||| 2 ^ F.CH_RB_EXIT.lo) a {}))

/-- PZQ_GO. R270. -/
def execPzqGo (a : Acc) (s : State) : Host.Outcome State Fault Refusal :=
  .next (s.upd (regWrite 0x2300 1 a {}))

/-- PZQ_SEARCH_END. R270, R271. -/
def execPzqSearchEnd (cl : Fin 4) (pu : Fin 64) (pd : Fin 64) (s : State) : Host.Outcome State Fault Refusal :=
  .next (s.upd fun _ d => whenLive (pzqEnd cl pu pd) d)

/-- PZQ_BACKOFF_END. R271. -/
def execPzqBackoffEnd (cl : Fin 4) (s : State) : Host.Outcome State Fault Refusal :=
  .next (s.upd fun _ d => whenLive (Sys2Proof.Machine.pzqBackoffEnd cl) d)

/-- CAL_GO. R275. -/
def execCalGo (a : Acc) (s : State) : Host.Outcome State Fault Refusal :=
  .next (s.upd (regWrite 0x140C 1 a {}))

/-- CAL_FORCE. R277. -/
def execCalForce (a : Acc) (s : State) : Host.Outcome State Fault Refusal :=
  .next (s.upd (regWrite 0x140C 2 a {}))

/-- CAL_RETRY. R279. -/
def execCalRetry (a : Acc) (s : State) : Host.Outcome State Fault Refusal :=
  .next (s.upd (regWrite 0x140C 4 a {}))

/-- CAL_POL_WRITE. R287. -/
def execCalPolWrite (v : Word) (a : Acc) (s : State) : Host.Outcome State Fault Refusal :=
  .next (s.upd (regWrite 0x1408 v.toNat a {}))

/-- CAL_PERIOD_EXPIRY. R275. -/
def execCalPeriodExpiry (c : Fin 32) (s : State) : Host.Outcome State Fault Refusal :=
  .next (s.upd fun _ d => whenLive (calPeriod c) d)

/-- CAL_GAP_TIMEOUT. R276. -/
def execCalGapTimeout (c : Fin 32) (s : State) : Host.Outcome State Fault Refusal :=
  .next (s.upd fun _ d => whenLive (Sys2Proof.Machine.calGapTimeout c) d)

/-- CAL_FORCE_TIMEOUT. R277. -/
def execCalForceTimeout (c : Fin 32) (s : State) : Host.Outcome State Fault Refusal :=
  .next (s.upd fun _ d => whenLive (Sys2Proof.Machine.calForceTimeout c) d)

/-- CAL_BACKOFF_END. R278. -/
def execCalBackoffEnd (c : Fin 32) (s : State) : Host.Outcome State Fault Refusal :=
  .next (s.upd fun _ d => whenLive (Sys2Proof.Machine.calBackoffEnd c) d)

/-- GLIDE_TIMER. R280: GSPACE µs have passed on an idle channel. -/
def execGlideTimer (c : Fin 32) (s : State) : Host.Outcome State Fault Refusal :=
  .next (s.upd fun _ d => whenLive (fun d => if (d.chn c).run.isSome then d else glideMove c d) d)

/-- PHY_IDLE_SLEEP. R386. -/
def execPhyIdleSleep (c : Fin 32) (s : State) : Host.Outcome State Fault Refusal :=
  .next (s.upd fun _ d => whenLive (phySleep c) d)

/-- PHY_WAKE_DONE. R386. -/
def execPhyWakeDone (c : Fin 32) (s : State) : Host.Outcome State Fault Refusal :=
  .next (s.upd fun _ d => whenLive (phyWake c) d)

end Sys2Proof.Machine
end

