-- ==== Sys2Proof/Machine/RowsConfig.lean ====
section
/-!
DEFINITION. Commands: Commits, the update session and sealed commands (R18, R262, R355, R371, R385, R412–R435, R447,
R472). One meaning for each row of the table.
-/

namespace Sys2Proof.Machine

/-- COMMIT. R413. -/
def execCommit (v : Word) (a : Acc) (s : State) : Host.Outcome State Fault Refusal :=
  .next (s.upd (regWrite 0x10 v.toNat a {}))

/-- COMMIT_APPLY. R18, R412: an instance, and the part of its group. -/
def execCommitApplied (g : Fin 9) (n : Fin 4096) (part : Fin 2) (s : State) : Host.Outcome State Fault Refusal :=
  .next (s.upd fun _ d => whenLive (commitPoint g n part) d)

/-- UPD_OPEN. R418; the low bits of the word name the target. -/
def execUpdOpen (v : Word) (a : Acc) (s : State) : Host.Outcome State Fault Refusal :=
  .next (s.upd (regWrite 0xA100 (v.toNat ||| 2 ^ F.UPD_CTL_OPEN.lo) a {}))

/-- UPD_ERASE_END. R418. -/
def execUpdEraseEnd (ok : Bool) (s : State) : Host.Outcome State Fault Refusal :=
  .next (s.upd fun _ d => whenLive (Sys2Proof.Machine.updEraseEnd ok) d)

/-- UPD_DATA. R419. -/
def execUpdData (v : Word) (a : Acc) (s : State) : Host.Outcome State Fault Refusal :=
  .next (s.upd (regWrite 0xA10C v.toNat a {}))

/-- UPD_OFF_WRITE. R419. -/
def execUpdOffWrite (v : Word) (a : Acc) (s : State) : Host.Outcome State Fault Refusal :=
  .next (s.upd (regWrite 0xA108 v.toNat a {}))

/-- UPD_FLUSH. R419. -/
def execUpdFlush (v : Word) (a : Acc) (s : State) : Host.Outcome State Fault Refusal :=
  .next (s.upd (regWrite 0xA100 (v.toNat ||| 2 ^ F.UPD_CTL_FLUSH.lo) a {}))

/-- INTAKE_PROGRAM_END. R419. -/
def execIntakeProgramEnd (ok : Bool) (s : State) : Host.Outcome State Fault Refusal :=
  .next (s.upd fun _ d => whenLive (Sys2Proof.Machine.intakeProgramEnd ok) d)

/-- UPD_VERIFY. R421. -/
def execUpdVerify (v : Word) (a : Acc) (s : State) : Host.Outcome State Fault Refusal :=
  .next (s.upd (regWrite 0xA100 (v.toNat ||| 2 ^ F.UPD_CTL_VERIFY.lo) a {}))

/-- UPD_VERIFY_END. R421. -/
def execUpdVerifyEnd (s : State) : Host.Outcome State Fault Refusal :=
  .next (s.upd fun fu d => whenLive (Sys2Proof.Machine.updVerifyEnd fu) d)

/-- UPD_ABORT. R422. -/
def execUpdAbort (v : Word) (a : Acc) (s : State) : Host.Outcome State Fault Refusal :=
  .next (s.upd (regWrite 0xA100 (v.toNat ||| 2 ^ F.UPD_CTL_ABORT.lo) a {}))

/-- SC_IMAGE_ACTIVATE. R426. -/
def execScImageActivate (a : Acc) (ck : Bool) (s : State) : Host.Outcome State Fault Refusal :=
  .next (s.updF (sealedGo 1 a ck))

/-- SC_IMAGE_CONFIRM. R427. -/
def execScImageConfirm (a : Acc) (ck : Bool) (s : State) : Host.Outcome State Fault Refusal :=
  .next (s.updF (sealedGo 2 a ck))

/-- SC_RECOVERY_ENTRY. R429. -/
def execScRecoveryEntry (a : Acc) (ck : Bool) (s : State) : Host.Outcome State Fault Refusal :=
  .next (s.updF (sealedGo 3 a ck))

/-- SC_SANITISE. R433. -/
def execScSanitise (a : Acc) (ck : Bool) (s : State) : Host.Outcome State Fault Refusal :=
  .next (s.updF (sealedGo 4 a ck))

/-- SC_FUSE_PROGRAM. R371. -/
def execScFuseProgram (a : Acc) (ck : Bool) (s : State) : Host.Outcome State Fault Refusal :=
  .next (s.updF (sealedGo 5 a ck))

/-- SC_KEY_ROTATION. R432. -/
def execScKeyRotation (a : Acc) (ck : Bool) (s : State) : Host.Outcome State Fault Refusal :=
  .next (s.updF (sealedGo 6 a ck))

/-- SC_TENANT_LEDGER_RESET. R355. -/
def execScTenantLedgerReset (a : Acc) (ck : Bool) (s : State) : Host.Outcome State Fault Refusal :=
  .next (s.updF (sealedGo 7 a ck))

/-- SC_THERMAL_OVERRIDE. R385. -/
def execScThermalOverride (a : Acc) (ck : Bool) (s : State) : Host.Outcome State Fault Refusal :=
  .next (s.updF (sealedGo 8 a ck))

/-- SC_DIE_UNFENCE. R262. -/
def execScDieUnfence (a : Acc) (ck : Bool) (s : State) : Host.Outcome State Fault Refusal :=
  .next (s.updF (sealedGo 9 a ck))

/-- SC_RING_REJOIN. R447. -/
def execScRingRejoin (a : Acc) (ck : Bool) (s : State) : Host.Outcome State Fault Refusal :=
  .next (s.updF (sealedGo 10 a ck))

/-- SC_DEBUG_UNLOCK. R472. -/
def execScDebugUnlock (a : Acc) (ck : Bool) (s : State) : Host.Outcome State Fault Refusal :=
  .next (s.updF (sealedGo 11 a ck))

/-- SANITISE_END. R433. -/
def execSanitiseEnd (s : State) : Host.Outcome State Fault Refusal :=
  .next (s.upd fun _ d => whenLive (Sys2Proof.Machine.sanitiseEnd) d)

/-- SC_LOCKOUT_END. R431. -/
def execScLockoutEnd (s : State) : Host.Outcome State Fault Refusal :=
  .next (s.upd fun _ d => Sys2Proof.Machine.scLockoutEnd d)

/-- SEALED_COMMAND_END. R431. -/
def execSealedCommandEnd (s : State) : Host.Outcome State Fault Refusal :=
  .next (s.upd fun _ d => whenLive (scEnd) d)

end Sys2Proof.Machine
end

