-- ==== Sys2Proof/Machine/RowsEvents.lean ====
section
/-!
DEFINITION. Commands: The interrupt controller and the Spore router (R314–R338). One meaning for each row of the
table.
-/

namespace Sys2Proof.Machine

/-- INT_PRESENT. R317; VEC_ACK in this cycle. -/
def execIntPresent (ack : Nat) (s : State) : Host.Outcome State Fault Refusal :=
  .next (s.upd fun _ d => whenLive (Sys2Proof.Machine.intPresent ack) d)

/-- VECTOR_ACCEPT. R318. -/
def execVectorAccept (t : Fin 16) (s : State) : Host.Outcome State Fault Refusal :=
  .next (s.upd fun _ d => whenLive (Sys2Proof.Machine.vectorAccept t) d)

/-- INT_CLAIM. R320. -/
def execIntClaim (t : Fin 16) (a : Acc) (s : State) : Host.Outcome State Fault Refusal :=
  .next (s.upd fun _ d => portRead (0x420C + 0x20 * t.val) a .clean d)

/-- INT_COMPLETE. R321. -/
def execIntComplete (t : Fin 16) (v : Word) (a : Acc) (s : State) : Host.Outcome State Fault Refusal :=
  .next (s.upd (regWrite (0x4210 + 0x20 * t.val) v.toNat a {}))

/-- INT_PEND_WRITE. R315. -/
def execIntPendWrite (n : Fin 8) (v : Word) (a : Acc) (s : State) : Host.Outcome State Fault Refusal :=
  .next (s.upd (regWrite (0x4100 + 4 * n.val) v.toNat a {}))

/-- INT_GCTL_WRITE. R322. -/
def execIntGctlWrite (v : Word) (a : Acc) (ack : Nat) (s : State) : Host.Outcome State Fault Refusal :=
  .next (s.upd (regWrite 0x4000 v.toNat a { ack := ack }))

/-- MOD_HOLDOFF_EXPIRY. R323: a moderation REMAIN of the group has reached 0. -/
def execModHoldoffExpiry (g : Fin 32) (s : State) : Host.Outcome State Fault Refusal :=
  .next (s.upd fun _ d => whenLive (modExpiry g) d)

/-- TGT_IDLE_CHANGE. R324, R325. -/
def execTgtIdleChange (t : Fin 16) (up : Bool) (s : State) : Host.Outcome State Fault Refusal :=
  .next (s.upd fun _ d => tgtIdle t up d)

/-- SPORE_DELIVER. R334: one CCLK cycle of the router. -/
def execSporeDeliver (s : State) : Host.Outcome State Fault Refusal :=
  .next (s.upd fun _ d => whenLive (Sys2Proof.Machine.sporeDeliver) d)

/-- LUT_FIRE. R335. -/
def execLutFire (t : Fin 16) (s : State) : Host.Outcome State Fault Refusal :=
  .next (s.upd fun _ d => whenLive (Sys2Proof.Machine.lutFire t) d)

/-- SPI_IN_EDGE. R328. -/
def execSpiInEdge (n : Fin 4) (s : State) : Host.Outcome State Fault Refusal :=
  .next (s.upd fun _ d => whenLive (spiEdge n) d)

/-- SAFE_IN_EDGE. R330: the pin takes a level; a rise is the event of its link. -/
def execSafeInEdge (n : Fin 4) (up : Bool) (s : State) : Host.Outcome State Fault Refusal :=
  .next (s.upd fun _ d => Sys2Proof.Machine.safeInEdge n up d)

/-- SPR_SWTRIG. R328. -/
def execSprSwtrig (v : Word) (a : Acc) (s : State) : Host.Outcome State Fault Refusal :=
  .next (s.upd (regWrite 0x5010 v.toNat a {}))

/-- SPR_CH_WRITE. R331, R332, R336. -/
def execSprChWrite (c : Fin 48) (v : Word) (a : Acc) (s : State) : Host.Outcome State Fault Refusal :=
  .next (s.upd (regWrite (0x5100 + 4 * c.val) v.toNat a {}))

/-- SPR_LUT_WRITE. R332, R335. -/
def execSprLutWrite (t : Fin 16) (v : Word) (a : Acc) (s : State) : Host.Outcome State Fault Refusal :=
  .next (s.upd (regWrite (0x5300 + 4 * t.val) v.toNat a {}))

/-- LOOP_WINDOW_END. R337. -/
def execLoopWindowEnd (s : State) : Host.Outcome State Fault Refusal :=
  .next (s.upd fun _ d => whenLive (Sys2Proof.Machine.loopWindowEnd) d)

end Sys2Proof.Machine
end

