-- ==== Sys2Proof/Machine/RowsFabric.lean ====
section
/-!
DEFINITION. Commands: The system port and the DMA engine (R290–R313). One meaning for each row of the table.
-/

namespace Sys2Proof.Machine

/-- FABRIC_READ_DATA. R290, R293. -/
def execFabricReadData (p : Fin 4) (tag : Fin 256) (bytes : List Byte) (last : Bool) (resp : Resp) (s : State) : Host.Outcome State Fault Refusal :=
  .next (s.upd fun _ d => whenLive (readBeat p tag bytes last resp.code resp.m resp.ws) d)

/-- FABRIC_WRITE_RESPONSE. R293, R294. -/
def execFabricWriteResponse (p : Fin 4) (tag : Fin 256) (resp : Resp) (s : State) : Host.Outcome State Fault Refusal :=
  .next (s.upd fun _ d => whenLive (writeResp p tag resp.code resp.m) d)

/-- FABRIC_TIMEOUT. R295. -/
def execFabricTimeout (p : Fin 4) (write : Bool) (tag : TagRead) (s : State) : Host.Outcome State Fault Refusal :=
  .next (s.upd fun _ d => whenLive (Sys2Proof.Machine.fabricTimeout p write tag.tag tag.m) d)

/-- FP_UNQUAR. R295. -/
def execFpUnquar (a : Acc) (s : State) : Host.Outcome State Fault Refusal :=
  .next (s.upd (regWrite 0x2418 1 a {}))

/-- FABRIC_REQUEST_GRANT. R299. -/
def execFabricRequestGrant (p : Fin 4) (write : Bool) (tag : Fin 256) (s : State) : Host.Outcome State Fault Refusal :=
  .next (s.upd fun _ d => whenLive (requestGrant p write tag) d)

/-- DMA_START. R303, R311. -/
def execDmaStart (c : Fin 16) (a : Acc) (s : State) : Host.Outcome State Fault Refusal :=
  .next (s.upd (regWrite (0x6144 + 0x80 * c.val) 1 a {}))

/-- DMA_STOP. R307. -/
def execDmaStop (c : Fin 16) (a : Acc) (s : State) : Host.Outcome State Fault Refusal :=
  .next (s.upd (regWrite (0x6144 + 0x80 * c.val) 2 a {}))

/-- DMA_CLR. R308. -/
def execDmaClr (c : Fin 16) (a : Acc) (s : State) : Host.Outcome State Fault Refusal :=
  .next (s.upd (regWrite (0x6144 + 0x80 * c.val) 4 a {}))

/-- DMA_BURST_ISSUE. R306; the reading of the channel buffer. -/
def execDmaBurstIssue (m : Mem) (s : State) : Host.Outcome State Fault Refusal :=
  .next (s.upd fun fu d => whenLive (Sys2Proof.Machine.dmaBurstIssue (dmaIntake fu) m) d)

end Sys2Proof.Machine
end

