-- ==== Sys2Proof/Machine/RowsLedger.lean ====
section
/-!
DEFINITION. Commands: The tenant ledger and internal memory protection (R341–R373). One meaning for each row of the
table.
-/

namespace Sys2Proof.Machine

/-- LEDGER_SWAP. R348, R352. -/
def execLedgerSwap (s : State) : Host.Outcome State Fault Refusal :=
  .next (s.upd fun _ d => if d.inReset then d else Sys2Proof.Machine.ledgerSwap d)

/-- LG_SNAP. R348. -/
def execLgSnap (v : Word) (a : Acc) (s : State) : Host.Outcome State Fault Refusal :=
  .next (s.upd (regWrite 0x7000 (v.toNat ||| 2 ^ F.LG_CTL_SNAP.lo) a {}))

/-- LEDGER_EXPORT_END. R349. -/
def execLedgerExportEnd (s : State) : Host.Outcome State Fault Refusal :=
  .next (s.upd fun _ d => whenLive (exportEnd) d)

/-- CAP_INTERVAL_BOUNDARY. R353. -/
def execCapIntervalBoundary (s : State) : Host.Outcome State Fault Refusal :=
  .next (s.upd fun _ d => if d.inReset then d else capBoundary d)

/-- LG_TIME_WRITE. LG_TIME_HI takes a word (R358). -/
def execLgTimeWrite (v : Word) (a : Acc) (s : State) : Host.Outcome State Fault Refusal :=
  .next (s.upd (regWrite 0x7010 v.toNat a {}))

/-- SCRUB_READ. R367, R368; `diff` are the bits an error that SECDED does not see has changed in the word, `ctl` says that
its words of region 6 are the power-state context. -/
def execScrubRead (r : Fin 12) (m : Mem) (diff : Nat) (ctl : Bool) (s : State) : Host.Outcome State Fault Refusal :=
  .next (s.upd fun _ d => whenLive (Sys2Proof.Machine.scrubRead r m diff ctl (fun d => enterFailSafe 3 16 r (safeLink 6 d))) d)

/-- LAP_ALARM. R367. -/
def execLapAlarm (s : State) : Host.Outcome State Fault Refusal :=
  .next (s.upd fun _ d => whenLive (Sys2Proof.Machine.lapAlarm) d)

/-- MP_FILL_GO. R372. -/
def execMpFillGo (v : Word) (a : Acc) (s : State) : Host.Outcome State Fault Refusal :=
  .next (s.upd (regWrite 0x8008 (v.toNat ||| 2 ^ F.MP_FILL_GO.lo) a {}))

/-- MP_FILL_END. R372. -/
def execMpFillEnd (s : State) : Host.Outcome State Fault Refusal :=
  .next (s.upd fun _ d => whenLive (fillEnded) d)

/-- MP_LOGPOP. R369. -/
def execMpLogpop (a : Acc) (s : State) : Host.Outcome State Fault Refusal :=
  .next (s.upd (regWrite 0x801C 1 a {}))

/-- MP_UELOG_REARM. R370. -/
def execMpUelogRearm (a : Acc) (s : State) : Host.Outcome State Fault Refusal :=
  .next (s.upd (regWrite 0x802C 0x100 a {}))

end Sys2Proof.Machine
end

