-- ==== Sys2Proof/Machine/RowsPower.lean ====
section
/-!
DEFINITION. Commands: Clocks, thermal management, power states, resets and the boot (R32, R33, R374–R411). One meaning
for each row of the table.
-/

namespace Sys2Proof.Machine

/-- CLOCK_LOSS. R32: CCLK (0), a cluster link clock (1–4) or CFGCLK (5). -/
def execClockLoss (k : Fin 6) (s : State) : Host.Outcome State Fault Refusal :=
  .next (s.upd fun _ d => Sys2Proof.Machine.clockLoss k d)

/-- AONCLK_WATCH. R33. -/
def execAonclkWatch (s : State) : Host.Outcome State Fault Refusal :=
  .next (s.upd fun _ d => aonWatch d)

/-- CFGCLK_RETURN. R32. -/
def execCfgclkReturn (s : State) : Host.Outcome State Fault Refusal :=
  .next (s.upd fun _ d => cfgReturn d)

/-- SENSOR_READING. R376–R379: one 10 µs window of readings. -/
def execSensorReading (rs : List Reading) (s : State) : Host.Outcome State Fault Refusal :=
  .next (s.upd fun _ d => whenLive (fun d => sensorWindow (rs.map fun r => (r.sensor.val, r.cnt, r.temp)) (beforeEvaluation d)) d)

/-- THERMAL_LOG_PROGRAMMED. R383. -/
def execThermalLogProgrammed (ok : Bool) (s : State) : Host.Outcome State Fault Refusal :=
  .next (s.upd fun _ d => logProgrammed ok d)

/-- THERMAL_TRIP_TIMEOUT. R384. -/
def execThermalTripTimeout (s : State) : Host.Outcome State Fault Refusal :=
  .next (s.upd fun _ d => tripTimeout d)

/-- TH_REINST. R378. -/
def execThReinst (hi : Bool) (v : Word) (a : Acc) (s : State) : Host.Outcome State Fault Refusal :=
  .next (s.upd (regWrite (if hi then 0x914C else 0x9148) v.toNat a {}))

/-- TH_POL_WRITE. R382. -/
def execThPolWrite (v : Word) (a : Acc) (s : State) : Host.Outcome State Fault Refusal :=
  .next (s.upd (regWrite 0x9104 v.toNat a {}))

/-- PM_NAP_REQUEST. R387. -/
def execPmNapRequest (a : Acc) (s : State) : Host.Outcome State Fault Refusal :=
  .next (s.upd (regWrite 0x9000 1 a {}))

/-- PM_HIBERNATE_REQUEST. R387. -/
def execPmHibernateRequest (a : Acc) (s : State) : Host.Outcome State Fault Refusal :=
  .next (s.upd (regWrite 0x9000 2 a {}))

/-- PM_CANCEL. R387. -/
def execPmCancel (a : Acc) (s : State) : Host.Outcome State Fault Refusal :=
  .next (s.upd (regWrite 0x9000 0 a {}))

/-- POWER_STATE_ENTRY. R388. -/
def execPowerStateEntry (s : State) : Host.Outcome State Fault Refusal :=
  .next (s.upd fun _ d => whenLive (powerEntry) d)

/-- PM_ENTRY_TIMEOUT. R387. -/
def execPmEntryTimeout (s : State) : Host.Outcome State Fault Refusal :=
  .next (s.upd fun _ d => whenLive (entryTimeout) d)

/-- WAKE_IN_EDGE. R390. -/
def execWakeInEdge (s : State) : Host.Outcome State Fault Refusal :=
  .next (s.upd fun _ d => wakeIn d)

/-- WAKE_COMPLETE. R389, R390; the accesses held complete (R480). -/
def execWakeCompleted (us : Nat) (loss : List RetLoss) (s : State) : Host.Outcome State Fault Refusal :=
  .next (s.updF fun fu d => let d := wakeComplete us loss d; if d.cclkOn then portDrain d.port.waiting fu { d with port := { d.port with waiting := [] } } else (fu, d))

/-- SUPPLY_WARNING. R392. -/
def execSupplyWarning (s : State) : Host.Outcome State Fault Refusal :=
  .next (s.upd fun _ d => Sys2Proof.Machine.supplyWarning d)

/-- PORST_N_ASSERT. R397. -/
def execPorstNAssert (s : State) : Host.Outcome State Fault Refusal :=
  .next (s.upd porst)

/-- SRST_N_ASSERT. R399. -/
def execSrstNAssert (s : State) : Host.Outcome State Fault Refusal :=
  .next (s.upd fun _ d => srst d)

/-- RESET_RELEASE. R397, R400: the boot runs to READY, to recovery or to PHASE 9. -/
def execResetReleased (e : BootEnv) (s : State) : Host.Outcome State Fault Refusal :=
  .next (s.upd fun fu d => resetRelease fu e d)

/-- BOOT_PFAIL_WAIT_END. R402. -/
def execBootPfailWaitEnd (e : BootEnv) (s : State) : Host.Outcome State Fault Refusal :=
  .next (s.upd fun fu d => pfailWaitEnd fu e d)

/-- BOOT_ENUM_END. R410. -/
def execBootEnumEnded (ms : Nat) (s : State) : Host.Outcome State Fault Refusal :=
  .next (s.upd fun _ d => whenLive (bootEnumEnd ms) d)

/-- THERMAL_LOG_ERASE_END. R411. -/
def execThermalLogEraseEnd (s : State) : Host.Outcome State Fault Refusal :=
  .next (s.upd fun _ d => whenLive (logEraseEnd) d)

end Sys2Proof.Machine
end

