-- ==== Sys2Proof/Machine/RowsRead.lean ====
section
/-!
DEFINITION. Commands: Decoders and the Lichen Map unit (R147–R164, R175–R189). One meaning for each row of the table.
-/

namespace Sys2Proof.Machine

/-- STAGED_CODEWORD_DISPATCH. R147; the reading of the staging words. -/
def execStagedCodewordDispatch (cl : Fin 4) (m : Mem) (s : State) : Host.Outcome State Fault Refusal :=
  .next (s.upd fun _ d => whenLive (fun d => 
    let m := memFinds d 0 m
    dueSweepCl cl (stagedDispatch sourceSettled d.fs.pfail cl m.isUe (readMem 0 m d))) d)

/-- HARD_DECODE_END. R148; what the decoder found, and the reading of its buffer. -/
def execHardDecodeEnd (cl : Fin 4) (n : Fin 10) (f : DecodeFound) (m : Mem) (s : State) : Host.Outcome State Fault Refusal :=
  .next (s.upd fun _ d => whenLive (fun d =>
    let m := memFinds d 2 m
    latchAll (dueSweepCl cl (Sys2Proof.Machine.hardDecodeEnd (sourceSettledIn f.same) d.fs.pfail cl n f m.isUe (readMem 2 m d)))) d)

/-- SOFT_DECODER_GRANT. R157. -/
def execSoftDecoderGrant (s : State) : Host.Outcome State Fault Refusal :=
  .next (s.upd fun _ d => whenLive (fun d => Dev.each (List.range 4) dueSweepCl (softGrant d)) d)

/-- SOFT_DECODE_END. R158. -/
def execSoftDecodeEnd (n : Fin 8) (f : DecodeFound) (m : Mem) (s : State) : Host.Outcome State Fault Refusal :=
  .next (s.upd fun _ d => whenLive (fun d =>
    let m := memFinds d 2 m
    latchAll (Dev.each (List.range 4) dueSweepCl
      (Sys2Proof.Machine.softDecodeEnd (sourceSettledIn f.same) d.fs.pfail n f m.isUe (readMem 2 m d)))) d)

/-- LM_LINE_FETCH_RETURN. R176, R180. -/
def execLmLineFetchReturn (line : LineRead) (s : State) : Host.Outcome State Fault Refusal :=
  .next (s.upd fun _ d => whenLive (lmReturned line.line line.m) d)

/-- TRACKER_RESULT. R183; the tracker stops at a power fail and in the fail-safe state (R191). -/
def execTrackerResult (cl : Fin 4) (m : Mem) (s : State) : Host.Outcome State Fault Refusal :=
  .next (s.upd fun _ d => whenLive (fun d => Sys2Proof.Machine.trackerResult cl m (d.pfSeen || d.on F.FS_STAT_ACTIVE) d) d)

/-- LM_LINE_WRITE_RESPONSE. R179. -/
def execLmLineWriteResponse (line : LineRead) (s : State) : Host.Outcome State Fault Refusal :=
  .next (s.upd fun _ d => whenLive (lmWriteReturned line.line line.m) d)

/-- LM_CTL_WRITE. R189. -/
def execLmCtlWrite (v : Word) (a : Acc) (s : State) : Host.Outcome State Fault Refusal :=
  .next (s.upd (regWrite 0xD100 v.toNat a {}))

/-- LM_CACHE_INVALIDATE. R189. -/
def execLmCacheInvalidate (s : State) : Host.Outcome State Fault Refusal :=
  .next (s.upd fun _ d => whenLive (lmInvalidate) d)

/-- LM_SEED_GO. R186. -/
def execLmSeedGo (v : SeedWrite) (a : Acc) (s : State) : Host.Outcome State Fault Refusal :=
  .next (s.upd (regWrite 0xD160 (v.v.toNat ||| 2 ^ F.LM_SCMD_GO.lo) a { lines := v.m }))

/-- LM_SEED_END. R186. -/
def execLmSeedEnd (s : State) : Host.Outcome State Fault Refusal :=
  .next (s.upd fun _ d => whenLive (seedEnd) d)

/-- LM_SWEEP_GO. R187. -/
def execLmSweepGo (v : Word) (a : Acc) (s : State) : Host.Outcome State Fault Refusal :=
  .next (s.upd (regWrite 0xD180 (v.toNat ||| 2 ^ F.LM_SWP_CTL_GO.lo) a {}))

/-- LM_SWEEP_UNIT. R187. -/
def execLmSweepUnit (s : State) : Host.Outcome State Fault Refusal :=
  .next (s.upd fun _ d => whenLive (sweepUnit) d)

/-- LM_SWEEP_STOP. R187. -/
def execLmSweepStop (v : Word) (a : Acc) (s : State) : Host.Outcome State Fault Refusal :=
  .next (s.upd (regWrite 0xD180 (v.toNat ||| 2 ^ F.LM_SWP_CTL_STOP.lo) a {}))

/-- LM_SWEEP_END. R187. -/
def execLmSweepEnd (s : State) : Host.Outcome State Fault Refusal :=
  .next (s.upd fun _ d => whenLive (Sys2Proof.Machine.lmSweepEnd) d)

end Sys2Proof.Machine
end

