-- ==== Sys2Proof/Machine/RowsRing.lean ====
section
/-!
DEFINITION. Commands: The Dvorlas ring and the fail-safe state (R437–R460). One meaning for each row of the table.
-/

namespace Sys2Proof.Machine

/-- HEARTBEAT_SEND. R442, R451. -/
def execHeartbeatSend (s : State) : Host.Outcome State Fault Refusal :=
  .next (s.upd fun _ d => whenLive (Sys2Proof.Machine.heartbeatSend) d)

/-- HEARTBEAT_RX. R441, R443, R444. -/
def execHeartbeatRx (f : Frame) (fcrc : Nat) (rtt : Nat) (s : State) : Host.Outcome State Fault Refusal :=
  .next (s.upd fun _ d => whenLive (ringRx { f with ty := 1 } fcrc rtt .clean []) d)

/-- EPOCH_RX. R441, R445. -/
def execEpochRx (f : Frame) (fcrc : Nat) (s : State) : Host.Outcome State Fault Refusal :=
  .next (s.upd fun _ d => whenLive (ringRx { f with ty := 2 } fcrc 0 .clean []) d)

/-- JOIN_RX. R441, R447. -/
def execJoinRx (f : Frame) (fcrc : Nat) (s : State) : Host.Outcome State Fault Refusal :=
  .next (s.upd fun _ d => whenLive (ringRx { f with ty := 3 } fcrc 0 .clean []) d)

/-- DRIFT_RX. R441, R448. -/
def execDriftRx (f : Frame) (fcrc : Nat) (s : State) : Host.Outcome State Fault Refusal :=
  .next (s.upd fun _ d => whenLive (ringRx { f with ty := 4 } fcrc 0 .clean []) d)

/-- FRAG_RX. R441, R449; the reading of the accumulator's words, and the words written (R217, R364). -/
def execFragRx (f : Frame) (fcrc : FragIn) (s : State) : Host.Outcome State Fault Refusal :=
  .next (s.upd fun _ d => whenLive (ringRx { f with ty := 5 } fcrc.fcrc 0 fcrc.m fcrc.ws) d)

/-- FRAGACK_RX. R441, R449. -/
def execFragackRx (f : Frame) (fcrc : Nat) (s : State) : Host.Outcome State Fault Refusal :=
  .next (s.upd fun _ d => whenLive (ringRx { f with ty := 6 } fcrc 0 .clean []) d)

/-- HEARTBEAT_LOSS. R445. -/
def execHeartbeatLoss (s : State) : Host.Outcome State Fault Refusal :=
  .next (s.upd fun _ d => whenLive (Sys2Proof.Machine.heartbeatLoss) d)

/-- RING_RETURN_TIMEOUT. R443. -/
def execRingReturnTimeout (late : Bool) (s : State) : Host.Outcome State Fault Refusal :=
  .next (s.upd fun _ d => whenLive (returnTimeout late) d)

/-- DRIFT_SEND. R448. -/
def execDriftSend (s : State) : Host.Outcome State Fault Refusal :=
  .next (s.upd fun _ d => whenLive (Sys2Proof.Machine.driftSend) d)

/-- FRAG_TIMEOUT. R449. -/
def execFragTimeout (n : Fin 64) (s : State) : Host.Outcome State Fault Refusal :=
  .next (s.upd fun _ d => whenLive (Sys2Proof.Machine.fragTimeout n) d)

/-- RG_CTL_WRITE. R440. -/
def execRgCtlWrite (v : Word) (a : Acc) (s : State) : Host.Outcome State Fault Refusal :=
  .next (s.upd (regWrite 0xB000 v.toNat a {}))

/-- RING_LINK_CLOCK_LOSS. R438. -/
def execRingLinkClockLoss (s : State) : Host.Outcome State Fault Refusal :=
  .next (s.upd fun _ d => ringClockLoss d)

/-- RING_LINK_CLOCK_RETURN. R438. -/
def execRingLinkClockReturn (s : State) : Host.Outcome State Fault Refusal :=
  .next (s.upd fun _ d => ringClockReturn d)

/-- FS_CLEARED. R455. -/
def execFsCleared (s : State) : Host.Outcome State Fault Refusal :=
  .next (s.upd fun _ d => Sys2Proof.Machine.fsCleared d)

/-- FS_DIEIDLE. R457. -/
def execFsDieidle (s : State) : Host.Outcome State Fault Refusal :=
  .next (s.upd fun _ d => fsDieIdle d)

/-- FS_EXIT. R459. -/
def execFsExit (a : Acc) (s : State) : Host.Outcome State Fault Refusal :=
  .next (s.upd (regWrite 0x24 1 a {}))

/-- FS_FLUSH. R460. -/
def execFsFlush (a : Acc) (s : State) : Host.Outcome State Fault Refusal :=
  .next (s.upd (regWrite 0x24 2 a {}))

end Sys2Proof.Machine
end

