-- ==== Sys2Proof/Machine/RowsSequencer.lean ====
section
/-!
DEFINITION. Commands: The Sorrel sequencers, microcode patches, Slalom and Lift (R84–R138, R195, R254–R257). One
meaning for each row of the table.
-/

namespace Sys2Proof.Machine

/-- NANOWORD_END. R84, R90, R254; an armed LINKERR strikes first (R473). -/
def execNanowordEnd (c : Fin 32) (n : NanoIn) (s : State) : Host.Outcome State Fault Refusal :=
  .next (s.upd fun _ d => whenLive (fun d => latchAll (Sys2Proof.Machine.nanowordEnd c n (linkInjected c d))) d)

/-- RB_N_RISE. R254. -/
def execRbNRise (c : Fin 32) (g : Fin 2) (busy : ReadyIn) (s : State) : Host.Outcome State Fault Refusal :=
  .next (s.upd fun _ d => latchAll (rbRise c g busy.busy busy.m d))

/-- RB_N_FALL. R260. -/
def execRbNFall (c : Fin 32) (g : Fin 2) (s : State) : Host.Outcome State Fault Refusal :=
  .next (s.upd fun _ d => rbFall c g d)

/-- WAITRDY_RETEST. R254. -/
def execWaitrdyRetest (x : Fin 1024) (status : Nat) (ns : Nat) (busy : ReadyIn) (s : State) : Host.Outcome State Fault Refusal :=
  .next (s.upd fun _ d => whenLive (fun d => latchAll (waitRetest x status ns busy.busy busy.m d)) d)

/-- WAITRDY_TIMEOUT. R255–R257. -/
def execWaitrdyTimeout (x : Fin 1024) (s : State) : Host.Outcome State Fault Refusal :=
  .next (s.upd fun _ d => whenLive (fun d => latchAll (waitTimeout x d)) d)

/-- LINK_CRC_ERROR. R99. -/
def execLinkCrcError (c : Fin 32) (s : State) : Host.Outcome State Fault Refusal :=
  .next (s.upd fun _ d => whenLive (linkError c) d)

/-- RESTART_GAP_END. R93. -/
def execRestartGapEnd (c : Fin 32) (m : Mem) (s : State) : Host.Outcome State Fault Refusal :=
  .next (s.upd fun _ d => whenLive (gapEnd c m) d)

/-- SUSPEND_MINRUN_EXPIRY. R123. -/
def execSuspendMinrunExpiry (c : Fin 32) (id : Nat) (s : State) : Host.Outcome State Fault Refusal :=
  .next (s.upd fun _ d => whenLive (minrunExpiry c id) d)

/-- PAT_LOAD. R106. -/
def execPatLoad (a : Acc) (s : State) : Host.Outcome State Fault Refusal :=
  .next (s.upd (regWrite 0xF000 1 a {}))

/-- PAT_CLEAR. R109. -/
def execPatClear (a : Acc) (s : State) : Host.Outcome State Fault Refusal :=
  .next (s.upd (regWrite 0xF000 2 a {}))

/-- PATCH_DRAIN_END. R106, R109. -/
def execPatchDrainEnd (cl : Fin 4) (s : State) : Host.Outcome State Fault Refusal :=
  .next (s.upd fun _ d => whenLive (patDrainEnd cl) d)

/-- PATCH_READ_END. R107, R426. -/
def execPatchReadEnd (cl : Fin 4) (m : Mem) (s : State) : Host.Outcome State Fault Refusal :=
  .next (s.upd fun fu d => whenLive (Sys2Proof.Machine.patchReadEnd fu cl m) d)

/-- PAT_MINVER_WRITE. R109. -/
def execPatMinverWrite (v : Word) (a : Acc) (s : State) : Host.Outcome State Fault Refusal :=
  .next (s.upd (regWrite 0xF018 v.toNat a {}))

/-- SLALOM_SELECT. R116, R119; whether its request shares the last ones' CCLK cycle, and the readings of the context, of the patch store and of the tenant records. -/
def execSlalomSelect (c : Selection) (m : Mem) (fm : Mem) (tm : Mem) (s : State) : Host.Outcome State Fault Refusal :=
  .next (s.upd fun _ d => whenLive (fun d => Sys2Proof.Machine.slalomSelect c.ch c.same m fm tm (beforeSelect c.ch d)) d)

/-- STAGING_RESERVE. R195. -/
def execStagingReserve (k : Fin 1048576) (s : State) : Host.Outcome State Fault Refusal :=
  .next (s.upd fun _ d => whenLive (Sys2Proof.Machine.stagingReserve k) d)

/-- LIFT_GRANT. R132; the gaps since the last spaced grants, the wait, and the readings of the cell or context, of
the patch store and of the map cache. -/
def execLiftGrant (gapA : Nat) (gapI : Nat) (wait : Nat) (m : Mem) (fm : Mem) (lm : Mem) (s : State) : Host.Outcome State Fault Refusal :=
  .next (s.upd fun _ d => whenLive (fun d => Sys2Proof.Machine.liftGrant gapA gapI wait m fm lm (beforeGrant d)) d)

/-- LIFT_AGE_EXPIRY. R132. -/
def execLiftAgeExpiry (c : Fin 32) (wake : Bool) (s : State) : Host.Outcome State Fault Refusal :=
  .next (s.upd fun _ d => whenLive (liftAge c wake) d)

/-- LIFT_WAKEHOLD_EXPIRY. R131. -/
def execLiftWakeholdExpiry (c : Fin 32) (s : State) : Host.Outcome State Fault Refusal :=
  .next (s.upd fun _ d => whenLive (wakeHoldExpiry c) d)

/-- ARRAY_TOKEN_TIMEOUT. R131. -/
def execArrayTokenTimeout (c : Fin 32) (id : Nat) (s : State) : Host.Outcome State Fault Refusal :=
  .next (s.upd fun _ d => whenLive (fun d => arrayTimeout c id (d.ctx c id).isNone d) d)

/-- LIFT_WAIT_READ. R138. -/
def execLiftWaitRead (a : Acc) (s : State) : Host.Outcome State Fault Refusal :=
  .next (s.upd fun _ d => portRead 0x983C a .clean d)

end Sys2Proof.Machine
end

