-- ==== Sys2Proof/Machine/RowsTest.lean ====
section
/-!
DEFINITION. Commands: Loopback, injection, the test wrapper and the plain register port (R465–R489). One meaning for
each row of the table.
-/

namespace Sys2Proof.Machine

/-- TST_LB_DEPTH. R466, R467. -/
def execTstLbDepth (v : Word) (a : Acc) (bytes : Nat) (bits : Nat) (s : State) : Host.Outcome State Fault Refusal :=
  .next (s.upd (regWrite 0xC100 v.toNat a { bytes := bytes, bits := bits }))

/-- TST_LB_RUN. R468; what the checker has counted when RUN ends. -/
def execTstLbRun (v : Word) (a : Acc) (bytes : Nat) (bits : Nat) (s : State) : Host.Outcome State Fault Refusal :=
  .next (s.upd (regWrite 0xC100 v.toNat a { bytes := bytes, bits := bits }))

/-- TST_RINGLB_EN. R469. -/
def execTstRinglbEn (v : Word) (a : Acc) (s : State) : Host.Outcome State Fault Refusal :=
  .next (s.upd (regWrite 0xC004 v.toNat a {}))

/-- ECHO_HANG. R471. -/
def execEchoHang (v : Word) (a : Acc) (s : State) : Host.Outcome State Fault Refusal :=
  .next (s.upd (regWrite 0xC114 (v.toNat ||| 2 ^ F.TST_ECHOINJ_HANG.lo) a {}))

/-- ECHO_BUSY_END. R470, R471. -/
def execEchoBusyEnded (x : Fin 1024) (busy : ReadyIn) (s : State) : Host.Outcome State Fault Refusal :=
  .next (s.upd fun _ d => echoBusyEnd x busy.busy busy.m d)

/-- TST_INJ_ARM. R473. -/
def execTstInjArm (v : Word) (a : Acc) (s : State) : Host.Outcome State Fault Refusal :=
  .next (s.upd (regWrite 0xC200 (v.toNat ||| 2 ^ F.TST_INJ_ARM.lo) a {}))

/-- TST_INJ_LINKERR. R473. -/
def execTstInjLinkerr (v : Word) (a : Acc) (s : State) : Host.Outcome State Fault Refusal :=
  .next (s.upd (regWrite 0xC200 (v.toNat ||| 2 ^ F.TST_INJ_LINKERR.lo) a {}))

/-- WS_BYPASS. R474. -/
def execWsBypass (bits : List Bool) (s : State) : Host.Outcome State Fault Refusal :=
  .next (s.upd fun _ d => Sys2Proof.Machine.wsBypass bits d)

/-- WS_EXTEST. R474. -/
def execWsExtest (bits : List Bool) (cap : List Bool) (s : State) : Host.Outcome State Fault Refusal :=
  .next (s.upd fun _ d => wsBoundary .extest bits cap d)

/-- WS_INTEST. R474. -/
def execWsIntest (bits : List Bool) (cap : List Bool) (s : State) : Host.Outcome State Fault Refusal :=
  .next (s.upd fun _ d => wsBoundary .intest bits cap d)

/-- SCAN. R474. -/
def execScan (bits : List Bool) (s : State) : Host.Outcome State Fault Refusal :=
  .next (s.upd fun _ d => wsScan bits d)

/-- MBIST. R475. -/
def execMbist (res : List (Bool × List Nat)) (s : State) : Host.Outcome State Fault Refusal :=
  .next (s.upd fun _ d => wsMbist res d)

/-- FUSERD. R474. -/
def execFuserd (s : State) : Host.Outcome State Fault Refusal :=
  .next (s.upd fun _ d => wsFuserd d)

/-- FUSEPGM. R476. -/
def execFusepgm (items : List Fuse) (s : State) : Host.Outcome State Fault Refusal :=
  .next (s.updF fun fu d => (if d.tst.testMode then burnAll items fu else fu, wsFusepgm d))

/-- OBSERVE. R474. -/
def execObserve (off : Nat) (lo : Nat) (inst : Nat) (s : State) : Host.Outcome State Fault Refusal :=
  .next (s.upd fun _ d => wsObserve off lo inst d)

/-- DEPOSIT. R474. -/
def execDeposit (off : Nat) (lo : Nat) (inst : Nat) (val : Nat) (s : State) : Host.Outcome State Fault Refusal :=
  .next (s.upd fun _ d => wsDeposit off lo inst val d)

/-- REGISTER_WRITE. R482. -/
def execRegisterWrite (off : Nat) (v : Word) (a : Acc) (e : PortEnv) (s : State) : Host.Outcome State Fault Refusal :=
  .next (s.updF (portWrite off v.toNat a e))

/-- REGISTER_READ. R480, R481, R483. -/
def execRegisterRead (off : Nat) (a : Acc) (m : Mem) (s : State) : Host.Outcome State Fault Refusal :=
  .next (s.upd fun _ d => portRead off a m d)

end Sys2Proof.Machine
end

