-- ==== Sys2Proof/Machine/RowsWrite.lean ====
section
/-!
DEFINITION. Commands: Hold slots, the parity accumulators and Traverse (R205–R217, R228–R239). One meaning for each
row of the table.
-/

namespace Sys2Proof.Machine

/-- WR_HOLDREL. R205. -/
def execWrHoldrel (v : Word) (a : Acc) (s : State) : Host.Outcome State Fault Refusal :=
  .next (s.upd (regWrite 0x1318 v.toNat a {}))

/-- ACC_OPEN. R210. -/
def execAccOpen (a : Acc) (s : State) : Host.Outcome State Fault Refusal :=
  .next (s.upd (regWrite 0xE210 1 a {}))

/-- ACC_FORCE. R214. -/
def execAccForce (a : Acc) (s : State) : Host.Outcome State Fault Refusal :=
  .next (s.upd (regWrite 0xE210 2 a {}))

/-- ACC_ABORT. R210. -/
def execAccAbort (a : Acc) (s : State) : Host.Outcome State Fault Refusal :=
  .next (s.upd (regWrite 0xE210 3 a {}))

/-- ACC_SPILL. R215. -/
def execAccSpill (a : Acc) (s : State) : Host.Outcome State Fault Refusal :=
  .next (s.upd (regWrite 0xE210 4 a {}))

/-- ACC_RESTORE. R215. -/
def execAccRestore (a : Acc) (s : State) : Host.Outcome State Fault Refusal :=
  .next (s.upd (regWrite 0xE210 5 a {}))

/-- ACC_RELEASE. R210. -/
def execAccRelease (a : Acc) (s : State) : Host.Outcome State Fault Refusal :=
  .next (s.upd (regWrite 0xE210 6 a {}))

/-- ACC_TAKE_END. R212, R217. -/
def execAccTakeEnd (n : Fin 64) (member : Nat) (m : MemUse) (s : State) : Host.Outcome State Fault Refusal :=
  .next (s.upd fun _ d => whenLive (Sys2Proof.Machine.accTakeEnd n member m.m m.ws) d)

/-- ACC_EMIT_END. R214, R217. -/
def execAccEmitEnd (n : Fin 64) (m : Mem) (s : State) : Host.Outcome State Fault Refusal :=
  .next (s.upd fun _ d => whenLive (Sys2Proof.Machine.accEmitEnd n m) d)

/-- ACC_MOVE_END. R215. -/
def execAccMoveEnd (n : Fin 64) (m : Mem) (s : State) : Host.Outcome State Fault Refusal :=
  .next (s.upd fun _ d => whenLive (Sys2Proof.Machine.accMoveEnd n m) d)

/-- TRAVERSE_STREAM_TAKE. R228. -/
def execTraverseStreamTake (k : Fin 1048576) (s : State) : Host.Outcome State Fault Refusal :=
  .next (s.upd fun _ d => whenLive (fun d => streamTake k (commitPoint 1 (dixCl (d.cell k).dix) 0 d)) d)

/-- BITMAP_READ_RETURN. R230. -/
def execBitmapReadReturn (k : Fin 1048576) (s : State) : Host.Outcome State Fault Refusal :=
  .next (s.upd fun _ d => whenLive (bitmapReturn k) d)

/-- COPY_ENCODE_END. R234. -/
def execCopyEncodeEnd (k : Fin 1048576) (s : State) : Host.Outcome State Fault Refusal :=
  .next (s.upd fun _ d => whenLive (fun d => latchAll (copyServed k d)) d)

/-- BITMAP_RECHECK_RETURN. R234. -/
def execBitmapRecheckReturn (k : Fin 1048576) (s : State) : Host.Outcome State Fault Refusal :=
  .next (s.upd fun _ d => whenLive (fun d => latchAll (recheckReturn k d)) d)

end Sys2Proof.Machine
end

