-- ==== Sys2Proof/Machine/Dispatch.lean ====
section
/-!
DEFINITION. The dispatch of the commands: one arm for each constructor of `Instr`.
-/

namespace Sys2Proof.Machine

def exec (i : Instr) (s : State) : Host.Outcome State Fault Refusal :=
  match i with
  | .clockLoss k => Sys2Proof.Machine.execClockLoss k s
  | .aonclkWatch => Sys2Proof.Machine.execAonclkWatch s
  | .sqDoorbell k v a => Sys2Proof.Machine.execSqDoorbell k v a s
  | .sqEnable k v a => Sys2Proof.Machine.execSqEnable k v a s
  | .ticketFetch => Sys2Proof.Machine.execTicketFetch s
  | .ticketAdmit m8 m10 => Sys2Proof.Machine.execTicketAdmit m8 m10 s
  | .tktGo a => Sys2Proof.Machine.execTktGo a s
  | .admEnable v a => Sys2Proof.Machine.execAdmEnable v a s
  | .pfmArm => Sys2Proof.Machine.execPfmArm s
  | .pfmRegionReadEnd => Sys2Proof.Machine.execPfmRegionReadEnd s
  | .thlBaseWrite hi v a => Sys2Proof.Machine.execThlBaseWrite hi v a s
  | .cellWritebackResponse k => Sys2Proof.Machine.execCellWritebackResponse k s
  | .cellFetchReturn k => Sys2Proof.Machine.execCellFetchReturn k s
  | .thlSweepStart v a => Sys2Proof.Machine.execThlSweepStart v a s
  | .thlSweepEnd => Sys2Proof.Machine.execThlSweepEnd s
  | .cqEnable j v a => Sys2Proof.Machine.execCqEnable j v a s
  | .cqHeadWrite j v a => Sys2Proof.Machine.execCqHeadWrite j v a s
  | .completionRecordWrite r lat => Sys2Proof.Machine.execCompletionRecordWrite r lat s
  | .completionWriteResponse j => Sys2Proof.Machine.execCompletionWriteResponse j s
  | .tqPop q a m => Sys2Proof.Machine.execTqPop q a m s
  | .pfailNFall => Sys2Proof.Machine.execPfailNFall s
  | .powerFailRecognised => Sys2Proof.Machine.execPowerFailRecognised s
  | .pfmWaitExpiry => Sys2Proof.Machine.execPfmWaitExpiry s
  | .manifestWrite lat => Sys2Proof.Machine.execManifestWrite lat s
  | .manifestHeaderWrite span => Sys2Proof.Machine.execManifestHeaderWrite span s
  | .nanowordEnd c n => Sys2Proof.Machine.execNanowordEnd c n s
  | .rbNRise c g busy => Sys2Proof.Machine.execRbNRise c g busy s
  | .waitrdyRetest x status ns busy => Sys2Proof.Machine.execWaitrdyRetest x status ns busy s
  | .waitrdyTimeout x => Sys2Proof.Machine.execWaitrdyTimeout x s
  | .linkCrcError c => Sys2Proof.Machine.execLinkCrcError c s
  | .restartGapEnd c m => Sys2Proof.Machine.execRestartGapEnd c m s
  | .patLoad a => Sys2Proof.Machine.execPatLoad a s
  | .patClear a => Sys2Proof.Machine.execPatClear a s
  | .patchDrainEnd cl => Sys2Proof.Machine.execPatchDrainEnd cl s
  | .patchReadEnd cl m => Sys2Proof.Machine.execPatchReadEnd cl m s
  | .patMinverWrite v a => Sys2Proof.Machine.execPatMinverWrite v a s
  | .slalomSelect c m fm tm => Sys2Proof.Machine.execSlalomSelect c m fm tm s
  | .stagingReserve k => Sys2Proof.Machine.execStagingReserve k s
  | .liftGrant gapA gapI wait m fm lm => Sys2Proof.Machine.execLiftGrant gapA gapI wait m fm lm s
  | .liftAgeExpiry c wake => Sys2Proof.Machine.execLiftAgeExpiry c wake s
  | .liftWakeholdExpiry c => Sys2Proof.Machine.execLiftWakeholdExpiry c s
  | .arrayTokenTimeout c id => Sys2Proof.Machine.execArrayTokenTimeout c id s
  | .liftWaitRead a => Sys2Proof.Machine.execLiftWaitRead a s
  | .stagedCodewordDispatch cl m => Sys2Proof.Machine.execStagedCodewordDispatch cl m s
  | .hardDecodeEnd cl n f m => Sys2Proof.Machine.execHardDecodeEnd cl n f m s
  | .softDecoderGrant => Sys2Proof.Machine.execSoftDecoderGrant s
  | .softDecodeEnd n f m => Sys2Proof.Machine.execSoftDecodeEnd n f m s
  | .lmLineFetchReturn line => Sys2Proof.Machine.execLmLineFetchReturn line s
  | .trackerResult cl m => Sys2Proof.Machine.execTrackerResult cl m s
  | .lmLineWriteResponse line => Sys2Proof.Machine.execLmLineWriteResponse line s
  | .lmCtlWrite v a => Sys2Proof.Machine.execLmCtlWrite v a s
  | .lmCacheInvalidate => Sys2Proof.Machine.execLmCacheInvalidate s
  | .lmSeedGo v a => Sys2Proof.Machine.execLmSeedGo v a s
  | .lmSeedEnd => Sys2Proof.Machine.execLmSeedEnd s
  | .lmSweepGo v a => Sys2Proof.Machine.execLmSweepGo v a s
  | .lmSweepUnit => Sys2Proof.Machine.execLmSweepUnit s
  | .lmSweepStop v a => Sys2Proof.Machine.execLmSweepStop v a s
  | .lmSweepEnd => Sys2Proof.Machine.execLmSweepEnd s
  | .wrHoldrel v a => Sys2Proof.Machine.execWrHoldrel v a s
  | .accOpen a => Sys2Proof.Machine.execAccOpen a s
  | .accForce a => Sys2Proof.Machine.execAccForce a s
  | .accAbort a => Sys2Proof.Machine.execAccAbort a s
  | .accSpill a => Sys2Proof.Machine.execAccSpill a s
  | .accRestore a => Sys2Proof.Machine.execAccRestore a s
  | .accRelease a => Sys2Proof.Machine.execAccRelease a s
  | .accTakeEnd n member m => Sys2Proof.Machine.execAccTakeEnd n member m s
  | .accEmitEnd n m => Sys2Proof.Machine.execAccEmitEnd n m s
  | .accMoveEnd n m => Sys2Proof.Machine.execAccMoveEnd n m s
  | .traverseStreamTake k => Sys2Proof.Machine.execTraverseStreamTake k s
  | .bitmapReadReturn k => Sys2Proof.Machine.execBitmapReadReturn k s
  | .copyEncodeEnd k => Sys2Proof.Machine.execCopyEncodeEnd k s
  | .bitmapRecheckReturn k => Sys2Proof.Machine.execBitmapRecheckReturn k s
  | .chEnumGo v a => Sys2Proof.Machine.execChEnumGo v a s
  | .recoveryPoll x status ns => Sys2Proof.Machine.execRecoveryPoll x status ns s
  | .recoveryTimeout x => Sys2Proof.Machine.execRecoveryTimeout x s
  | .dieFence a => Sys2Proof.Machine.execDieFence a s
  | .dieAdmit a => Sys2Proof.Machine.execDieAdmit a s
  | .dieToclr a => Sys2Proof.Machine.execDieToclr a s
  | .rbFallbackEntry c g => Sys2Proof.Machine.execRbFallbackEntry c g s
  | .rbFallbackQuiet c g => Sys2Proof.Machine.execRbFallbackQuiet c g s
  | .chRbExit v a => Sys2Proof.Machine.execChRbExit v a s
  | .pzqGo a => Sys2Proof.Machine.execPzqGo a s
  | .pzqSearchEnd cl pu pd => Sys2Proof.Machine.execPzqSearchEnd cl pu pd s
  | .pzqBackoffEnd cl => Sys2Proof.Machine.execPzqBackoffEnd cl s
  | .calGo a => Sys2Proof.Machine.execCalGo a s
  | .calForce a => Sys2Proof.Machine.execCalForce a s
  | .calRetry a => Sys2Proof.Machine.execCalRetry a s
  | .calPolWrite v a => Sys2Proof.Machine.execCalPolWrite v a s
  | .calPeriodExpiry c => Sys2Proof.Machine.execCalPeriodExpiry c s
  | .calGapTimeout c => Sys2Proof.Machine.execCalGapTimeout c s
  | .calForceTimeout c => Sys2Proof.Machine.execCalForceTimeout c s
  | .calBackoffEnd c => Sys2Proof.Machine.execCalBackoffEnd c s
  | .glideTimer c => Sys2Proof.Machine.execGlideTimer c s
  | .fabricReadData p tag bytes last resp => Sys2Proof.Machine.execFabricReadData p tag bytes last resp s
  | .fabricWriteResponse p tag resp => Sys2Proof.Machine.execFabricWriteResponse p tag resp s
  | .fabricTimeout p write tag => Sys2Proof.Machine.execFabricTimeout p write tag s
  | .fpUnquar a => Sys2Proof.Machine.execFpUnquar a s
  | .fabricRequestGrant p write tag => Sys2Proof.Machine.execFabricRequestGrant p write tag s
  | .dmaStart c a => Sys2Proof.Machine.execDmaStart c a s
  | .dmaStop c a => Sys2Proof.Machine.execDmaStop c a s
  | .dmaClr c a => Sys2Proof.Machine.execDmaClr c a s
  | .dmaBurstIssue m => Sys2Proof.Machine.execDmaBurstIssue m s
  | .intPresent ack => Sys2Proof.Machine.execIntPresent ack s
  | .vectorAccept t => Sys2Proof.Machine.execVectorAccept t s
  | .intClaim t a => Sys2Proof.Machine.execIntClaim t a s
  | .intComplete t v a => Sys2Proof.Machine.execIntComplete t v a s
  | .intPendWrite n v a => Sys2Proof.Machine.execIntPendWrite n v a s
  | .intGctlWrite v a ack => Sys2Proof.Machine.execIntGctlWrite v a ack s
  | .modHoldoffExpiry g => Sys2Proof.Machine.execModHoldoffExpiry g s
  | .tgtIdleChange t up => Sys2Proof.Machine.execTgtIdleChange t up s
  | .sporeDeliver => Sys2Proof.Machine.execSporeDeliver s
  | .lutFire t => Sys2Proof.Machine.execLutFire t s
  | .spiInEdge n => Sys2Proof.Machine.execSpiInEdge n s
  | .safeInEdge n up => Sys2Proof.Machine.execSafeInEdge n up s
  | .sprSwtrig v a => Sys2Proof.Machine.execSprSwtrig v a s
  | .sprChWrite c v a => Sys2Proof.Machine.execSprChWrite c v a s
  | .sprLutWrite t v a => Sys2Proof.Machine.execSprLutWrite t v a s
  | .loopWindowEnd => Sys2Proof.Machine.execLoopWindowEnd s
  | .ledgerSwap => Sys2Proof.Machine.execLedgerSwap s
  | .lgSnap v a => Sys2Proof.Machine.execLgSnap v a s
  | .ledgerExportEnd => Sys2Proof.Machine.execLedgerExportEnd s
  | .capIntervalBoundary => Sys2Proof.Machine.execCapIntervalBoundary s
  | .lgTimeWrite v a => Sys2Proof.Machine.execLgTimeWrite v a s
  | .scrubRead r m diff ctl => Sys2Proof.Machine.execScrubRead r m diff ctl s
  | .lapAlarm => Sys2Proof.Machine.execLapAlarm s
  | .mpFillGo v a => Sys2Proof.Machine.execMpFillGo v a s
  | .mpFillEnd => Sys2Proof.Machine.execMpFillEnd s
  | .mpLogpop a => Sys2Proof.Machine.execMpLogpop a s
  | .mpUelogRearm a => Sys2Proof.Machine.execMpUelogRearm a s
  | .sensorReading rs => Sys2Proof.Machine.execSensorReading rs s
  | .thermalLogProgrammed ok => Sys2Proof.Machine.execThermalLogProgrammed ok s
  | .thermalTripTimeout => Sys2Proof.Machine.execThermalTripTimeout s
  | .thReinst hi v a => Sys2Proof.Machine.execThReinst hi v a s
  | .thPolWrite v a => Sys2Proof.Machine.execThPolWrite v a s
  | .phyIdleSleep c => Sys2Proof.Machine.execPhyIdleSleep c s
  | .phyWakeDone c => Sys2Proof.Machine.execPhyWakeDone c s
  | .pmNapRequest a => Sys2Proof.Machine.execPmNapRequest a s
  | .pmHibernateRequest a => Sys2Proof.Machine.execPmHibernateRequest a s
  | .pmCancel a => Sys2Proof.Machine.execPmCancel a s
  | .powerStateEntry => Sys2Proof.Machine.execPowerStateEntry s
  | .pmEntryTimeout => Sys2Proof.Machine.execPmEntryTimeout s
  | .wakeInEdge => Sys2Proof.Machine.execWakeInEdge s
  | .wakeCompleted us loss => Sys2Proof.Machine.execWakeCompleted us loss s
  | .supplyWarning => Sys2Proof.Machine.execSupplyWarning s
  | .porstNAssert => Sys2Proof.Machine.execPorstNAssert s
  | .srstNAssert => Sys2Proof.Machine.execSrstNAssert s
  | .resetReleased e => Sys2Proof.Machine.execResetReleased e s
  | .bootPfailWaitEnd e => Sys2Proof.Machine.execBootPfailWaitEnd e s
  | .bootEnumEnded ms => Sys2Proof.Machine.execBootEnumEnded ms s
  | .thermalLogEraseEnd => Sys2Proof.Machine.execThermalLogEraseEnd s
  | .commit v a => Sys2Proof.Machine.execCommit v a s
  | .commitApplied g n part => Sys2Proof.Machine.execCommitApplied g n part s
  | .updOpen v a => Sys2Proof.Machine.execUpdOpen v a s
  | .updEraseEnd ok => Sys2Proof.Machine.execUpdEraseEnd ok s
  | .updData v a => Sys2Proof.Machine.execUpdData v a s
  | .updOffWrite v a => Sys2Proof.Machine.execUpdOffWrite v a s
  | .updFlush v a => Sys2Proof.Machine.execUpdFlush v a s
  | .intakeProgramEnd ok => Sys2Proof.Machine.execIntakeProgramEnd ok s
  | .updVerify v a => Sys2Proof.Machine.execUpdVerify v a s
  | .updVerifyEnd => Sys2Proof.Machine.execUpdVerifyEnd s
  | .updAbort v a => Sys2Proof.Machine.execUpdAbort v a s
  | .scImageActivate a ck => Sys2Proof.Machine.execScImageActivate a ck s
  | .scImageConfirm a ck => Sys2Proof.Machine.execScImageConfirm a ck s
  | .scRecoveryEntry a ck => Sys2Proof.Machine.execScRecoveryEntry a ck s
  | .scSanitise a ck => Sys2Proof.Machine.execScSanitise a ck s
  | .sanitiseEnd => Sys2Proof.Machine.execSanitiseEnd s
  | .scFuseProgram a ck => Sys2Proof.Machine.execScFuseProgram a ck s
  | .scKeyRotation a ck => Sys2Proof.Machine.execScKeyRotation a ck s
  | .scTenantLedgerReset a ck => Sys2Proof.Machine.execScTenantLedgerReset a ck s
  | .scThermalOverride a ck => Sys2Proof.Machine.execScThermalOverride a ck s
  | .scDieUnfence a ck => Sys2Proof.Machine.execScDieUnfence a ck s
  | .scRingRejoin a ck => Sys2Proof.Machine.execScRingRejoin a ck s
  | .scDebugUnlock a ck => Sys2Proof.Machine.execScDebugUnlock a ck s
  | .scLockoutEnd => Sys2Proof.Machine.execScLockoutEnd s
  | .heartbeatSend => Sys2Proof.Machine.execHeartbeatSend s
  | .heartbeatRx f fcrc rtt => Sys2Proof.Machine.execHeartbeatRx f fcrc rtt s
  | .epochRx f fcrc => Sys2Proof.Machine.execEpochRx f fcrc s
  | .joinRx f fcrc => Sys2Proof.Machine.execJoinRx f fcrc s
  | .driftRx f fcrc => Sys2Proof.Machine.execDriftRx f fcrc s
  | .fragRx f fcrc => Sys2Proof.Machine.execFragRx f fcrc s
  | .fragackRx f fcrc => Sys2Proof.Machine.execFragackRx f fcrc s
  | .heartbeatLoss => Sys2Proof.Machine.execHeartbeatLoss s
  | .ringReturnTimeout late => Sys2Proof.Machine.execRingReturnTimeout late s
  | .driftSend => Sys2Proof.Machine.execDriftSend s
  | .fragTimeout n => Sys2Proof.Machine.execFragTimeout n s
  | .rgCtlWrite v a => Sys2Proof.Machine.execRgCtlWrite v a s
  | .fsCleared => Sys2Proof.Machine.execFsCleared s
  | .fsDieidle => Sys2Proof.Machine.execFsDieidle s
  | .fsExit a => Sys2Proof.Machine.execFsExit a s
  | .fsFlush a => Sys2Proof.Machine.execFsFlush a s
  | .tstLbDepth v a bytes bits => Sys2Proof.Machine.execTstLbDepth v a bytes bits s
  | .tstLbRun v a bytes bits => Sys2Proof.Machine.execTstLbRun v a bytes bits s
  | .tstRinglbEn v a => Sys2Proof.Machine.execTstRinglbEn v a s
  | .echoHang v a => Sys2Proof.Machine.execEchoHang v a s
  | .tstInjArm v a => Sys2Proof.Machine.execTstInjArm v a s
  | .tstInjLinkerr v a => Sys2Proof.Machine.execTstInjLinkerr v a s
  | .wsBypass bits => Sys2Proof.Machine.execWsBypass bits s
  | .wsExtest bits cap => Sys2Proof.Machine.execWsExtest bits cap s
  | .wsIntest bits cap => Sys2Proof.Machine.execWsIntest bits cap s
  | .scan bits => Sys2Proof.Machine.execScan bits s
  | .mbist res => Sys2Proof.Machine.execMbist res s
  | .fuserd => Sys2Proof.Machine.execFuserd s
  | .fusepgm items => Sys2Proof.Machine.execFusepgm items s
  | .observe off lo inst => Sys2Proof.Machine.execObserve off lo inst s
  | .deposit off lo inst val => Sys2Proof.Machine.execDeposit off lo inst val s
  | .registerWrite off v a e => Sys2Proof.Machine.execRegisterWrite off v a e s
  | .registerRead off a m => Sys2Proof.Machine.execRegisterRead off a m s
  | .rbNFall c g => Sys2Proof.Machine.execRbNFall c g s
  | .ringLinkClockLoss => Sys2Proof.Machine.execRingLinkClockLoss s
  | .ringLinkClockReturn => Sys2Proof.Machine.execRingLinkClockReturn s
  | .cfgclkReturn => Sys2Proof.Machine.execCfgclkReturn s
  | .echoBusyEnded x busy => Sys2Proof.Machine.execEchoBusyEnded x busy s
  | .sealedCommandEnd => Sys2Proof.Machine.execSealedCommandEnd s
  | .suspendMinrunExpiry c id => Sys2Proof.Machine.execSuspendMinrunExpiry c id s

end Sys2Proof.Machine
end

