-- ==== Sys2Proof/Machine/Tick.lean ====
section
/-!
DEFINITION. One cycle of AONCLK, 1 µs at 1.000 MHz: what counts by itself while no command waits.
-/

namespace Sys2Proof.Machine

/-- LG_TIME counts, or waits for the master it is ahead of (R347, R444). -/
def tickTime (d : Dev) : Dev :=
  if d.ring.hold ≠ 0 then { d with ring := { d.ring with hold := d.ring.hold - 1 } }
  else setTime ((d.time + 1) % 2 ^ 64) d

/-- The holdoff times of the moderation groups count down (R323). At 0 MOD_HOLDOFF_EXPIRY is due. -/
def tickMod (d : Dev) : Dev :=
  Dev.each (List.range 32) (fun g d => if d.on (F.MOD_STAT_HOLDOFF.ix g) then d.decr (F.MOD_STAT_REMAIN.ix g) else d) d

/-- MP_LAP.CUR counts units of 100 µs (R367). -/
def tickLap (d : Dev) : Dev :=
  if 99 ≤ d.mp.lapUs then { d with mp := { d.mp with lapUs := 0 } }.inc F.MP_LAP_CUR
  else { d with mp := { d.mp with lapUs := d.mp.lapUs + 1 } }

/-- One cycle of AONCLK; without it the ring link still runs on RL_CLK (R437, R450). -/
def aonTick (d : Dev) : Dev :=
  if !d.pins.porstN then d
  else if d.pins.aonLost then whenLive linkSend d
  else
    let d := tickTime d
    whenLive (fun d => linkSend (tickLap (tickMod d))) d

end Sys2Proof.Machine
end

