-- ==== Sys2Proof/Machine/Step.lean ====
section
/-!
DEFINITION. The step: the command at the front of the queue, or one cycle of AONCLK when none waits.
-/

namespace Sys2Proof.Machine

/-- One step (assumption 1: with no command waiting, AONCLK ticks). -/
def step (s : State) : Host.Outcome State Fault Refusal :=
  match s.pending with
  | [] => .next (s.upd fun _ d => aonTick d)
  | c :: r => exec c { s with pending := r }

/-- Put the command a word spells at the front of the queue; no word spells one. -/
def State.withFetchWord (s : State) (nbits w : Nat) : State :=
  match decodeTableWord nbits w with
  | some c => { s with pending := c :: s.pending }
  | none => s

end Sys2Proof.Machine
end

