-- ==== Sys2Proof/Safety.lean ====
section
/-!
DEFINITION. The words claims use: what a command leaves alone, when the register port serves an access, and what no command
takes back.
-/

namespace Sys2Proof.Machine

/-- The machine with its block at `d`: the fuses and the waiting commands as they were. -/
def State.withDev (s : State) (d : Dev) : State := { s with dev := d }

/-- From `d` to `d'` nothing changes but register fields whose keys `ks` lists. -/
def Dev.sameBut (ks : List Nat) (d d' : Dev) : Prop :=
  { d' with regs := d.regs } = d ∧ ∀ k, k ∉ ks → look d'.regs k = look d.regs k

/-- From `s` to `t` nothing changes but register fields whose keys `ks` lists: not a queue, memory, pin or fuse, and not the
waiting commands. -/
def State.onlyRegs (ks : List Nat) (s t : State) : Prop :=
  t.fuse = s.fuse ∧ t.pending = s.pending ∧ s.dev.sameBut ks t.dev

/-- From `d` to `d'` no register field outside these offset ranges changes, in any instance. -/
def Dev.onlyAt (rs : List (Nat × Nat)) (d d' : Dev) : Prop :=
  ∀ k, (∀ r ∈ rs, ¬ (r.1 ≤ keyOff k ∧ keyOff k ≤ r.2)) → look d'.regs k = look d.regs k

/-- The register port serves an access to any register (R401, R480, R489): out of reset, CFGCLK and CCLK running, not in
test mode, and the boot ended. -/
def Dev.portReady (d : Dev) : Bool :=
  !d.inReset && !d.pm.hib && !d.tst.testMode && !d.pins.cfgLost && d.rd F.PM_STAT_STATE < 3 && d.rd F.BOOT_STAT_PHASE == 7

/-- The block after an access the port has completed with read data `v` (R479). -/
def Dev.acked (d : Dev) (v : Nat) : Dev := { d with port := { d.port with rdata := v, ack := true } }

/-- The port takes an access to the register at `o` for the one instance it names: the port is ready, the window is not
closed to it (R484), and the select in force does not broadcast (R485, R486). -/
def Dev.takes (d : Dev) (o : Nat) (a : Acc) : Bool :=
  d.portReady && !masked o a d && !selBcast d a.dom.val (selOf o)

/-- The instance such an access names (R485, R487). -/
def Dev.named (d : Dev) (o : Nat) (a : Acc) : Nat := selIndex d a.dom.val (selOf o)

/-- The block with the write error of a write by `a` to the register at `o`, instance `idx`, dropped with a cause (R488): the
window's bit of REG_WERR, the count in REG_WCNT and the write's place in REG_WLAST. -/
def Dev.writeError (d : Dev) (o : Nat) (a : Acc) (idx cause : Nat) : Dev :=
  (((((((d.wr F.REG_WERR_WIN (setBit (d.rd F.REG_WERR_WIN) (o / 4096))).wr F.REG_WCNT_CNT (satAdd 16 (d.rd F.REG_WCNT_CNT) 1)).wr
    F.REG_WCNT_INDEX idx).wr F.REG_WLAST_OFFSET (o / 4)).wr F.REG_WLAST_DOM a.dom.val).wr F.REG_WLAST_CAUSE cause).wr
    F.REG_WLAST_BCAST 0)

/-- No thermal halt is in force and no context's die is fenced: after a decode, nothing ends for either (R163, R259, R381). -/
def Dev.unswept (d : Dev) : Bool :=
  !d.on F.TH_STAT_HALT && (List.range 32).all fun c => (d.chn c).ctxs.all fun p => !dieFenced d p.2.dix

/-- No command takes back what a fuse holds (R432, R476): the lock and the used index counts only rise, and repair entries
are only appended. -/
def Fuses.keeps (a b : Fuses) : Prop :=
  (a.lock = true → b.lock = true) ∧ a.hidx ≤ b.hidx ∧ a.sidx ≤ b.sidx ∧ a.repairs <+: b.repairs

/-- The commands that may blow a fuse: FUSEPGM, and whatever writes SC_GO (R371, R432, R476). WAKE_COMPLETE completes the
writes held through the wake. -/
def mayBurn : Instr → Bool
  | .fusepgm _ | .registerWrite _ _ _ _ | .wakeCompleted _ _ => true
  | .scImageActivate _ _ | .scImageConfirm _ _ | .scRecoveryEntry _ _ | .scSanitise _ _ | .scFuseProgram _ _
  | .scKeyRotation _ _ | .scTenantLedgerReset _ _ | .scThermalOverride _ _ | .scDieUnfence _ _ | .scRingRejoin _ _
  | .scDebugUnlock _ _ => true
  | _ => false

/-- The configuration NOR's canonical form (R405): addresses strictly rising, and no byte listed that an unlisted address
reads as. -/
def Memory.wf (m : Tbl Byte) : Bool := Tbl.sorted m && m.all (fun p => p.2 != 0xFF)

/-- The used indices name keys that exist, and the repair entries fit their fuses (R371, R416). -/
def Fuses.ok (f : Fuses) : Prop := f.hidx ≤ 3 ∧ f.sidx ≤ 3 ∧ f.repairs.length ≤ 256

end Sys2Proof.Machine
end

