-- ==== Sys2Proof/Certificates/Slice0/Obligations.lean ====
section
/-!
DEFINITION. The statements for the provers. Each says what a command, or the block, does; the conclusion of a command's
statement is that `exec` answers a next state, with every part of the machine it does not name as it was
(`State.withDev` keeps the fuses and the waiting commands).
-/

open Sys2Proof Sys2Proof.Machine

/-- Submission-ring registers: doorbell and enable. SQ_DOORBELL of an enabled ring sets TAIL to a value inside the ring
and drops one outside with write error cause 2; on a disabled ring it is ignored. SQ_ENABLE takes the fields of
SQk_CFG and sets TAIL and HEAD to 0. Nothing else changes. (R44, R45) Commands said to answer a next state:
sqDoorbell, sqEnable. -/
def Obligations.SubmissionRingRegisters : Prop :=
  -- A TAIL inside the ring is taken.
  (∀ (s : State) (k : Fin 64) (v : Word) (a : Acc),
    s.dev.takes (0xE40C + 0x10 * k.val) a = true →
    s.dev.on (F.SQ_CFG_EN.ix k) = true →
    v.toNat % 2 ^ 16 < 2 ^ s.dev.rd (F.SQ_CFG_SIZE.ix k) →
    exec (.sqDoorbell k v a) s = .next (s.withDev ((s.dev.wr (F.SQ_DB_TAIL.ix k) v.toNat).acked 0))) ∧
  -- A TAIL outside it is a write error.
  (∀ (s : State) (k : Fin 64) (v : Word) (a : Acc),
    s.dev.takes (0xE40C + 0x10 * k.val) a = true →
    s.dev.on (F.SQ_CFG_EN.ix k) = true →
    2 ^ s.dev.rd (F.SQ_CFG_SIZE.ix k) ≤ v.toNat % 2 ^ 16 →
    exec (.sqDoorbell k v a) s = .next (s.withDev ((s.dev.writeError (0xE40C + 0x10 * k.val) a 0 2).acked 0))) ∧
  -- A disabled ring ignores its doorbell.
  (∀ (s : State) (k : Fin 64) (v : Word) (a : Acc),
    s.dev.takes (0xE40C + 0x10 * k.val) a = true →
    s.dev.on (F.SQ_CFG_EN.ix k) = false →
    exec (.sqDoorbell k v a) s = .next (s.withDev (s.dev.acked 0))) ∧
  -- Enabling takes the fields and starts the ring empty.
  (∀ (s : State) (k : Fin 64) (v : Word) (a : Acc),
    s.dev.takes (0xE408 + 0x10 * k.val) a = true →
    s.dev.on (F.SQ_CFG_EN.ix k) = false →
    fld v.toNat 0 1 = 1 →
    4 ≤ fld v.toNat 2 5 →
    fld v.toNat 2 5 ≤ 16 →
    exec (.sqEnable k v a) s = .next (s.withDev ((((((((({ s.dev with adm := { s.dev.adm with sq := ins s.dev.adm.sq k { gen := (s.dev.sqs k).gen + 1 } } } : Dev).wr (F.SQ_CFG_EN.ix k) 1).wr (F.SQ_CFG_CRC.ix k) (fld v.toNat 1 1)).wr
      (F.SQ_CFG_SIZE.ix k) (fld v.toNat 2 5)).wr (F.SQ_CFG_WEIGHT.ix k) (fld v.toNat 8 4)).wr (F.SQ_CFG_ERRCQ.ix k) (fld v.toNat 16 6)).wr
      (F.SQ_DB_TAIL.ix k) 0).wr (F.SQ_DB_HEAD.ix k) 0).acked 0)))

/-- Fetch of tickets, the direct path, and admission enable. TICKET_FETCH posts one read of the selected ring: up to 8
tickets from HEAD, within the weight of the visit, the tickets pending, the end of the ring and a 4 KiB page. TKT_GO
takes the 64 bytes of TKT_DATA and sets BUSY, or counts a drop while BUSY. ADM_CTL takes EN, and THL_BASE taken while
admission is idle puts every cell on the free list. (R46, R48, R54, R76) Commands said to answer a next state:
ticketFetch, tktGo, admEnable, thlBaseWrite. -/
def Obligations.TicketFetchAndDirectPath : Prop :=
  -- A new visit of ring k: n tickets are read from the slot HEAD names.
  (∀ (s : State) (k : Nat) (w : Nat) (n : Nat),
    s.dev.live = true →
    s.dev.on F.ADM_CTL_EN = true →
    s.dev.adm.halted = false →
    s.dev.rd F.PM_STAT_STATE ≠ 2 →
    s.dev.adm.sweep = none →
    admStalled s.dev = false →
    nextRing s.dev = some k →
    (s.dev.sqs k).left = 0 →
    w = (if s.dev.rd (F.SQ_CFG_WEIGHT.ix k) = 0 then 16 else s.dev.rd (F.SQ_CFG_WEIGHT.ix k)) →
    n = min (min 8 w) (min (sqPending s.dev k) (min (sqSize s.dev k - s.dev.rd (F.SQ_DB_HEAD.ix k)) (64 - s.dev.rd (F.SQ_DB_HEAD.ix k) % 64))) →
    exec (.ticketFetch) s = .next (s.withDev (request (k % 4) false { what := .ticketFetch k (s.dev.rd (F.SQ_DB_HEAD.ix k)) n (s.dev.sqs k).gen, addr := s.dev.rd64 (F.SQ_BASE_LO_ADDR.ix k) (F.SQ_BASE_HI_ADDR.ix k) + 64 * s.dev.rd (F.SQ_DB_HEAD.ix k), len := 64 * n }
      { s.dev with adm := { s.dev.adm with lastRing := k, sq := ins s.dev.adm.sq k { fetching := true, left := w, gen := (s.dev.sqs k).gen } } }))) ∧
  -- A ticket written to TKT_DATA is taken; the resumes that are due stay so (R125).
  (∀ (s : State) (a : Acc),
    s.dev.takes 0xE080 a = true →
    s.dev.on F.TKT_STAT_BUSY = false →
    s.dev.adm.halted = false →
    s.dev.rd F.PM_STAT_STATE ≠ 2 →
    exec (.tktGo a) s = .next (s.withDev (({ s.dev with adm := { s.dev.adm with direct := some { sq := 0xFF, slot := 0, bytes := directBytes s.dev } }, chs := (latchAll s.dev).chs } : Dev).wr F.TKT_STAT_BUSY 1 |>.acked 0))) ∧
  -- While BUSY the write is counted and dropped.
  (∀ (s : State) (a : Acc),
    s.dev.takes 0xE080 a = true →
    s.dev.on F.TKT_STAT_BUSY = true →
    exec (.tktGo a) s = .next (s.withDev (({ s.dev with chs := (latchAll s.dev).chs } : Dev).wr F.TKT_STAT_DROP (satAdd 8 (s.dev.rd F.TKT_STAT_DROP) 1) |>.acked 0))) ∧
  -- EN of ADM_CTL.
  (∀ (s : State) (v : Word) (a : Acc),
    s.dev.takes 0xE000 a = true →
    fld v.toNat 1 1 = s.dev.rd F.ADM_CTL_PFMEN →
    exec (.admEnable v a) s = .next (s.withDev (((s.dev.wr F.ADM_CTL_EN (fld v.toNat 0 1)).wr F.ADM_CTL_PFMEN (fld v.toNat 1 1)).acked 0))) ∧
  -- A half of THL_BASE while admission is idle.
  (∀ (s : State) (hi : Bool) (v : Word) (a : Acc),
    s.dev.takes (if hi then 0xE014 else 0xE010) a = true →
    s.dev.on F.ADM_CTL_EN = false →
    s.dev.rd F.THL_FREE_FREE = 0x100000 →
    exec (.thlBaseWrite hi v a) s = .next (s.withDev (({ (if hi then s.dev.wr F.THL_BASE_HI_ADDR v.toNat else s.dev.wr F.THL_BASE_LO_ADDR (fld v.toNat 16 16)) with
        adm := { s.dev.adm with free := [(0, 1048576, false)] } } : Dev).wr F.THL_FREE_FREE 0x100000 |>.acked 0))) ∧
  -- A half of THL_BASE while admission is not idle: dropped, cause 1, when it would change.
  (∀ (s : State) (hi : Bool) (v : Word) (a : Acc),
    s.dev.takes (if hi then 0xE014 else 0xE010) a = true →
    s.dev.on F.ADM_CTL_EN = true →
    (if hi then v.toNat ≠ s.dev.rd F.THL_BASE_HI_ADDR else fld v.toNat 16 16 ≠ s.dev.rd F.THL_BASE_LO_ADDR) →
    exec (.thlBaseWrite hi v a) s = .next (s.withDev ((s.dev.writeError (if hi then 0xE014 else 0xE010) a 0 1).acked 0)))

/-- Admission of one ticket: rejected or linked. TICKET_ADMIT applies the commits that wait for an admission and takes the
first ticket in hand. One that fails a check of R49 waits for its record on the ring of its CQ and is counted in
ADM_ERR with its detail and ring. One that passes takes the head of the free list and joins the end of its die queue,
as a new cell with its ticket, ring, slot and dies. (R49, R50, R53, R54, R59, R62, R341) Commands said to answer a
next state: ticketAdmit. -/
def Obligations.TicketAdmission : Prop :=
  -- A ticket that fails a check.
  (∀ (s : State) (d : Dev) (h : Hand) (r : List Hand) (st : Nat) (det : Nat),
    s.dev.live = true →
    d = latchAll (beforeAdmit s.dev) →
    admReady d = true →
    s.dev.adm.sweep = none →
    s.dev.adm.direct = none →
    s.dev.adm.hand = h :: r →
    h.sq ≠ 0xFF →
    h.ue = false →
    s.dev.adm.rejects = [] →
    admitCheck d h = some (st, det) →
    ¬ (st = 0x60 ∧ (det = 0x0B ∨ det = 0x0C)) →
    ∃ t, exec (.ticketAdmit .clean {}) s = .next t ∧ t.dev.adm.hand = r ∧
      t.dev.adm.rejects = [{ hand := h, cq := tCq h.bytes, out := { status := st, detail := det } }] ∧
      (t.dev.cqs (tCq h.bytes)).waiting = (s.dev.cqs (tCq h.bytes)).waiting ++ [.reject h.sq] ∧ t.dev.rd F.ADM_ERR_LASTDET = det % 256 ∧
      t.dev.rd F.ADM_ERR_LASTSQ = h.sq % 256 ∧ t.dev.rd F.ADM_ERR_CNT = satAdd 16 (d.rd F.ADM_ERR_CNT) 1 ∧ t.dev.cells = s.dev.cells) ∧
  -- A ticket that passes every check.
  (∀ (s : State) (d : Dev) (h : Hand) (r : List Hand) (c : Nat) (n : Nat) (b : Bool) (f : List (Nat × Nat × Bool)),
    s.dev.live = true →
    d = latchAll (beforeAdmit s.dev) →
    admReady d = true →
    s.dev.adm.sweep = none →
    s.dev.adm.direct = none →
    s.dev.adm.hand = h :: r →
    h.sq ≠ 0xFF →
    h.ue = false →
    s.dev.adm.rejects = [] →
    admitCheck d h = none →
    mayTakeCell d h = true →
    s.dev.adm.free = (c, n, b) :: f →
    tStr h.bytes = false →
    tLmap h.bytes = false →
    ∃ t, exec (.ticketAdmit .clean {}) s = .next t ∧ t.dev.adm.hand = r ∧ t.dev.adm.free = (if n ≤ 1 then f else (c + 1, n - 1, b) :: f) ∧
      t.dev.queue (qkey (physDie d (tDix h.bytes)) (tClass h.bytes)) = s.dev.queue (qkey (physDie d (tDix h.bytes)) (tClass h.bytes)) ++ [c] ∧
      look t.dev.cells c = some { tkt := h.bytes.take 60, sq := h.sq, slot := h.slot, dix := physDie d (tDix h.bytes), tdix := physDie d (tTdix h.bytes), qcls := tClass h.bytes, uten := tTenant h.bytes } ∧
      t.dev.rd F.THL_FREE_FREE = (d.rd F.THL_FREE_FREE - 1) % 2 ^ 21 ∧ t.dev.adm.rejects = [])

/-- Cells written back and fetched, and the pool sweep. A write-back answered OK ends the first write-back of a new cell.
A queued cell fetched with a good check is in the cache. A bad check breaks its die queue. A sweep reads from cell 0,
and its end clears FLBROKEN and START. (R56, R57, R58, R493) Commands said to answer a next state:
cellWritebackResponse, cellFetchReturn, thlSweepStart, thlSweepEnd. -/
def Obligations.CellTrafficAndSweep : Prop :=
  -- The first write-back of a cell is answered: the cell stays cached while it started or stands among the first 15 of its queue.
  (∀ (s : State) (c : Fin 1048576) (x : Cell) (a : Answer) (r : List Answer),
    s.dev.live = true →
    s.dev.answers = a :: r →
    a.what = .cellWrite c →
    a.code = 0 →
    look s.dev.cells c = some x →
    x.fresh = true →
    x.started = true ∨ x.out = none →
    exec (.cellWritebackResponse c) s = .next (s.withDev ({ s.dev with answers := r, cells := ins s.dev.cells c { x with fresh := false, cached := x.started || ((s.dev.queue (cellKey x)).take 15).contains c.val } }))) ∧
  -- The same of a ticket whose record waits: it stays cached within the last 1,024 places.
  (∀ (s : State) (c : Fin 1048576) (x : Cell) (a : Answer) (r : List Answer) (d : Dev),
    s.dev.live = true →
    s.dev.answers = a :: r →
    a.what = .cellWrite c →
    a.code = 0 →
    look s.dev.cells c = some x →
    x.fresh = true →
    x.started = false →
    x.out.isSome = true →
    d = { s.dev with answers := r, cells := ins s.dev.cells c { x with fresh := false } } →
    otherCells d < 1024 →
    exec (.cellWritebackResponse c) s = .next (s.withDev (d))) ∧
  -- A queued cell arrives with a good CCRC and STATE queued; its queue, if it is broken, keeps nothing at Lift.
  (∀ (s : State) (c : Fin 1048576) (x : Cell) (a : Answer) (r : List Answer),
    s.dev.live = true →
    s.dev.answers = a :: r →
    a.what = .cellFetch c false →
    a.code = 0 →
    a.ue = false →
    look s.dev.cells c = some x →
    x.fetching = true →
    x.out = none →
    cellCheck a.bytes 1 = true →
    exec (.cellFetchReturn c) s = .next (s.withDev (withdrawBroken c { s.dev with answers := r, cells := ins s.dev.cells c { x with fetching := false, cached := true, tkt := a.bytes.take 56 ++ x.tkt.drop 56 } }))) ∧
  -- A queued cell arrives with a bad check: its queue is broken, the cell is named, source 0x064 is raised and a start of the queue that waits at Lift is withdrawn.
  (∀ (s : State) (c : Fin 1048576) (x : Cell) (a : Answer) (r : List Answer),
    s.dev.live = true →
    s.dev.answers = a :: r →
    a.what = .cellFetch c false →
    a.code = 0 →
    a.ue = false →
    look s.dev.cells c = some x →
    x.fetching = true →
    x.out = none →
    cellCheck a.bytes 1 = false →
    exec (.cellFetchReturn c) s = .next (s.withDev (withdrawBroken c (raise 0x64 ((((({ s.dev with answers := r } : Dev).wr F.THL_CECNT_CRCF (satAdd 16 (s.dev.rd F.THL_CECNT_CRCF) 1)).setCell c { x with fetching := false, bad := false }).wr
      (F.DQ_STAT_BROKEN.ix x.qcls) 1 x.dix).wr F.DQ_BADCELL_CELL c x.dix))))) ∧
  -- A sweep starts at cell 0 while no cell is held, and rebuilds, from an empty free list, when REBUILD or FLBROKEN says so.
  (∀ (s : State) (v : Word) (a : Acc) (e : Dev),
    s.dev.takes 0xE024 a = true →
    s.dev.adm.sweep = none →
    s.dev.cells = [] →
    e = (let d := s.dev.wr F.THL_SWEEP_REBUILD (fld v.toNat 1 1); if fld v.toNat 1 1 = 1 ∨ s.dev.on F.ADM_STAT_FLBROKEN = true then ({ d with adm := { d.adm with free := [] } } : Dev).wr F.THL_FREE_FREE 0 else d) →
    exec (.thlSweepStart v a) s = .next (s.withDev ((request 0 false { what := .sweepCell 0, addr := thlBase s.dev, len := 64 }
      { (((e.wr F.THL_SWEEP_START 1).wr F.THL_SWEEP_LOST 0)) with adm := { e.adm with sweep := some { next := 0, reading := true, rebuild := fld v.toNat 1 1 == 1 || s.dev.on F.ADM_STAT_FLBROKEN } } }).acked 0))) ∧
  -- The end of a sweep.
  (∀ (s : State) (w : Sweep),
    s.dev.live = true →
    s.dev.adm.sweep = some w →
    w.reading = false →
    1048576 ≤ w.next →
    ∃ t, exec (.thlSweepEnd) s = .next t ∧ t.dev.adm.sweep = none ∧ t.dev.rd F.ADM_STAT_FLBROKEN = 0 ∧ t.dev.rd F.THL_SWEEP_START = 0 ∧
      (∀ n : Fin 4096, (∀ k : Fin 4, t.dev.rd (F.DQ_STAT_BROKEN.ix k) n = 0)) ∧
      t = s.withDev { s.dev with regs := t.dev.regs, acc := t.dev.acc, adm := t.dev.adm, cells := t.dev.cells, cq := t.dev.cq, dma := t.dev.dma, dq := t.dev.dq, fab := t.dev.fab, freeCtr := t.dev.freeCtr, int := t.dev.int } ∧
      s.dev.onlyAt [(0x2204, 0x222C), (0x3000, 0x3000), (0x3100, 0x310C), (0x400C, 0x400C), (0x4804, 0x48FC), (0x710C, 0x710C), (0xE004, 0xE024), (0xE084, 0xE084), (0xE214, 0xE22C)] t.dev)

/-- Completion rings: enable, head, record and response. CQ_ENABLE of a ring without held records takes the fields of
CQj_CFG, sets HEAD and TAIL to 0 and PHASE to 1. A HEAD from HEAD to TAIL is taken and another is dropped with cause
2. A due record of a started ticket is written to the slot TAIL names, with the bytes of R64. Its response advances
TAIL, flips PHASE at the wrap and gives the slot back. A response that is still a bus error after four retries holds
the record, disables the ring and sets FERR. (R60, R63, R64, R67, R68) Commands said to answer a next state: cqEnable,
cqHeadWrite, completionRecordWrite, completionWriteResponse. -/
def Obligations.CompletionRings : Prop :=
  -- Enable.
  (∀ (s : State) (j : Fin 64) (v : Word) (a : Acc),
    s.dev.takes (0xE808 + 0x10 * j.val) a = true →
    s.dev.on (F.CQ_CFG_EN.ix j) = false →
    fld v.toNat 0 1 = 1 →
    4 ≤ fld v.toNat 2 5 →
    fld v.toNat 2 5 ≤ 16 →
    (s.dev.cqs j).held = [] →
    (s.dev.cqs j).first = 0 →
    exec (.cqEnable j v a) s = .next (s.withDev ((waitRecall j ((((((({ s.dev with cq := ins s.dev.cq j { s.dev.cqs j with phase := true } } : Dev).wr (F.CQ_CFG_EN.ix j) 1).wr (F.CQ_CFG_IRQALL.ix j) (fld v.toNat 1 1)).wr
      (F.CQ_CFG_SIZE.ix j) (fld v.toNat 2 5)).wr (F.CQ_CFG_FERR.ix j) (maskOff 1 (s.dev.rd (F.CQ_CFG_FERR.ix j)) (fld v.toNat 7 1))).wr
      (F.CQ_DB_HEAD.ix j) 0).wr (F.CQ_DB_TAIL.ix j) 0)).acked 0))) ∧
  -- A HEAD in the range.
  (∀ (s : State) (j : Fin 64) (v : Word) (a : Acc),
    s.dev.takes (0xE80C + 0x10 * j.val) a = true →
    cqHeadOk s.dev j (v.toNat % 2 ^ 16) = true →
    exec (.cqHeadWrite j v a) s = .next (s.withDev ((waitRecall j (s.dev.wr (F.CQ_DB_HEAD.ix j) v.toNat)).acked 0))) ∧
  -- A HEAD outside it.
  (∀ (s : State) (j : Fin 64) (v : Word) (a : Acc),
    s.dev.takes (0xE80C + 0x10 * j.val) a = true →
    cqHeadOk s.dev j (v.toNat % 2 ^ 16) = false →
    exec (.cqHeadWrite j v a) s = .next (s.withDev ((s.dev.writeError (0xE80C + 0x10 * j.val) a 0 2).acked 0))) ∧
  -- The record of a started ticket.
  (∀ (s : State) (c : Nat) (x : Cell) (o : Outcome) (lat : Nat),
    s.dev.live = true →
    look s.dev.cells c = some x →
    x.started = true →
    x.out = some o →
    x.writes = 0 →
    x.rxLeft = 0 →
    x.taking = false →
    x.manifest = false →
    s.dev.on (F.CQ_CFG_EN.ix (tCq x.tkt)) = true →
    (s.dev.cqs (tCq x.tkt)).busy = none →
    (s.dev.cqs (tCq x.tkt)).held = [] →
    (s.dev.cqs (tCq x.tkt)).first = 0 →
    cqFull s.dev (tCq x.tkt) = false →
    ∃ t, exec (.completionRecordWrite (.cell c) ⟨lat, .clean⟩) s = .next t ∧ (t.dev.cqs (tCq x.tkt)).busy = some (.cell c) ∧
      (t.dev.prt (tCq x.tkt % 4)).wr.ctrl = (s.dev.prt (tCq x.tkt % 4)).wr.ctrl ++
        [{ what := .record (tCq x.tkt) (s.dev.rd (F.CQ_DB_TAIL.ix (tCq x.tkt))), addr := s.dev.rd64 (F.CQ_BASE_LO_ADDR.ix (tCq x.tkt)) (F.CQ_BASE_HI_ADDR.ix (tCq x.tkt)) + 32 * s.dev.rd (F.CQ_DB_TAIL.ix (tCq x.tkt)), len := 32, atomic := true,
           data := recordBytes x.tkt x.sq x.slot o x.retry x.susp lat (s.dev.cqs (tCq x.tkt)).phase }] ∧
      look t.dev.cells c = some { x with charged := true } ∧ ∀ k : Fin 1048576, k.val ≠ c → look t.dev.cells k = look s.dev.cells k ∧
      t = s.withDev { s.dev with regs := t.dev.regs, adm := t.dev.adm, cells := t.dev.cells, cq := t.dev.cq, dma := t.dev.dma, fab := t.dev.fab, freeCtr := t.dev.freeCtr, int := t.dev.int, led := t.dev.led, mp := t.dev.mp, spr := t.dev.spr }) ∧
  -- Its response: the next slot, the cell free again.
  (∀ (s : State) (j : Fin 64) (k : Nat) (a : Answer) (r : List Answer) (slot : Nat) (n : Nat),
    s.dev.live = true →
    s.dev.answers = a :: r →
    a.what = .record j slot →
    a.code = 0 →
    (s.dev.cqs j).busy = some (.reject k) →
    (s.dev.cqs j).held = [] →
    k ≠ 0xFF →
    n = (s.dev.rd (F.CQ_DB_TAIL.ix j) + 1) % 2 ^ s.dev.rd (F.CQ_CFG_SIZE.ix j) →
    exec (.completionWriteResponse j) s = .next (s.withDev (latchAll (waitRecall j { (s.dev.wr (F.CQ_DB_TAIL.ix j) n) with answers := r,                                               cq := ins s.dev.cq j { s.dev.cqs j with busy := none, tries := 0, phase := if n = 0 then !(s.dev.cqs j).phase else (s.dev.cqs j).phase, reserved := (s.dev.cqs j).reserved - 1, held := [] },                                               adm := { s.dev.adm with rejects := s.dev.adm.rejects.filter fun q => q.hand.sq != k } })))) ∧
  -- A bus error after four retries.
  (∀ (s : State) (j : Fin 64) (k : Nat) (a : Answer) (r : List Answer) (slot : Nat),
    s.dev.live = true →
    s.dev.answers = a :: r →
    a.what = .record j slot →
    a.code ≠ 0 →
    a.req.tries = 4 →
    (s.dev.cqs j).busy = some (.reject k) →
    (s.dev.cqs j).held = [] →
    exec (.completionWriteResponse j) s = .next (s.withDev (latchAll ((({ s.dev with answers := r, cq := ins s.dev.cq j { s.dev.cqs j with busy := none, tries := 0, held := [(.reject k, a.req)] } } : Dev).wr (F.CQ_CFG_EN.ix j) 0).wr (F.CQ_CFG_FERR.ix j) 1))))

/-- TQ_POP takes the oldest word of telemetry records. TQ_POP of a queue with a closed word shows its eight records in
TQq_WORD0 to WORD7, VALID 32 and the next SEQ, and takes the word off the queue. With nothing in the queue VALID reads
0 and SEQ does not advance. (R71) Commands said to answer a next state: tqPop. -/
def Obligations.TelemetryPop : Prop :=
  -- A closed word.
  (∀ (s : State) (q : Fin 16) (a : Acc) (x : TqSt) (w : List Nat) (r : List (List Nat)),
    s.dev.takes (0xEC0C + 0x40 * q.val) a = true →
    look s.dev.tq q = some x →
    x.closed = w :: r →
    ∃ t, exec (.tqPop q a .clean) s = .next t ∧ (∀ i : Fin 8, t.dev.rd ((tqWord i).ix q) = w.getD i 0 % 2 ^ 32) ∧
      t.dev.rd (F.TQ_WTAG_VALID.ix q) = 32 ∧ t.dev.rd (F.TQ_WTAG_SEQ.ix q) = (s.dev.rd (F.TQ_WTAG_SEQ.ix q) + 1) % 2 ^ 16 ∧
      t.dev.rd (F.TQ_STAT_WORDS.ix q) = r.length % 2 ^ 7 ∧ t.dev.tq = ins s.dev.tq q { x with closed := r } ∧
      t = s.withDev { s.dev with regs := t.dev.regs, int := t.dev.int, mp := t.dev.mp, port := t.dev.port, tq := t.dev.tq } ∧
      s.dev.onlyAt [(0x400C, 0x400C), (0x4804, 0x48FC), (0x8018, 0x802C), (0x8100, 0x812C), (0xC200, 0xC200), (0xEC04, 0xEFD0)] t.dev) ∧
  -- An empty queue.
  (∀ (s : State) (q : Fin 16) (a : Acc),
    s.dev.takes (0xEC0C + 0x40 * q.val) a = true →
    look s.dev.tq q = none →
    ∃ t, exec (.tqPop q a .clean) s = .next t ∧ t.dev.rd (F.TQ_WTAG_VALID.ix q) = 0 ∧ t.dev.rd (F.TQ_WTAG_SEQ.ix q) = s.dev.rd (F.TQ_WTAG_SEQ.ix q) ∧
      t = s.withDev { s.dev with regs := t.dev.regs, int := t.dev.int, mp := t.dev.mp, port := t.dev.port, tq := t.dev.tq } ∧
      s.dev.onlyAt [(0x400C, 0x400C), (0x4804, 0x48FC), (0x8018, 0x802C), (0x8100, 0x812C), (0xC200, 0xC200), (0xEC04, 0xEFD0)] t.dev)

/-- Power fail and the manifest. PFAIL_N_FALL lowers the pin and notes its time. POWER_FAIL_RECOGNISED does nothing while
the pin is high or in reset, latches safety link 0 when awake, and in Nap records PFSEEN and the cause for the wake.
PFM_WAIT_EXPIRY ends the wait. Manifest entries are written at 4096 + 32 i of the half that LASTHALF does not name,
then the header. PFM_ARM begins the read of the region, whose end arms the manifest; a region that could not be read
counts as holding no manifest. (R72, R73, R74, R218, R392, R494) Commands said to answer a next state: pfailNFall,
powerFailRecognised, pfmWaitExpiry, manifestWrite, manifestHeaderWrite, pfmArm, pfmRegionReadEnd. -/
def Obligations.PowerFailSequence : Prop :=
  -- The pin.
  (∀ (s : State),
    exec (.pfailNFall) s = .next (s.withDev ({ s.dev with pins := { s.dev.pins with pfailN := false }, pfm := { s.dev.pfm with fell := if s.dev.pins.pfailN then s.dev.time else s.dev.pfm.fell } }))) ∧
  -- The pin is high.
  (∀ (s : State),
    s.dev.pins.pfailN = true →
    exec (.powerFailRecognised) s = .next (s.withDev (s.dev))) ∧
  -- In Nap the event waits for the wake.
  (∀ (s : State),
    s.dev.pins.pfailN = false →
    s.dev.inReset = false →
    s.dev.pfSeen = false →
    s.dev.cclkOn = false →
    s.dev.pm.causes = [] →
    s.dev.nor.undone = [] →
    s.dev.th.record = none →
    exec (.powerFailRecognised) s = .next (s.withDev ({ safeLink 0 (s.dev.wr F.PM_STAT_PFSEEN 1) with pm := { s.dev.pm with causes := [12] } }))) ∧
  -- Awake, after the boot: safety link 0.
  (∀ (s : State),
    s.dev.pins.pfailN = false →
    s.dev.inReset = false →
    s.dev.pfSeen = false →
    s.dev.cclkOn = true →
    s.dev.rd F.BOOT_STAT_PHASE = 7 →
    s.dev.rd F.PM_STAT_STATE = 0 →
    s.dev.on F.FS_STAT_ACTIVE = false →
    ∃ t, exec (.powerFailRecognised) s = .next t ∧ bit (t.dev.rd F.SPR_SAFEST_ST) 0 = true) ∧
  -- The wait ends with no work left.
  (∀ (s : State),
    s.dev.live = true →
    s.dev.fs.pfail = true →
    s.dev.fs.tw = false →
    ctxsOf s.dev = [] →
    exec (.pfmWaitExpiry) s = .next (s.withDev ({ s.dev.wr F.PFM_WAIT_LAST (min ((s.dev.time - s.dev.pfm.t0) / 10) 65535) with fs := { s.dev.fs with tw := true } }))) ∧
  -- The next entry of a manifest; its ticket is charged with it.
  (∀ (s : State) (lat : Nat) (k : Nat) (d : Dev),
    s.dev.live = true →
    s.dev.pfm.phase = 1 →
    s.dev.pfm.cells[s.dev.pfm.next]? = some k →
    (s.dev.cell k).out = some { status := 0x41, detail := 3 } →
    d = chargeCell k s.dev →
    exec (.manifestWrite lat) s = .next (s.withDev (request 0 true { what := .pfmEntry s.dev.pfm.next, addr := pfmBase d + (1 - d.rd F.PFM_STAT_LASTHALF) * 69632 + 4096 + 32 * s.dev.pfm.next, len := 32, data := entryOf s.dev k lat }
      { d with pfm := { d.pfm with next := s.dev.pfm.next + 1, tries := d.pfm.tries + 1, entries := d.pfm.entries ++ [(entryOf s.dev k lat, false)] } }))) ∧
  -- The header, once every entry has been answered.
  (∀ (s : State) (span : Nat),
    s.dev.live = true →
    s.dev.pfm.phase = 1 →
    s.dev.pfm.next = s.dev.pfm.cells.length →
    s.dev.pfm.tries = 0 →
    exec (.manifestHeaderWrite span) s = .next (s.withDev (request 0 true { what := .pfmHeader, addr := pfmBase s.dev + (1 - s.dev.rd F.PFM_STAT_LASTHALF) * 69632, len := 64, atomic := true, data := manifestHead s.dev span }
      { s.dev with pfm := { s.dev.pfm with phase := 3 } }))) ∧
  -- Arming reads the region from its first page.
  (∀ (s : State),
    s.dev.live = true →
    s.dev.pfm.armDue = true →
    exec (.pfmArm) s = .next (s.withDev (request 0 false { what := .pfmRegion (s.dev.pfm.gen + 1) 0, addr := pfmBase s.dev, len := 4096 } { s.dev with pfm := { s.dev.pfm with armDue := false, reading := true, got := [], bad := false, gen := s.dev.pfm.gen + 1 } }))) ∧
  -- A region that could not be read.
  (∀ (s : State),
    s.dev.live = true →
    s.dev.pfm.reading = true →
    s.dev.pfm.bad = true →
    139264 ≤ s.dev.pfm.got.length →
    exec (.pfmRegionReadEnd) s = .next (s.withDev (((({ s.dev with pfm := { s.dev.pfm with reading := false, got := [], seq := 0 } } : Dev).wr F.PFM_STAT_LASTHALF 1).wr F.PFM_STAT_LASTSEQ 0).wr F.PFM_STAT_ARMED 1)))

/-- A nanoword ends and the routine goes on. A command cycle that ends in a microword of sequence 0 leads to the next
microword, and its time is added to the bus time of the run. A WAITRDY does not end by NANOWORD_END, and nothing
happens on a channel that no routine holds; work of other contexts that has become due with an event is marked so
(R116). (R81, R83, R86, R92) Commands said to answer a next state: nanowordEnd. -/
def Obligations.NanowordEnds : Prop :=
  -- On to the next microword.
  (∀ (s : State) (c : Fin 32) (n : NanoIn) (id : Nat) (x : Ctx) (a : Nat) (mw : Nat) (w : Nat) (a2 : Nat) (mw2 : Nat) (w2 : Nat),
    s.dev.live = true →
    s.dev.on F.TST_INJ_LINKERR c = false →
    (s.dev.chn c).run = some id →
    s.dev.ctx c id = some x →
    x.st = .running →
    x.linkErr = false →
    x.committed = false →
    dieFenced s.dev x.dix = false →
    s.dev.on F.TH_STAT_HALT = false →
    s.dev.rd F.TST_LBCTL_DEPTH c ≠ 5 →
    n.local_ = .clean →
    n.fetch = .clean →
    nanoOf s.dev c x = some (a, mw, w) →
    nwLegal w = true →
    nwCyc w = 1 →
    mwSeq mw = 0 →
    nwPlnext w = false →
    nanoOf s.dev c { x with mw := a + 1 } = some (a2, mw2, w2) →
    nwLegal w2 = true →
    mwSeq mw2 < 6 →
    nwCyc w2 ≠ 6 →
    ∃ t, exec (.nanowordEnd c n) s = .next t ∧ (∃ y, t.dev.ctx c id = some y ∧ y.mw = a + 1 ∧ y.st = .running ∧
      y.units = x.units + nanoUnits (s.dev.rd F.SEQ_CFG_TDIV c) 0 0 w ∧ y.committed = false ∧ y.cells = x.cells) ∧ t.dev.rd F.SEQ_STAT_STATE c = 2 ∧
      t.dev.rd F.SEQ_STAT_MWADDR c = (a + 1) % 2 ^ 15 ∧ t.dev.cells = s.dev.cells) ∧
  -- A WAITRDY waits.
  (∀ (s : State) (c : Fin 32) (n : NanoIn) (id : Nat) (x : Ctx) (a : Nat) (mw : Nat) (w : Nat),
    s.dev.live = true →
    s.dev.on F.TST_INJ_LINKERR c = false →
    (s.dev.chn c).run = some id →
    s.dev.ctx c id = some x →
    nanoOf s.dev c x = some (a, mw, w) →
    nwLegal w = true →
    mwSeq mw ≤ 6 →
    nwCyc w = 6 →
    nwPark w = false →
    x.resample = false →
    exec (.nanowordEnd c n) s = .next (s.withDev (latchAll s.dev))) ∧
  -- No routine holds the bus.
  (∀ (s : State) (c : Fin 32) (n : NanoIn),
    s.dev.live = true →
    (s.dev.chn c).run = none →
    exec (.nanowordEnd c n) s = .next (s.withDev (latchAll s.dev)))

/-- Ready lines, re-tests, timeouts, link errors and restarts. RB_N_RISE and RB_N_FALL move the ready line; with one die
waiting in the group the rise makes its parked context ready, and with none it does nothing more; the fall is counted
for the lowest fenced die when no other die is busy. A re-test that finds the die busy charges its bus time alone. A
timeout before the commit point restarts the routine and counts it. A link error is counted and marked. A restart gap
ends at the routine entry. The minimum run is marked. (R93, R97, R99, R123, R254, R255, R260) Commands said to answer
a next state: rbNRise, rbNFall, waitrdyRetest, waitrdyTimeout, linkCrcError, restartGapEnd, suspendMinrunExpiry. -/
def Obligations.ReadinessAndRestarts : Prop :=
  -- A rise with no die waiting.
  (∀ (s : State) (c : Fin 32) (g : Fin 2) (b : Nat) (m : Mem),
    groupBusy s.dev c g = [] →
    exec (.rbNRise c g ⟨b, m⟩) s = .next (s.withDev (latchAll { s.dev with chs := ins s.dev.chs c { s.dev.chn c with rb := setBit (s.dev.chn c).rb g } }))) ∧
  -- A rise with one die waiting.
  (∀ (s : State) (c : Fin 32) (g : Fin 2) (b : Nat) (id : Nat) (x : Ctx),
    s.dev.live = true →
    s.dev.on F.FS_STAT_ACTIVE = false →
    phyAwake s.dev c = true →
    bit (s.dev.rd F.CH_RB_FB c) g = false →
    (s.dev.chn c).ctxs = [(id, x)] →
    x.st = .parked →
    x.hang = false →
    x.committed = true →
    groupBusy s.dev c g = [x.dix] →
    dixCh x.dix = c →
    ∃ t, exec (.rbNRise c g ⟨b, .clean⟩) s = .next t ∧ (t.dev.ctx c id).map (·.st) = some .ready ∧ (t.dev.ctx c id).map (·.busy) = some (x.busy + b) ∧
      t.dev.rd F.SEQ_CTX_PARKED c = parkedCtxs t.dev c % 2 ^ F.SEQ_CTX_PARKED.w ∧ t.dev.cells = s.dev.cells) ∧
  -- A fall with every unfenced die known ready.
  (∀ (s : State) (c : Fin 32) (g : Fin 2) (x : Nat),
    s.dev.live = true →
    rbSampled s.dev c = true →
    (groupDies c g).find? (dieFenced s.dev) = some x →
    groupBusy s.dev c g = [] →
    exec (.rbNFall c g) s = .next (s.withDev (({ s.dev with chs := ins s.dev.chs c { s.dev.chn c with rb := clrBit (s.dev.chn c).rb g } } : Dev).wr F.DIE_FSTAT_RESP (satAdd 16 (s.dev.rd F.DIE_FSTAT_RESP x) 1) x))) ∧
  -- A re-test finds the die busy.
  (∀ (s : State) (x : Fin 1024) (st : Nat) (ns : Nat) (b : Nat) (m : Mem) (id : Nat) (y : Ctx),
    s.dev.live = true →
    dieFenced s.dev x = false →
    s.dev.on F.FS_STAT_ACTIVE = false →
    (s.dev.chn (dixCh x)).ctxs = [(id, y)] →
    y.st = .parked →
    y.dix = x →
    inFallback s.dev x = true →
    st.testBit 6 = false →
    exec (.waitrdyRetest x st ns ⟨b, m⟩) s = .next (s.withDev (latchAll (spendRun (dixCh x) y.cells ns s.dev)))) ∧
  -- A timeout before the commit point.
  (∀ (s : State) (x : Fin 1024) (id : Nat) (y : Ctx),
    s.dev.live = true →
    (s.dev.chn (dixCh x)).ctxs = [(id, y)] →
    y.st = .parked →
    y.dix = x →
    y.committed = false →
    onCommit s.dev (dixCh x) y = false →
    dieFenced s.dev x = false →
    s.dev.on F.TH_STAT_HALT = false →
    y.restarts < s.dev.rd F.SEQ_CFG_RSTMAX (dixCh x) →
    ∃ t, exec (.waitrdyTimeout x) s = .next t ∧
      t.dev.ctx (dixCh x) id = some { ctxRestarted { y with began := none, busy := y.busy + (if y.inSeq = true then 0 else s.dev.rd (F.CH_TO_TIME.ix y.tocls) (dixCh x) * 10000) } with st := .ready, rerun := true, since := (s.dev.chn (dixCh x)).tick + 1 } ∧
      t.dev.rd F.SEQ_RSTCNT_RESTARTS (dixCh x) = satAdd 16 (s.dev.rd F.SEQ_RSTCNT_RESTARTS (dixCh x)) 1 ∧ t.dev.cells = s.dev.cells) ∧
  -- A link error in a cycle of the routine.
  (∀ (s : State) (c : Fin 32) (id : Nat) (x : Ctx),
    s.dev.live = true →
    (s.dev.chn c).run = some id →
    s.dev.ctx c id = some x →
    x.st = .running →
    exec (.linkCrcError c) s = .next (s.withDev ((s.dev.wr F.SEQ_RSTCNT_LINKERR (satAdd 16 (s.dev.rd F.SEQ_RSTCNT_LINKERR c) 1) c).setCtx c id { x with linkErr := true }))) ∧
  -- The gap of a restart ends at the entry.
  (∀ (s : State) (c : Fin 32) (id : Nat) (x : Ctx) (a : Nat) (mw : Nat) (w : Nat),
    s.dev.live = true →
    (s.dev.chn c).run = some id →
    s.dev.ctx c id = some x →
    x.st = .gap →
    x.committed = false →
    x.linkErr = false →
    dieFenced s.dev x.dix = false →
    s.dev.on F.TH_STAT_HALT = false →
    nanoOf s.dev c { x with mw := x.entry } = some (a, mw, w) →
    nwLegal w = true →
    mwSeq mw < 6 →
    nwCyc w ≠ 6 →
    ∃ t, exec (.restartGapEnd c .clean) s = .next t ∧ t.dev.ctx c id = some { x with st := .running, mw := x.entry, began := some s.dev.time } ∧
      t.dev.rd F.SEQ_STAT_STATE c = 2 ∧ t.dev.rd F.SEQ_STAT_MWADDR c = x.entry % 2 ^ 15) ∧
  -- The die has been busy for MINRUN.
  (∀ (s : State) (c : Fin 32) (id : Nat) (x : Ctx),
    s.dev.live = true →
    (s.dev.chn c).ctxs = [(id, x)] →
    x.st = .parked →
    x.committed = true →
    suspendFor s.dev c { x with minrun := true } = none →
    exec (.suspendMinrunExpiry c id) s = .next (s.withDev (s.dev.setCtx c id { x with minrun := true })))

/-- Microcode patch: load, clear, drain, read end and the least version. PAT_LOAD and PAT_CLEAR begin to drain the
cluster, or count a drop while one is in progress. When the cluster is quiet a clear ends with the ROM alone and a
load goes on to its read. A failed read ends with code 10. An image that passes every check of R107 becomes active
with its version. PAT_MINVER only rises. (R106, R107, R108, R109) Commands said to answer a next state: patLoad,
patClear, patchDrainEnd, patchReadEnd, patMinverWrite. -/
def Obligations.PatchRegisters : Prop :=
  -- A load begins.
  (∀ (s : State) (a : Acc),
    s.dev.takes 0xF000 a = true →
    s.dev.on F.PAT_STAT_BUSY (s.dev.named 0xF000 a) = false →
    s.dev.rd F.UPD_SWAP_STATE ≠ 1 →
    s.dev.rd F.UPD_SWAP_STATE ≠ 2 →
    exec (.patLoad a) s = .next (s.withDev ((((({ (s.dev.wr F.PAT_CTL_LOAD 1 (s.dev.named 0xF000 a)) with cls := ins s.dev.cls (s.dev.named 0xF000 a) { s.dev.clu (s.dev.named 0xF000 a) with pat := some { clear := false } } } : Dev).wr
      F.PAT_STAT_BUSY 1 (s.dev.named 0xF000 a)).wr F.PAT_STAT_PHASE 1 (s.dev.named 0xF000 a))).acked 0))) ∧
  -- A clear begins.
  (∀ (s : State) (a : Acc),
    s.dev.takes 0xF000 a = true →
    s.dev.on F.PAT_STAT_BUSY (s.dev.named 0xF000 a) = false →
    s.dev.rd F.UPD_SWAP_STATE ≠ 1 →
    s.dev.rd F.UPD_SWAP_STATE ≠ 2 →
    exec (.patClear a) s = .next (s.withDev ((((({ (s.dev.wr F.PAT_CTL_CLEAR 1 (s.dev.named 0xF000 a)) with cls := ins s.dev.cls (s.dev.named 0xF000 a) { s.dev.clu (s.dev.named 0xF000 a) with pat := some { clear := true } } } : Dev).wr
      F.PAT_STAT_BUSY 1 (s.dev.named 0xF000 a)).wr F.PAT_STAT_PHASE 1 (s.dev.named 0xF000 a))).acked 0))) ∧
  -- Busy.
  (∀ (s : State) (a : Acc),
    s.dev.takes 0xF000 a = true →
    s.dev.on F.PAT_STAT_BUSY (s.dev.named 0xF000 a) = true →
    exec (.patLoad a) s = .next (s.withDev ((s.dev.wr F.PAT_STAT_DROP (satAdd 8 (s.dev.rd F.PAT_STAT_DROP (s.dev.named 0xF000 a)) 1) (s.dev.named 0xF000 a)).acked 0))) ∧
  -- A clear ends.
  (∀ (s : State) (cl : Fin 4) (p : PatLoad),
    s.dev.live = true →
    (s.dev.clu cl).pat = some p →
    p.phase = 1 →
    p.clear = true →
    clusterQuiet s.dev cl = true →
    ∃ t, exec (.patchDrainEnd cl) s = .next t ∧ t.dev.rd F.PAT_STAT_BUSY cl = 0 ∧ t.dev.rd F.PAT_STAT_ACTIVE cl = 0 ∧ t.dev.rd F.PAT_STAT_ERR cl = 0 ∧
      t.dev.rd F.PAT_VER_VERSION cl = 0 ∧ t.dev.rd F.PAT_CTL_CLEAR cl = 0 ∧ (t.dev.clu cl).pmw = [] ∧ (t.dev.clu cl).pnw = [] ∧
      (t.dev.clu cl).rix = [] ∧ (t.dev.clu cl).pat = none ∧
      t = s.withDev { s.dev with regs := t.dev.regs, cls := t.dev.cls, dma := t.dev.dma, fab := t.dev.fab } ∧
      s.dev.onlyAt [(0xA000, 0xA000), (0xF000, 0xF01C), (0xF100, 0xF1FC)] t.dev) ∧
  -- A failed read.
  (∀ (s : State) (cl : Fin 4) (p : PatLoad),
    s.dev.live = true →
    (s.dev.clu cl).pat = some p →
    p.phase = 2 →
    p.swap = false →
    p.err = true →
    ∃ t, exec (.patchReadEnd cl .clean) s = .next t ∧ t.dev.rd F.PAT_STAT_ERR cl = 10 ∧ t.dev.rd F.PAT_STAT_BUSY cl = 0 ∧
      t.dev.rd F.PAT_STAT_ACTIVE cl = 0 ∧ t.dev.rd F.PAT_ERRPOS_POS cl = p.pos % 2 ^ 14 ∧ (t.dev.clu cl).pmw = [] ∧ (t.dev.clu cl).pat = none) ∧
  -- A good image.
  (∀ (s : State) (cl : Fin 4) (p : PatLoad),
    s.dev.live = true →
    (s.dev.clu cl).pat = some p →
    p.phase = 2 →
    p.swap = false →
    p.err = false →
    s.dev.rd F.PAT_LEN_LEN cl ≤ p.pos →
    imgCheck (some cl.val) (s.dev.rd F.PAT_LEN_LEN cl) (s.dev.rd F.PAT_MINVER_MINVER cl) (keyInForce s.dev) p.got = none →
    ∃ t, exec (.patchReadEnd cl .clean) s = .next t ∧ t.dev.rd F.PAT_STAT_ERR cl = 0 ∧ t.dev.rd F.PAT_STAT_BUSY cl = 0 ∧
      t.dev.rd F.PAT_STAT_ACTIVE cl = 1 ∧ t.dev.rd F.PAT_VER_VERSION cl = leAt p.got 8 4 % 2 ^ 32 ∧ (t.dev.clu cl).pat = none) ∧
  -- PAT_MINVER rises.
  (∀ (s : State) (v : Word) (a : Acc),
    s.dev.takes 0xF018 a = true →
    s.dev.rd F.PAT_MINVER_MINVER (s.dev.named 0xF018 a) ≤ v.toNat →
    exec (.patMinverWrite v a) s = .next (s.withDev ((s.dev.wr F.PAT_MINVER_MINVER v.toNat (s.dev.named 0xF018 a)).acked 0))) ∧
  -- It does not fall.
  (∀ (s : State) (v : Word) (a : Acc),
    s.dev.takes 0xF018 a = true →
    v.toNat < s.dev.rd F.PAT_MINVER_MINVER (s.dev.named 0xF018 a) →
    exec (.patMinverWrite v a) s = .next (s.withDev ((s.dev.writeError 0xF018 a (s.dev.named 0xF018 a) 2).acked 0)))

/-- A selection places the choice, and a head takes its staging. A selection applies the commits that wait for it and, on
a channel whose bus a routine holds, does nothing more. With no candidate at Lift, it takes a rate change, examines
the heads, asks for due suspends, clears idle groups, and places the choice R116 to R118 make among the candidates.
STAGING_RESERVE gives the head of a queue its staging bytes and its copy of the code profile. (R113, R116, R119, R130,
R142, R195) Commands said to answer a next state: slalomSelect, stagingReserve. -/
def Obligations.SlalomAndStaging : Prop :=
  -- The bus is held: the commits that wait for a selection apply, and no more.
  (∀ (s : State) (c : Fin 32) (b : Bool),
    s.dev.live = true →
    (s.dev.chn c).run.isSome = true →
    exec (.slalomSelect { ch := c, same := b } .clean .clean .clean) s = .next (s.withDev (liftCycle b (beforeSelect c s.dev)))) ∧
  -- A selection with no candidate at Lift and no forced calibration step.
  (∀ (s : State) (c : Fin 32) (b : Bool) (d : Dev) (g : Dev) (f : Dev),
    s.dev.live = true →
    s.dev.on F.FS_STAT_ACTIVE = false →
    s.dev.fs.pfail = false →
    (s.dev.chn c).run = none →
    d = rateGo c (liftCycle b (beforeSelect c s.dev)) →
    d.live = true →
    d.on F.FS_STAT_ACTIVE = false →
    d.fs.pfail = false →
    (d.chn c).run = none →
    g = beforeChoice c d →
    f = starveIdle c (candidates g c) (clearIdleGroups c (candidates g c) g) →
    (f.chn c).run = none →
    (f.chn c).cal.forced = false →
    waitingClass f c = none →
    candidate f c = none →
    candidates g c ≠ [] →
    exec (.slalomSelect { ch := c, same := b } .clean .clean .clean) s = .next (s.withDev (selectFrom (fun c id d => resumeCtx c id .clean .clean d) c (candidates g c) f))) ∧
  -- Staging of a READ at the head of its queue.
  (∀ (s : State) (k : Fin 1048576) (x : Cell),
    s.dev.live = true →
    look s.dev.cells k = some x →
    tOpc x.tkt = opRead →
    x.started = false →
    x.out = none →
    x.prof = none →
    (s.dev.queue (cellKey x)).head? = some k.val →
    s.dev.adm.halted = false →
    check10 s.dev x = true →
    stagingFits s.dev (dixCh x.dix) (stagingNeed s.dev x.tkt) = true →
    exec (.stagingReserve k) s = .next (s.withDev (s.dev.setCell k { x with stg := stagingNeed s.dev x.tkt, prof := some (profile s.dev (tCprof x.tkt)) })))

/-- Lift: a grant, ageing, and the release of tokens. A granted wake leaves the requests and its tokens are held for the
channel. An aged request becomes reserved when no reservation stands. A wake hold and an ARRAY timeout release the
tokens they name, and LIFT_USE shows what remains. A read of LIFT_WAIT returns it and clears MAXWAIT. (R131, R132,
R138) Commands said to answer a next state: liftGrant, liftAgeExpiry, liftWakeholdExpiry, arrayTokenTimeout,
liftWaitRead. -/
def Obligations.LiftTokens : Prop :=
  -- A wake is granted.
  (∀ (s : State) (ga : Nat) (gi : Nat) (wt : Nat) (r : LReq) (e : Dev) (d : Dev),
    s.dev.live = true →
    s.dev.on F.FS_STAT_ACTIVE = false →
    s.dev.fs.pfail = false →
    e = beforeGrant s.dev →
    pickGrant e ga gi = some r →
    r.who = .wake →
    wt ≤ 4 →
    d = liftDrop r.ch true e →
    wt * 8 / 100 ≤ d.rd F.LIFT_WAIT_MAXWAIT →
    exec (.liftGrant ga gi wt .clean .clean .clean) s = .next (s.withDev ((takeTokens r none d).setCh r.ch { (takeTokens r none d).chn r.ch with waking := true }))) ∧
  -- The tokens a grant takes, within the budget.
  (∀ (s : State) (r : LReq) (ga : Nat) (gi : Nat) (wt : Nat) (e : Dev),
    s.dev.live = true →
    s.dev.on F.FS_STAT_ACTIVE = false →
    s.dev.fs.pfail = false →
    e = beforeGrant s.dev →
    pickGrant e ga gi = some r →
    r.who = .wake →
    costA e r.cost ≤ e.rd F.LIFT_BUDGET_ARRAY →
    costI e r.cost ≤ e.rd F.LIFT_BUDGET_IO →
    ∃ t, exec (.liftGrant ga gi wt .clean .clean .clean) s = .next t ∧
      t.dev.lift.toks = s.dev.lift.toks ++ [{ ch := r.ch, ctx := none, array := costA e r.cost, io := costI e r.cost, pgm := r.cost == 1 || r.cost == 2 }] ∧
      t.dev.lift.reqs = s.dev.lift.reqs.filter (fun q => !(q.ch == r.ch && isWake q)) ∧ t.dev.lift.last = r.ch ∧ (t.dev.chn r.ch).waking = true ∧
      t.dev.cells = s.dev.cells) ∧
  -- Ageing of the only request.
  (∀ (s : State) (c : Fin 32) (w : Bool) (q : LReq),
    s.dev.live = true →
    s.dev.lift.reqs = [q] →
    q.ch = c →
    isWake q = w →
    s.dev.lift.resv = none →
    ∃ t, exec (.liftAgeExpiry c w) s = .next t ∧ t.dev.lift = { s.dev.lift with reqs := [{ q with aged := true }], resv := some (c.val, w) } ∧
      t.dev.rd F.LIFT_FLAG_AGED = 1 ∧ t.dev.rd F.LIFT_STAT_RESV = 1 ∧ t = s.withDev { s.dev with regs := t.dev.regs, lift := t.dev.lift } ∧
      s.dev.onlyAt [(0x9830, 0x9838)] t.dev) ∧
  -- The wake hold ends, of the oldest wake of the channel whose tokens are held.
  (∀ (s : State) (c : Fin 32) (a : List Tok) (k : Tok) (b : List Tok),
    s.dev.live = true →
    s.dev.lift.toks = a ++ k :: b →
    k.ch = c →
    k.ctx = none →
    a.all (fun j => !(j.ch == c.val && j.ctx.isNone)) = true →
    ∃ t, exec (.liftWakeholdExpiry c) s = .next t ∧ t.dev.lift = { s.dev.lift with toks := a ++ b } ∧
      t.dev.rd F.LIFT_USE_ARRAY = min (sumL (t.dev.lift.toks.map (·.array))) 4095 ∧
      t.dev.rd F.LIFT_USE_IO = min (sumL (t.dev.lift.toks.map (·.io))) 4095 ∧ t = s.withDev { s.dev with regs := t.dev.regs, lift := t.dev.lift } ∧
      s.dev.onlyAt [(0x9830, 0x9834)] t.dev) ∧
  -- The ARRAY tokens of a routine that is gone.
  (∀ (s : State) (c : Fin 32) (id : Nat),
    s.dev.live = true →
    s.dev.ctx c id = none →
    ∃ t, exec (.arrayTokenTimeout c id) s = .next t ∧
      t.dev.lift = { s.dev.lift with toks := dropEmpty (s.dev.lift.toks.map fun k => if (k.ch == c.val && k.ctx == some id) then { k with array := 0 } else k) } ∧
      t.dev.rd F.LIFT_USE_ARRAY = min (sumL (t.dev.lift.toks.map (·.array))) 4095 ∧
      t = s.withDev { s.dev with regs := t.dev.regs, lift := t.dev.lift } ∧ s.dev.onlyAt [(0x9830, 0x9834)] t.dev) ∧
  -- LIFT_WAIT is read.
  (∀ (s : State) (a : Acc),
    s.dev.takes 0x983C a = true →
    look s.dev.port.latched (a.dom.val * 65536 + 0x983C) = none →
    exec (.liftWaitRead a) s = .next (s.withDev ((s.dev.wr F.LIFT_WAIT_MAXWAIT 0).acked ((s.dev.rd F.LIFT_WAIT_MAXWAIT * 2 ^ F.LIFT_WAIT_MAXWAIT.lo + s.dev.rd F.LIFT_WAIT_DELAYED * 2 ^ F.LIFT_WAIT_DELAYED.lo) % 2 ^ 32))))

/-- A granted ticket starts. A grant of a queued STATUS ticket, on an awake PHY and a queue that is not broken, with a
slot of its ring and no rate change waiting on its channel, starts it: its cell is STARTED and off its queue, a
completion slot is reserved, the sequencer of its channel runs routine 0x030 for a new context, and the tokens of its
class are held by that context. (R60, R87, R103, R112, R132, R412) Commands said to answer a next state: liftGrant. -/
def Obligations.TicketStarts : Prop :=
  ∀ (s : State) (ga : Nat) (gi : Nat) (wt : Nat) (r : LReq) (k : Nat) (x : Cell) (q : List Nat) (e : Dev),
    s.dev.live = true →
    s.dev.on F.FS_STAT_ACTIVE = false →
    s.dev.fs.pfail = false →
    e = beforeGrant s.dev →
    phyAwake e r.ch = true →
    pickGrant e ga gi = some r →
    queueBroken e (cellKey x) = false →
    startFaults e [k] = [] →
    slotsFor e [k] = true →
    r.who = .start [k] false →
    look s.dev.cells k = some x →
    x.started = false →
    x.out = none →
    x.prof.isSome = true →
    tOpc x.tkt = opStatus →
    x.stream = none →
    dixCh x.dix = r.ch →
    s.dev.queue (cellKey x) = k :: q →
    (s.dev.chn r.ch).run = none →
    s.dev.on F.CH_STAT_RECHG r.ch = false →
    rateWaits s.dev r.ch = false →
    (look (s.dev.clu (chCl r.ch)).rix 0x030).isNone = true →
    ∃ t, exec (.liftGrant ga gi wt .clean .clean .clean) s = .next t ∧ (t.dev.cell k).started = true ∧ (t.dev.cell k).st = 2 ∧
      (t.dev.cell k).tkt = x.tkt ∧ t.dev.queue (cellKey x) = q.filter (· != k) ∧
      (t.dev.cqs (tCq x.tkt)).reserved = (s.dev.cqs (tCq x.tkt)).reserved + 1 ∧ (t.dev.chn r.ch).run = some (s.dev.chn r.ch).nextId ∧
      t.dev.rd F.SEQ_STAT_STATE r.ch = 2 ∧ t.dev.rd F.SEQ_STAT_RIDX r.ch = 0x030

/-- Staged codewords and hard decodes. With no fence or halt to end anything, the oldest staged codeword of a cluster goes
to the lowest decoder with room, once its last byte is in. A decode that succeeds within HITER iterations is counted,
its codeword is marked good, its corrected bits are added and its data goes to the ticket, while other codewords of
the ticket are still with the decoders. One that fails on a first read with more 0 bits than ERTHR is counted and
marked failing. An empty decoder answers nothing; fences and halts that are due are taken. (R147, R148, R149, R150,
R159, R162, R163) Commands said to answer a next state: stagedCodewordDispatch, hardDecodeEnd. -/
def Obligations.HardDecodes : Prop :=
  -- Dispatch.
  (∀ (s : State) (cl : Fin 4) (w : Cw) (r : List Cw) (n : Nat),
    s.dev.live = true →
    (s.dev.clu cl).staged = w :: r →
    w.whole = true →
    freeDecoder s.dev cl = some n →
    (s.dev.cell w.cell).rxUe = false →
    s.dev.unswept = true →
    ∃ t, exec (.stagedCodewordDispatch cl .clean) s = .next t ∧ (t.dev.clu cl).staged = r ∧
      look (t.dev.clu cl).hdec n = some (((look (s.dev.clu cl).hdec n).getD []) ++ [w]) ∧ t.dev.rd F.HDP_STAT_QUEUED cl = min r.length 255 ∧
      t.dev.cells = s.dev.cells) ∧
  -- A good decode of a first read.
  (∀ (s : State) (cl : Fin 4) (n : Fin 10) (f : DecodeFound) (w : Cw) (y : Cell) (x : Ctx),
    s.dev.live = true →
    s.dev.unswept = true →
    decoderHead s.dev cl n = some w →
    look s.dev.cells w.cell = some y →
    y.out = none →
    tOpc y.tkt = opRead →
    s.dev.ctx w.ch w.ctx = some x →
    x.cells = [w.cell] →
    x.work = .first →
    (y.cws.any fun p => p.2 == .pending && p.1 != w.plane * 8 + w.idx) = true →
    f.ok = true →
    f.iters ≤ (cellProf s.dev y).hiter →
    w.first = true →
    ∃ t, exec (.hardDecodeEnd cl n f .clean) s = .next t ∧ look (t.dev.cell w.cell).cws (w.plane * 8 + w.idx) = some .okFirst ∧
      (t.dev.cell w.cell).corrected = y.corrected + f.corrected ∧ (t.dev.cell w.cell).xfer = y.xfer + 1 ∧ (t.dev.cell w.cell).out = none ∧
      t.dev.rd F.HD_OKCNT_CNT cl = (s.dev.rd F.HD_OKCNT_CNT cl + 1) % 2 ^ F.HD_OKCNT_CNT.w) ∧
  -- A failed decode of a first read.
  (∀ (s : State) (cl : Fin 4) (n : Fin 10) (f : DecodeFound) (w : Cw) (y : Cell) (x : Ctx),
    s.dev.live = true →
    s.dev.unswept = true →
    decoderHead s.dev cl n = some w →
    look s.dev.cells w.cell = some y →
    y.out = none →
    tOpc y.tkt = opRead →
    s.dev.ctx w.ch w.ctx = some x →
    x.cells = [w.cell] →
    x.work = .first →
    (y.cws.any fun p => p.2 == .pending && p.1 != w.plane * 8 + w.idx) = true →
    f.ok = false ∨ (cellProf s.dev y).hiter < f.iters →
    w.first = true →
    (cellProf s.dev y).erthr < w.zeros →
    ∃ t, exec (.hardDecodeEnd cl n f .clean) s = .next t ∧ look (t.dev.cell w.cell).cws (w.plane * 8 + w.idx) = some .failing ∧
      (t.dev.cell w.cell).corrected = y.corrected ∧ (t.dev.cell w.cell).out = none ∧
      t.dev.rd F.HD_FAILCNT_CNT cl = (s.dev.rd F.HD_FAILCNT_CNT cl + 1) % 2 ^ F.HD_FAILCNT_CNT.w) ∧
  -- No codeword in the decoder.
  (∀ (s : State) (cl : Fin 4) (n : Fin 10) (f : DecodeFound),
    s.dev.live = true →
    decoderHead s.dev cl n = none →
    exec (.hardDecodeEnd cl n f .clean) s = .next (s.withDev (latchAll (dueSweepCl cl s.dev))))

/-- The soft-decoder pool: a grant and a decode. With no decoder held, the oldest request takes decoder 0 and its soft
reads are placed as started work of its plane. A decode of one of several failing codewords that succeeds within SITER
iterations is counted and marks the codeword as good after the soft stage; one that fails is counted and marks it
uncorrectable. A decoder that is not held answers nothing. (R155, R156, R157, R158) Commands said to answer a next
state: softDecoderGrant, softDecodeEnd. -/
def Obligations.SoftDecoders : Prop :=
  -- A grant.
  (∀ (s : State) (cl : Nat) (c : Nat) (id : Nat) (p : Nat) (r : List (Nat × Nat × Nat × Nat)) (x : Ctx),
    s.dev.live = true →
    s.dev.unswept = true →
    s.dev.sdp.queue = (cl, c, id, p) :: r →
    s.dev.sdp.held = [] →
    0 < s.dev.rd F.SDP_CFG_CLMAX →
    s.dev.ctx c id = some x →
    ∃ t, exec (.softDecoderGrant) s = .next t ∧ t.dev.sdp.queue = r ∧ t.dev.sdp.held = [(0, (cl, c, id, p))] ∧ t.dev.rd F.SDP_STAT_BUSY = 1 ∧
      t.dev.rd F.SDP_STAT_WAIT = min r.length 255 ∧ (t.dev.ctx c id).map (·.work) = some .soft ∧ (t.dev.ctx c id).map (·.plane) = some p ∧
      (t.dev.ctx c id).map (·.st) = some .eligible ∧ t.dev.cells = s.dev.cells) ∧
  -- A soft decode of a codeword that is not the last.
  (∀ (s : State) (n : Fin 8) (f : DecodeFound) (cl : Nat) (c : Nat) (id : Nat) (p : Nat) (x : Ctx) (k : Nat) (y : Cell) (w : Nat) (w2 : Nat) (ws : List Nat),
    s.dev.live = true →
    s.dev.unswept = true →
    look s.dev.sdp.held n = some (cl, c, id, p) →
    s.dev.ctx c id = some x →
    x.st = .decoding →
    cellOfPlane s.dev x p = some k →
    look s.dev.cells k = some y →
    tOpc y.tkt = opRead →
    wantedCws y false p = w :: w2 :: ws →
    ∃ t, exec (.softDecodeEnd n f .clean) s = .next t ∧ look (t.dev.cell k).cws (p * 8 + w) = some (if f.ok = true ∧
      f.iters ≤ (cellProf s.dev y).siter then .okSoft else .uncorr) ∧ (t.dev.cell k).out = y.out ∧ t.dev.sdp = s.dev.sdp ∧
      t.dev.rd F.SD_OKCNT_CNT = (s.dev.rd F.SD_OKCNT_CNT + b2n (f.ok && decide (f.iters ≤ (cellProf s.dev y).siter))) % 2 ^ F.SD_OKCNT_CNT.w ∧
      t.dev.rd F.SD_FAILCNT_CNT = (s.dev.rd F.SD_FAILCNT_CNT + b2n !(f.ok && decide (f.iters ≤ (cellProf s.dev y).siter))) % 2 ^ F.SD_FAILCNT_CNT.w) ∧
  -- A decoder that nobody holds.
  (∀ (s : State) (n : Fin 8) (f : DecodeFound),
    s.dev.live = true →
    look s.dev.sdp.held n = none →
    exec (.softDecodeEnd n f .clean) s = .next (s.withDev (latchAll (Dev.each (List.range 4) dueSweepCl s.dev))))

/-- The Lichen Map: lines fetched and written, and the tracker. A line that arrives enters its set as the line used last
and is no longer being fetched. A line write that is answered OK leaves the writes in flight and its bytes are in the
cache; after four retries the change is lost: counted in LM_ERR, marked in LM_STAT, and source 0x065 raised. The
tracker takes the oldest result of a cluster whose record is cached, drops one that tracking no longer wants, and does
nothing when stopped. LM_CTL takes its three bits, and LM_CACHE_INVALIDATE empties the cache of a disabled, idle unit
and nothing else. (R176, R178, R179, R181, R183, R191) Commands said to answer a next state: lmLineFetchReturn,
lmLineWriteResponse, trackerResult, lmCtlWrite, lmCacheInvalidate. -/
def Obligations.LichenLines : Prop :=
  -- A line arrives.
  (∀ (s : State) (l : Nat) (a : Answer) (r : List Answer),
    s.dev.live = true →
    s.dev.answers = a :: r →
    a.what = .mapRead l →
    a.code = 0 →
    a.ue = false →
    s.dev.lm.seeds = [] →
    s.dev.chs = [] →
    ∃ t, exec (.lmLineFetchReturn { line := l }) s = .next t ∧ cacheGet t.dev l = some (fitTo 16 0 a.bytes) ∧
      t.dev.lm.fetching = s.dev.lm.fetching.filter (· != l) ∧ t.dev.answers = r ∧ t.dev.lm.writes = s.dev.lm.writes) ∧
  -- A line write is answered.
  (∀ (s : State) (l : Nat) (a : Answer) (r : List Answer) (w : LmWrite) (ws : List LmWrite),
    s.dev.live = true →
    s.dev.answers = a :: r →
    a.what = .mapWrite l →
    a.code = 0 →
    s.dev.lm.writes = w :: ws →
    w.line = l →
    w.moves = [] →
    s.dev.lm.seeds = [] →
    s.dev.chs = [] →
    ∃ t, exec (.lmLineWriteResponse { line := l }) s = .next t ∧ cacheGet t.dev l = some w.bytes ∧ t.dev.lm.writes = ws ∧ t.dev.answers = r) ∧
  -- A line write fails for good.
  (∀ (s : State) (l : Nat) (a : Answer) (r : List Answer) (w : LmWrite) (ws : List LmWrite),
    s.dev.live = true →
    s.dev.answers = a :: r →
    a.what = .mapWrite l →
    a.code ≠ 0 →
    a.req.tries = 4 →
    s.dev.lm.writes = w :: ws →
    w.line = l →
    s.dev.lm.seeds = [] →
    s.dev.chs = [] →
    ∃ t, exec (.lmLineWriteResponse { line := l }) s = .next t ∧ cacheGet t.dev l = none ∧ t.dev.lm.writes = ws ∧ t.dev.rd F.LM_STAT_WFAIL = 1 ∧
      t.dev.rd F.LM_ERR_WRITE = satAdd F.LM_ERR_WRITE.w (s.dev.rd F.LM_ERR_WRITE) 1 ∧ bit t.dev.int.pend 0x65 = true) ∧
  -- The tracker takes a result.
  (∀ (s : State) (cl : Fin 4) (x : Track) (r : List Track) (b : List Byte),
    s.dev.live = true →
    s.dev.pfSeen = false →
    s.dev.on F.FS_STAT_ACTIVE = false →
    (s.dev.clu cl).trk = x :: r →
    s.dev.on F.LM_CTL_TRKEN = true →
    s.dev.on F.LM_CTL_EN = true →
    s.dev.on F.LM_DIE_TRK x.dix = true →
    lineLocked s.dev (pageLine s.dev x.dix x.blk x.page) = false →
    cacheGet s.dev (pageLine s.dev x.dix x.blk x.page) = some b →
    ∃ t, exec (.trackerResult cl .clean) s = .next t ∧ (t.dev.clu cl).trk = r ∧ t.dev.lm.stamp = s.dev.lm.stamp + 1 ∧
      cacheGet t.dev (pageLine s.dev x.dix x.blk x.page) = some b ∧
      t = s.withDev { s.dev with regs := t.dev.regs, cls := t.dev.cls, dma := t.dev.dma, fab := t.dev.fab, int := t.dev.int, lm := t.dev.lm, mp := t.dev.mp, spr := t.dev.spr, tq := t.dev.tq } ∧
      s.dev.onlyAt [(0x400C, 0x400C), (0x4804, 0x48FC), (0x8018, 0x802C), (0x8100, 0x812C), (0xC200, 0xC200), (0xD104, 0xD104), (0xD118, 0xD118), (0xD12C, 0xD130), (0xEC04, 0xEFC8)] t.dev) ∧
  -- A result that tracking does not want.
  (∀ (s : State) (cl : Fin 4) (x : Track) (r : List Track),
    s.dev.live = true →
    s.dev.pfSeen = false →
    s.dev.on F.FS_STAT_ACTIVE = false →
    (s.dev.clu cl).trk = x :: r →
    s.dev.on F.LM_CTL_TRKEN = false →
    exec (.trackerResult cl .clean) s = .next (s.withDev (popTrack cl s.dev))) ∧
  -- The tracker is stopped.
  (∀ (s : State) (cl : Fin 4),
    s.dev.live = true →
    s.dev.on F.FS_STAT_ACTIVE = true →
    exec (.trackerResult cl .clean) s = .next (s.withDev (s.dev))) ∧
  -- LM_CTL.
  (∀ (s : State) (v : Word) (a : Acc),
    s.dev.takes 0xD100 a = true →
    exec (.lmCtlWrite v a) s = .next (s.withDev ((((s.dev.wr F.LM_CTL_EN (fld v.toNat 0 1)).wr F.LM_CTL_TRKEN (fld v.toNat 1 1)).wr F.LM_CTL_PREF (fld v.toNat 2 1)).acked 0))) ∧
  -- The cache is emptied.
  (∀ (s : State),
    s.dev.live = true →
    s.dev.on F.LM_CTL_EN = false →
    s.dev.on F.LM_STAT_IDLE = true →
    exec (.lmCacheInvalidate) s = .next (s.withDev ({ s.dev with lm := { s.dev.lm with cache := [] } }))) ∧
  -- It is kept.
  (∀ (s : State),
    s.dev.on F.LM_CTL_EN = true ∨ s.dev.on F.LM_STAT_IDLE = false →
    exec (.lmCacheInvalidate) s = .next (s.withDev (s.dev)))

/-- Map seeds and sweeps. LM_SEED_GO takes BLOCK and CONF and begins a seed of the named record, or is counted as dropped,
with none of its fields taken, while one is in progress. LM_SEED_END ends one whose writes have landed and raises
source 0x07E. LM_SWEEP_GO takes the mode and starts at the first unit of the range; LM_SWEEP_UNIT reads the 64 bytes
of the next unit; LM_SWEEP_STOP ends a sweep between units; LM_SWEEP_END reports it. (R186, R187, R189) Commands said
to answer a next state: lmSeedGo, lmSeedEnd, lmSweepGo, lmSweepUnit, lmSweepStop, lmSweepEnd. -/
def Obligations.MapSeedsAndSweeps : Prop :=
  -- A seed begins: a TLC line that is not cached is fetched.
  (∀ (s : State) (v : Word) (a : Acc),
    s.dev.takes 0xD160 a = true →
    fld v.toNat 1 1 = 0 →
    s.dev.on F.LM_STAT_SEEDBUSY = false →
    s.dev.on F.LM_DIE_MODE (s.dev.rd F.LM_SADDR_DIX) = false →
    s.dev.lm = {} →
    ∃ t, exec (.lmSeedGo { v := v } a) s = .next t ∧ t.dev.rd F.LM_STAT_SEEDBUSY = 1 ∧ t.dev.rd F.LM_SCMD_CONF = fld v.toNat 8 4 ∧
      t.dev.lm.seeds = [(s.dev.rd F.LM_SADDR_DIX, s.dev.rd F.LM_SADDR_BLOCK, s.dev.rd F.LM_SADDR_ZONE)] ∧
      t.dev.lm.fetching = [recLine false (s.dev.rd F.LM_SADDR_DIX) (s.dev.rd F.LM_SADDR_BLOCK) (s.dev.rd F.LM_SADDR_ZONE)] ∧
      t = s.withDev { s.dev with regs := t.dev.regs, dma := t.dev.dma, fab := t.dev.fab, int := t.dev.int, lm := t.dev.lm, mp := t.dev.mp, port := t.dev.port } ∧
      s.dev.onlyAt [(0x400C, 0x400C), (0x4804, 0x48FC), (0x8018, 0x802C), (0x8100, 0x812C), (0xC200, 0xC200), (0xD104, 0xD104), (0xD118, 0xD118), (0xD160, 0xD160)] t.dev) ∧
  -- A seed while one is in progress.
  (∀ (s : State) (v : Word) (a : Acc),
    s.dev.takes 0xD160 a = true →
    s.dev.on F.LM_STAT_SEEDBUSY = true →
    exec (.lmSeedGo { v := v } a) s = .next (s.withDev ((s.dev.wr F.LM_SCMD_DROP (satAdd 8 (s.dev.rd F.LM_SCMD_DROP) 1)).acked 0))) ∧
  -- The seed ends.
  (∀ (s : State),
    s.dev.live = true →
    s.dev.on F.LM_STAT_SEEDBUSY = true →
    s.dev.lm.seeds = [] →
    s.dev.lm.writes = [] →
    exec (.lmSeedEnd) s = .next (s.withDev (raise 0x7E (s.dev.wr F.LM_STAT_SEEDBUSY 0)))) ∧
  -- A sweep begins.
  (∀ (s : State) (v : Word) (a : Acc),
    s.dev.takes 0xD180 a = true →
    fld v.toNat 1 1 = 0 →
    fld v.toNat 16 8 ≠ 0 →
    s.dev.on F.LM_STAT_SWPBUSY = false →
    s.dev.rd F.LM_SWP_DIX_FIRST ≤ s.dev.rd F.LM_SWP_DIX_LAST →
    s.dev.rd F.LM_SWP_BLK_FIRST ≤ s.dev.rd F.LM_SWP_BLK_LAST →
    ∃ t, exec (.lmSweepGo v a) s = .next t ∧ t.dev.rd F.LM_STAT_SWPBUSY = 1 ∧ t.dev.rd F.LM_SWP_CTL_GO = 1 ∧
      t.dev.rd F.LM_SWP_CTL_MODE = fld v.toNat 2 1 ∧ t.dev.rd F.LM_SWP_CTL_CONFMAX = fld v.toNat 8 4 ∧ t.dev.rd F.LM_SWP_CTL_RATE = fld v.toNat 16 8 ∧
      t.dev.lm = { s.dev.lm with sweep := some (s.dev.rd F.LM_SWP_DIX_FIRST, s.dev.rd F.LM_SWP_BLK_FIRST / 2 * 2), stop := false } ∧
      t = s.withDev { s.dev with regs := t.dev.regs, lm := t.dev.lm, port := t.dev.port } ∧ s.dev.onlyAt [(0xD104, 0xD104), (0xD180, 0xD180)] t.dev) ∧
  -- The next unit.
  (∀ (s : State) (x : Nat) (b : Nat),
    s.dev.live = true →
    s.dev.lm.sweep = some (x, b) →
    s.dev.lm.unitBusy = false →
    s.dev.lm.stop = false →
    s.dev.lm.writes = [] →
    ∃ t, exec (.lmSweepUnit) s = .next t ∧ t.dev.rd F.LM_SWP_POS_DIX = x % 2 ^ 10 ∧ t.dev.rd F.LM_SWP_POS_BLOCK = b % 2 ^ 13 ∧
      t.dev.lm = { s.dev.lm with unitBusy := true } ∧ t.dev.rd F.LM_STAT_IDLE = 0 ∧
      t.dev.fab = (request (dixCl x) false { what := .sweepUnitRead (x * 2 ^ 14 + b * 2), addr := s.dev.rd64 F.LM_BASE_LO_ADDR F.LM_BASE_HI_ADDR + 16 * (x * 2 ^ 14 + b * 2), len := 64 } s.dev).fab ∧
      t = s.withDev { s.dev with regs := t.dev.regs, dma := t.dev.dma, fab := t.dev.fab, lm := t.dev.lm } ∧
      s.dev.onlyAt [(0xD104, 0xD104), (0xD18C, 0xD18C)] t.dev) ∧
  -- A stop between units.
  (∀ (s : State) (v : Word) (a : Acc),
    s.dev.takes 0xD180 a = true →
    fld v.toNat 0 1 = 0 →
    fld v.toNat 2 1 = s.dev.rd F.LM_SWP_CTL_MODE →
    fld v.toNat 8 4 = s.dev.rd F.LM_SWP_CTL_CONFMAX →
    fld v.toNat 16 8 = s.dev.rd F.LM_SWP_CTL_RATE →
    fld v.toNat 16 8 ≠ 0 →
    s.dev.on F.LM_STAT_SWPBUSY = true →
    s.dev.lm.unitBusy = false →
    ∃ t, exec (.lmSweepStop v a) s = .next t ∧ t.dev.lm = { s.dev.lm with stop := true, sweep := none } ∧ t.dev.rd F.LM_SWP_CTL_STOP = 1 ∧
      t.dev.rd F.LM_STAT_SWPBUSY = 1 ∧ t = s.withDev { s.dev with regs := t.dev.regs, lm := t.dev.lm, port := t.dev.port } ∧
      s.dev.onlyAt [(0xD104, 0xD104), (0xD180, 0xD180)] t.dev) ∧
  -- The sweep ends.
  (∀ (s : State),
    s.dev.live = true →
    s.dev.on F.LM_STAT_SWPBUSY = true →
    s.dev.lm.sweep = none →
    exec (.lmSweepEnd) s = .next (s.withDev (produce 0x78 (raise 0x7E ((((({ s.dev with lm := { s.dev.lm with stop := false } } : Dev).wr F.LM_STAT_SWPBUSY 0).wr F.LM_STAT_SWPDONE 1).wr F.LM_SWP_CTL_STOP 0).wr F.LM_SWP_CTL_GO 0)))))

/-- The six commands of the parity accumulators. OPEN of an IDLE accumulator, with region 3 ready, zeroes it and its masks
and makes it OPEN. FORCE of an OPEN one without claims begins emission, SPILL begins its copy to memory, RESTORE of an
IDLE one begins to read an image, RELEASE of a DONE or FAILED one and ABORT of one without claims make it IDLE, and
ABORT with claims waits for them. Elsewhere a command sets CMDERR and is counted. While the fail-safe state or a power
fail holds, each is dropped and counted alone (the model's choice, assumption 102). (R210, R214, R215) Commands said
to answer a next state: accOpen, accForce, accAbort, accSpill, accRestore, accRelease. -/
def Obligations.AccumulatorCommands : Prop :=
  -- OPEN.
  (∀ (s : State) (a : Acc),
    s.dev.takes 0xE210 a = true →
    s.dev.on F.FS_STAT_ACTIVE = false →
    s.dev.fs.pfail = false →
    s.dev.rd F.ACC_STAT_STATE (s.dev.named 0xE210 a) = 0 →
    s.dev.on F.ACC_STAT_ABORTING (s.dev.named 0xE210 a) = false →
    regionReady s.dev 3 = true →
    ∃ t, exec (.accOpen a) s = .next t ∧ t.dev.rd F.ACC_STAT_STATE (s.dev.named 0xE210 a) = 1 ∧
      t.dev.rd F.ACC_CLAIM_LO_MASK (s.dev.named 0xE210 a) = 0 ∧ t.dev.rd F.ACC_CLAIM_HI_MASK (s.dev.named 0xE210 a) = 0 ∧
      t.dev.rd F.ACC_TAKEN_LO_MASK (s.dev.named 0xE210 a) = 0 ∧ t.dev.rd F.ACC_TAKEN_HI_MASK (s.dev.named 0xE210 a) = 0 ∧
      t.dev.rd F.ACC_DROP_LO_MASK (s.dev.named 0xE210 a) = 0 ∧ t.dev.rd F.ACC_DROP_HI_MASK (s.dev.named 0xE210 a) = 0 ∧
      t.dev.rd F.ACC_FAIL_LO_MASK (s.dev.named 0xE210 a) = 0 ∧ t.dev.rd F.ACC_FAIL_HI_MASK (s.dev.named 0xE210 a) = 0 ∧
      t.dev.rd F.ACC_STAT_CLOSED (s.dev.named 0xE210 a) = 0 ∧ t.dev.rd F.ACC_STAT_LAST (s.dev.named 0xE210 a) = 0 ∧
      t.dev.rd F.ACC_STAT_SYNMASK (s.dev.named 0xE210 a) = 0 ∧ t.dev.rd F.ACC_RTAG_RCVD (s.dev.named 0xE210 a) = 0 ∧
      t.dev.accu (s.dev.named 0xE210 a) = { takes := (s.dev.accu (s.dev.named 0xE210 a)).takes } ∧
      t = s.withDev { s.dev with regs := t.dev.regs, acc := t.dev.acc, mp := t.dev.mp, port := t.dev.port } ∧
      s.dev.onlyAt [(0xE210, 0xE234), (0xE248, 0xE250)] t.dev) ∧
  -- Refused: CMDERR and the count.
  (∀ (s : State) (a : Acc),
    s.dev.takes 0xE210 a = true →
    s.dev.on F.FS_STAT_ACTIVE = false →
    s.dev.fs.pfail = false →
    s.dev.rd F.ACC_STAT_STATE (s.dev.named 0xE210 a) ≠ 0 ∨ regionReady s.dev 3 = false →
    exec (.accOpen a) s = .next (s.withDev (((s.dev.wr F.ACC_STAT_CMDERR 1 (s.dev.named 0xE210 a)).wr F.ACC_CNT_CMDDROP (satAdd 16 (s.dev.rd F.ACC_CNT_CMDDROP) 1)).acked 0))) ∧
  -- FORCE.
  (∀ (s : State) (a : Acc),
    s.dev.takes 0xE210 a = true →
    s.dev.on F.FS_STAT_ACTIVE = false →
    s.dev.fs.pfail = false →
    s.dev.rd F.ACC_STAT_STATE (s.dev.named 0xE210 a) = 1 →
    s.dev.on F.ACC_STAT_ABORTING (s.dev.named 0xE210 a) = false →
    accClaim s.dev (s.dev.named 0xE210 a) = 0 →
    isSender s.dev (s.dev.named 0xE210 a) = false →
    ∃ t, exec (.accForce a) s = .next t ∧ t.dev.rd F.ACC_STAT_STATE (s.dev.named 0xE210 a) = 2 ∧ (t.dev.accu (s.dev.named 0xE210 a)).bad = false ∧
      (t.dev.accu (s.dev.named 0xE210 a)).slots = (s.dev.accu (s.dev.named 0xE210 a)).slots ∧
      t = s.withDev { s.dev with regs := t.dev.regs, acc := t.dev.acc, dma := t.dev.dma, fab := t.dev.fab, port := t.dev.port, ring := t.dev.ring } ∧
      s.dev.onlyAt [(0xE210, 0xE214), (0xE248, 0xE248)] t.dev) ∧
  -- Refused: CMDERR and the count.
  (∀ (s : State) (a : Acc),
    s.dev.takes 0xE210 a = true →
    s.dev.on F.FS_STAT_ACTIVE = false →
    s.dev.fs.pfail = false →
    accClaim s.dev (s.dev.named 0xE210 a) ≠ 0 →
    exec (.accForce a) s = .next (s.withDev (((s.dev.wr F.ACC_STAT_CMDERR 1 (s.dev.named 0xE210 a)).wr F.ACC_CNT_CMDDROP (satAdd 16 (s.dev.rd F.ACC_CNT_CMDDROP) 1)).acked 0))) ∧
  -- ABORT without claims.
  (∀ (s : State) (a : Acc),
    s.dev.takes 0xE210 a = true →
    s.dev.on F.FS_STAT_ACTIVE = false →
    s.dev.fs.pfail = false →
    (s.dev.rd F.ACC_STAT_STATE (s.dev.named 0xE210 a) = 1 ∨ s.dev.rd F.ACC_STAT_STATE (s.dev.named 0xE210 a) = 3 ∨ s.dev.rd F.ACC_STAT_STATE (s.dev.named 0xE210 a) = 5) →
    s.dev.on F.ACC_STAT_ABORTING (s.dev.named 0xE210 a) = false →
    accClaim s.dev (s.dev.named 0xE210 a) = 0 →
    exec (.accAbort a) s = .next (s.withDev (({ ((((s.dev.wr F.ACC_STAT_STATE 0 (s.dev.named 0xE210 a)).wr F.ACC_STAT_ABORTING 0 (s.dev.named 0xE210 a)).wr F.ACC_STAT_UE 0 (s.dev.named 0xE210 a)).wr F.ACC_STAT_EMITERR 0 (s.dev.named 0xE210 a)).wr F.ACC_STAT_MOVERR 0 (s.dev.named 0xE210 a) with
      acc := putD s.dev.acc (s.dev.named 0xE210 a) { takes := (s.dev.accu (s.dev.named 0xE210 a)).takes.map fun x => { x with lost := true } } {} } : Dev).acked 0))) ∧
  -- ABORT with claims.
  (∀ (s : State) (a : Acc),
    s.dev.takes 0xE210 a = true →
    s.dev.on F.FS_STAT_ACTIVE = false →
    s.dev.fs.pfail = false →
    (s.dev.rd F.ACC_STAT_STATE (s.dev.named 0xE210 a) = 1 ∨ s.dev.rd F.ACC_STAT_STATE (s.dev.named 0xE210 a) = 3 ∨ s.dev.rd F.ACC_STAT_STATE (s.dev.named 0xE210 a) = 5) →
    s.dev.on F.ACC_STAT_ABORTING (s.dev.named 0xE210 a) = false →
    accClaim s.dev (s.dev.named 0xE210 a) ≠ 0 →
    exec (.accAbort a) s = .next (s.withDev (((((s.dev.wr F.ACC_STAT_UE 0 (s.dev.named 0xE210 a)).wr F.ACC_STAT_EMITERR 0 (s.dev.named 0xE210 a)).wr F.ACC_STAT_MOVERR 0 (s.dev.named 0xE210 a)).wr F.ACC_STAT_ABORTING 1 (s.dev.named 0xE210 a)).acked 0))) ∧
  -- Refused: CMDERR and the count.
  (∀ (s : State) (a : Acc),
    s.dev.takes 0xE210 a = true →
    s.dev.on F.FS_STAT_ACTIVE = false →
    s.dev.fs.pfail = false →
    (s.dev.rd F.ACC_STAT_STATE (s.dev.named 0xE210 a) = 0 ∨ s.dev.rd F.ACC_STAT_STATE (s.dev.named 0xE210 a) = 2 ∨ s.dev.rd F.ACC_STAT_STATE (s.dev.named 0xE210 a) = 4) →
    exec (.accAbort a) s = .next (s.withDev (((s.dev.wr F.ACC_STAT_CMDERR 1 (s.dev.named 0xE210 a)).wr F.ACC_CNT_CMDDROP (satAdd 16 (s.dev.rd F.ACC_CNT_CMDDROP) 1)).acked 0))) ∧
  -- SPILL.
  (∀ (s : State) (a : Acc),
    s.dev.takes 0xE210 a = true →
    s.dev.on F.FS_STAT_ACTIVE = false →
    s.dev.fs.pfail = false →
    s.dev.rd F.ACC_STAT_STATE (s.dev.named 0xE210 a) = 1 →
    s.dev.on F.ACC_STAT_ABORTING (s.dev.named 0xE210 a) = false →
    accClaim s.dev (s.dev.named 0xE210 a) = 0 →
    ∃ t, exec (.accSpill a) s = .next t ∧ t.dev.rd F.ACC_STAT_STATE (s.dev.named 0xE210 a) = 4 ∧ (t.dev.accu (s.dev.named 0xE210 a)).spilling = true ∧
      (t.dev.accu (s.dev.named 0xE210 a)).bad = false ∧ (t.dev.accu (s.dev.named 0xE210 a)).slots = (s.dev.accu (s.dev.named 0xE210 a)).slots ∧
      t = s.withDev { s.dev with regs := t.dev.regs, acc := t.dev.acc, dma := t.dev.dma, fab := t.dev.fab, port := t.dev.port } ∧
      s.dev.onlyAt [(0xE210, 0xE214), (0xE248, 0xE248)] t.dev) ∧
  -- Refused: CMDERR and the count.
  (∀ (s : State) (a : Acc),
    s.dev.takes 0xE210 a = true →
    s.dev.on F.FS_STAT_ACTIVE = false →
    s.dev.fs.pfail = false →
    s.dev.rd F.ACC_STAT_STATE (s.dev.named 0xE210 a) ≠ 1 →
    exec (.accSpill a) s = .next (s.withDev (((s.dev.wr F.ACC_STAT_CMDERR 1 (s.dev.named 0xE210 a)).wr F.ACC_CNT_CMDDROP (satAdd 16 (s.dev.rd F.ACC_CNT_CMDDROP) 1)).acked 0))) ∧
  -- RESTORE.
  (∀ (s : State) (a : Acc),
    s.dev.takes 0xE210 a = true →
    s.dev.on F.FS_STAT_ACTIVE = false →
    s.dev.fs.pfail = false →
    s.dev.rd F.ACC_STAT_STATE (s.dev.named 0xE210 a) = 0 →
    s.dev.on F.ACC_STAT_ABORTING (s.dev.named 0xE210 a) = false →
    regionReady s.dev 3 = true →
    ∃ t, exec (.accRestore a) s = .next t ∧ t.dev.rd F.ACC_STAT_STATE (s.dev.named 0xE210 a) = 4 ∧
      (t.dev.accu (s.dev.named 0xE210 a)).spilling = false ∧ (t.dev.accu (s.dev.named 0xE210 a)).image = [] ∧
      t = s.withDev { s.dev with regs := t.dev.regs, acc := t.dev.acc, dma := t.dev.dma, fab := t.dev.fab, port := t.dev.port } ∧
      s.dev.onlyAt [(0xE210, 0xE214), (0xE248, 0xE248)] t.dev) ∧
  -- Refused: CMDERR and the count.
  (∀ (s : State) (a : Acc),
    s.dev.takes 0xE210 a = true →
    s.dev.on F.FS_STAT_ACTIVE = false →
    s.dev.fs.pfail = false →
    s.dev.rd F.ACC_STAT_STATE (s.dev.named 0xE210 a) ≠ 0 ∨ regionReady s.dev 3 = false →
    exec (.accRestore a) s = .next (s.withDev (((s.dev.wr F.ACC_STAT_CMDERR 1 (s.dev.named 0xE210 a)).wr F.ACC_CNT_CMDDROP (satAdd 16 (s.dev.rd F.ACC_CNT_CMDDROP) 1)).acked 0))) ∧
  -- RELEASE.
  (∀ (s : State) (a : Acc),
    s.dev.takes 0xE210 a = true →
    s.dev.on F.FS_STAT_ACTIVE = false →
    s.dev.fs.pfail = false →
    (s.dev.rd F.ACC_STAT_STATE (s.dev.named 0xE210 a) = 3 ∨ s.dev.rd F.ACC_STAT_STATE (s.dev.named 0xE210 a) = 5) →
    s.dev.on F.ACC_STAT_ABORTING (s.dev.named 0xE210 a) = false →
    exec (.accRelease a) s = .next (s.withDev (({ ((((s.dev.wr F.ACC_STAT_STATE 0 (s.dev.named 0xE210 a)).wr F.ACC_STAT_ABORTING 0 (s.dev.named 0xE210 a)).wr F.ACC_STAT_UE 0 (s.dev.named 0xE210 a)).wr F.ACC_STAT_EMITERR 0 (s.dev.named 0xE210 a)).wr F.ACC_STAT_MOVERR 0 (s.dev.named 0xE210 a) with
      acc := putD s.dev.acc (s.dev.named 0xE210 a) { takes := (s.dev.accu (s.dev.named 0xE210 a)).takes.map fun x => { x with lost := true } } {} } : Dev).acked 0))) ∧
  -- Refused: CMDERR and the count.
  (∀ (s : State) (a : Acc),
    s.dev.takes 0xE210 a = true →
    s.dev.on F.FS_STAT_ACTIVE = false →
    s.dev.fs.pfail = false →
    s.dev.rd F.ACC_STAT_STATE (s.dev.named 0xE210 a) = 1 →
    exec (.accRelease a) s = .next (s.withDev (((s.dev.wr F.ACC_STAT_CMDERR 1 (s.dev.named 0xE210 a)).wr F.ACC_CNT_CMDDROP (satAdd 16 (s.dev.rd F.ACC_CNT_CMDDROP) 1)).acked 0))) ∧
  -- In the fail-safe state and under a power fail each is dropped and counted, and no status changes (assumption 102).
  (∀ (s : State) (a : Acc) (x : State),
    s.dev.takes 0xE210 a = true →
    s.dev.on F.FS_STAT_ACTIVE = true ∨ s.dev.fs.pfail = true →
    x = s.withDev ((s.dev.wr F.ACC_CNT_CMDDROP (satAdd 16 (s.dev.rd F.ACC_CNT_CMDDROP) 1)).acked 0) →
    exec (.accOpen a) s = .next x ∧ exec (.accForce a) s = .next x ∧ exec (.accAbort a) s = .next x ∧ exec (.accSpill a) s = .next x ∧
      exec (.accRestore a) s = .next x ∧ exec (.accRelease a) s = .next x)

/-- Accumulator transfers and the release of hold slots. A take that ends, in its cluster's turn of the exchange, moves
its member from the claims to the members taken and XORs its codewords into the slots; under ABORT the last claim
makes the accumulator IDLE. An emission whose writes are all answered OK is DONE: ACC_DONE, the count and spore 0x73;
one with a failed write is FAILED with EMITERR. A spill that has been written leaves the accumulator IDLE; one with a
bus error, or a restored image without its magic, is FAILED with MOVERR. WR_HOLDREL frees the slots its bits name.
(R205, R210, R212, R214, R215, R217) Commands said to answer a next state: accTakeEnd, accEmitEnd, accMoveEnd,
wrHoldrel. -/
def Obligations.AccumulatorTransfers : Prop :=
  -- A take ends.
  (∀ (s : State) (n : Fin 64) (m : Fin 64) (k : Take) (r : List Take),
    s.dev.live = true →
    (s.dev.accu n).takes = k :: r →
    k.member = m →
    xchTurn s.dev 4 (takeClusters s.dev) = some (dixCl (startedDie (s.dev.cell k.cell))) →
    k.lost = false →
    bit (accClaim s.dev n) m = true →
    s.dev.on F.ACC_STAT_ABORTING n = false →
    s.dev.rd F.ACC_STAT_STATE n = 1 →
    s.dev.on F.ACC_STAT_CLOSED n = false →
    ∃ t, exec (.accTakeEnd n m {}) s = .next t ∧ bit (accClaim t.dev n) m = false ∧ bit (accTaken t.dev n) m = true ∧
      (∀ i : Fin 64, i ≠ m → bit (accClaim t.dev n) i = bit (accClaim s.dev n) i ∧ bit (accTaken t.dev n) i = bit (accTaken s.dev n) i) ∧
      (t.dev.accu n).slots = xorSlots k.cws 0 (s.dev.accu n).slots ∧ (t.dev.accu n).takes = r ∧ (t.dev.cell k.cell).taking = false ∧
      t.dev.rd F.ACC_STAT_STATE n = 1 ∧
      t = s.withDev { s.dev with regs := t.dev.regs, acc := t.dev.acc, cells := t.dev.cells, dma := t.dev.dma, fab := t.dev.fab, int := t.dev.int, mp := t.dev.mp, ring := t.dev.ring, xch := t.dev.xch }) ∧
  -- The last claim under ABORT.
  (∀ (s : State) (n : Fin 64) (m : Fin 64) (k : Take),
    s.dev.live = true →
    (s.dev.accu n).takes = [k] →
    k.member = m →
    xchTurn s.dev 4 (takeClusters s.dev) = some (dixCl (startedDie (s.dev.cell k.cell))) →
    k.lost = false →
    accClaim s.dev n = 2 ^ m.val →
    s.dev.on F.ACC_STAT_ABORTING n = true →
    ∃ t, exec (.accTakeEnd n m {}) s = .next t ∧ accClaim t.dev n = 0 ∧ t.dev.rd F.ACC_STAT_STATE n = 0 ∧ t.dev.rd F.ACC_STAT_ABORTING n = 0 ∧
      t.dev.accu n = {} ∧
      t = s.withDev { s.dev with regs := t.dev.regs, acc := t.dev.acc, cells := t.dev.cells, dma := t.dev.dma, fab := t.dev.fab, int := t.dev.int, mp := t.dev.mp, ring := t.dev.ring, xch := t.dev.xch }) ∧
  -- An emission is done.
  (∀ (s : State) (n : Fin 64),
    s.dev.live = true →
    s.dev.rd F.ACC_STAT_STATE n = 2 →
    (s.dev.accu n).left = 0 →
    (s.dev.accu n).waitAck = false →
    (s.dev.accu n).bad = false →
    ∃ t, exec (.accEmitEnd n .clean) s = .next t ∧ t.dev.rd F.ACC_STAT_STATE n = 3 ∧ t.dev.rd F.ACC_CNT_EMIT = satAdd 16 (s.dev.rd F.ACC_CNT_EMIT) 1 ∧
      (if n.val < 32 then bit (t.dev.rd F.ACC_DONE_LO_DONE) n else bit (t.dev.rd F.ACC_DONE_HI_DONE) (n.val - 32)) = true ∧ t.dev.acc = s.dev.acc ∧
      t = s.withDev { s.dev with regs := t.dev.regs, acc := t.dev.acc, int := t.dev.int, mp := t.dev.mp, ring := t.dev.ring, spr := t.dev.spr } ∧
      s.dev.onlyAt [(0x400C, 0x400C), (0x4804, 0x48FC), (0x8018, 0x802C), (0x8100, 0x812C), (0xC200, 0xC200), (0xE214, 0xE214), (0xE240, 0xE248)] t.dev) ∧
  -- An emission has failed.
  (∀ (s : State) (n : Fin 64),
    s.dev.live = true →
    s.dev.rd F.ACC_STAT_STATE n = 2 →
    (s.dev.accu n).left = 0 →
    (s.dev.accu n).waitAck = false →
    (s.dev.accu n).bad = true →
    exec (.accEmitEnd n .clean) s = .next (s.withDev ((s.dev.wr F.ACC_STAT_STATE 5 n).wr F.ACC_STAT_EMITERR 1 n))) ∧
  -- A spill is in memory.
  (∀ (s : State) (n : Fin 64),
    s.dev.live = true →
    s.dev.rd F.ACC_STAT_STATE n = 4 →
    (s.dev.accu n).left = 0 →
    (s.dev.accu n).bad = false →
    (s.dev.accu n).spilling = true →
    ∃ t, exec (.accMoveEnd n .clean) s = .next t ∧ t.dev.rd F.ACC_STAT_STATE n = 0 ∧
      t.dev.accu n = { takes := (s.dev.accu n).takes.map fun x => { x with lost := true } } ∧ t.dev.rd F.ACC_STAT_MOVERR n = 0 ∧
      t = s.withDev { s.dev with regs := t.dev.regs, acc := t.dev.acc, dma := t.dev.dma, int := t.dev.int, mp := t.dev.mp } ∧
      s.dev.onlyAt [(0x400C, 0x400C), (0x4804, 0x48FC), (0x8018, 0x802C), (0x8100, 0x812C), (0xC200, 0xC200), (0xE204, 0xE234)] t.dev) ∧
  -- A spill or restore with a bus error.
  (∀ (s : State) (n : Fin 64),
    s.dev.live = true →
    s.dev.rd F.ACC_STAT_STATE n = 4 →
    (s.dev.accu n).left = 0 →
    (s.dev.accu n).bad = true →
    exec (.accMoveEnd n .clean) s = .next (s.withDev ((s.dev.wr F.ACC_STAT_STATE 5 n).wr F.ACC_STAT_MOVERR 1 n))) ∧
  -- A restored image without its magic.
  (∀ (s : State) (n : Fin 64),
    s.dev.live = true →
    s.dev.rd F.ACC_STAT_STATE n = 4 →
    (s.dev.accu n).left = 0 →
    (s.dev.accu n).bad = false →
    (s.dev.accu n).spilling = false →
    leAt (flatImage (s.dev.accu n).image) 65536 4 ≠ 0x50415331 →
    exec (.accMoveEnd n .clean) s = .next (s.withDev ((s.dev.wr F.ACC_STAT_STATE 5 n).wr F.ACC_STAT_MOVERR 1 n))) ∧
  -- A hold slot is released.
  (∀ (s : State) (v : Word) (a : Acc) (k : Fin 4),
    s.dev.takes 0x1318 a = true →
    fld v.toNat 0 4 = 2 ^ k.val →
    ∃ t, exec (.wrHoldrel v a) s = .next t ∧ t.dev.rd (F.WR_HOLD_V.ix k) (s.dev.named 0x1318 a) = 0 ∧
      bit (t.dev.rd F.WR_STAT_HELD (s.dev.named 0x1318 a)) k = false ∧ look (t.dev.chn (s.dev.named 0x1318 a)).holds k = none ∧
      look (t.dev.chn (s.dev.named 0x1318 a)).holdStg k = none ∧
      (∀ j : Fin 4, j ≠ k → t.dev.rd (F.WR_HOLD_V.ix j) (s.dev.named 0x1318 a) = s.dev.rd (F.WR_HOLD_V.ix j) (s.dev.named 0x1318 a)) ∧
      t = s.withDev { s.dev with regs := t.dev.regs, chs := t.dev.chs, port := t.dev.port } ∧ s.dev.onlyAt [(0x1304, 0x1318)] t.dev)

/-- Traverse: streams, bitmaps and the encode of a COPY. The commit that waits for Traverse applies, and the head of a
queue that is a COPY takes the lowest free stream of its source cluster. Its bitmap, cut to the codewords it names, is
kept and the invalid ones are counted; one that a bus error took ends the ticket with 0x50 and detail 4. The codewords
of a COPY between its sides that its channel encodes next, and whose cluster has its turn of the exchange, are encoded
into the target staging, its source staging is free, and without a second bitmap read the target side is placed as
started work of the target channel. A second bitmap drops the codewords it no longer marks. (R226, R227, R228, R229,
R230, R232, R234) Commands said to answer a next state: traverseStreamTake, bitmapReadReturn, copyEncodeEnd,
bitmapRecheckReturn. -/
def Obligations.TraverseSteps : Prop :=
  -- A stream is taken.
  (∀ (s : State) (k : Fin 1048576) (x : Cell) (d : Dev) (n : Nat),
    s.dev.live = true →
    look s.dev.cells k = some x →
    tOpc x.tkt = opCopy →
    x.started = false →
    x.out = none →
    d = commitPoint 1 (dixCl x.dix) 0 s.dev →
    s.dev.adm.halted = false →
    s.dev.rd F.PM_STAT_STATE ≠ 2 →
    (s.dev.queue (cellKey x)).head? = some k.val →
    x.stream = none →
    x.tprof = none →
    d.on F.TRV_CFG_EN (dixCl x.dix) = true →
    popc 4 (d.rd F.TRV_STAT_BUSY (dixCl x.dix)) < d.rd F.TRV_CFG_STREAMS (dixCl x.dix) + 1 →
    (List.range 4).find? (fun j => !bit (d.rd F.TRV_STAT_BUSY (dixCl x.dix)) j) = some n →
    x.prof = none →
    check10 d x = true →
    (profile d (tCprof x.tkt)).raw = false →
    (profile d (tTprof x.tkt)).raw = false →
    stagingFits d (dixCh x.dix) (stagingNeed d x.tkt) = false →
    ∃ t, exec (.traverseStreamTake k) s = .next t ∧ (t.dev.cell k).stream = some n ∧ bit (t.dev.rd F.TRV_STAT_BUSY (dixCl x.dix)) n = true ∧
      t.dev.rd (F.TRV_STR_SRCDIX.ix n) (dixCl x.dix) = x.dix % 2 ^ 10 ∧ t.dev.rd (F.TRV_STR_TGTDIX.ix n) (dixCl x.dix) = x.tdix % 2 ^ 10 ∧
      t.dev.rd (F.TRV_STR_XCL.ix n) (dixCl x.dix) = b2n (dixCl x.tdix != dixCl x.dix) ∧ t.dev.fab = s.dev.fab) ∧
  -- The bitmap arrives.
  (∀ (s : State) (k : Fin 1048576) (x : Cell) (a : Answer) (r : List Answer) (b : Nat),
    s.dev.live = true →
    s.dev.answers = a :: r →
    a.what = .bitmap k →
    a.code = 0 →
    look s.dev.cells k = some x →
    x.stream.isSome = true →
    x.started = false →
    x.out = none →
    b = leAt a.bytes 0 8 % 2 ^ cwTotal x.tkt →
    b ≠ 0 ∨ s.dev.on F.TRV_CFG_EMPTY (dixCl x.dix) = false →
    exec (.bitmapReadReturn k) s = .next (s.withDev (({ s.dev with answers := r, cells := ins s.dev.cells k { x with bitmap := some b } } : Dev).wr F.TRV_SKIP_CNT (s.dev.rd F.TRV_SKIP_CNT (dixCl x.dix) + (cwTotal x.tkt - popc (cwTotal x.tkt) b)) (dixCl x.dix)))) ∧
  -- The bitmap could not be read.
  (∀ (s : State) (k : Fin 1048576) (x : Cell) (a : Answer) (r : List Answer),
    s.dev.live = true →
    s.dev.answers = a :: r →
    a.what = .bitmap k →
    a.code ≠ 0 →
    look s.dev.cells k = some x →
    x.stream.isSome = true →
    x.started = false →
    x.out = none →
    ∃ t, exec (.bitmapReadReturn k) s = .next t ∧ (t.dev.cell k).out = some { status := 0x50, detail := 4 } ∧ t.dev.answers = r ∧
      t = s.withDev { s.dev with regs := t.dev.regs, acc := t.dev.acc, adm := t.dev.adm, answers := t.dev.answers, cells := t.dev.cells, cq := t.dev.cq, dma := t.dev.dma, dq := t.dev.dq, fab := t.dev.fab, freeCtr := t.dev.freeCtr, int := t.dev.int } ∧
      s.dev.onlyAt [(0x2204, 0x222C), (0x3000, 0x3000), (0x3100, 0x310C), (0x400C, 0x400C), (0x4804, 0x48FC), (0xE008, 0xE008), (0xE084, 0xE084), (0xE214, 0xE22C)] t.dev) ∧
  -- Encode, without a second bitmap read.
  (∀ (s : State) (k : Fin 1048576) (x : Cell) (p : Prof),
    s.dev.live = true →
    look s.dev.cells k = some x →
    x.started = true →
    x.between = true →
    x.ready = false →
    x.out = none →
    x.tprof = some p →
    encodeNext s.dev (dixCh x.tdix) = some k.val →
    dixCl x.dix = dixCl x.tdix ∨ xchTurn s.dev (dixCl x.tdix) (encodeClusters s.dev (dixCl x.tdix)) = some (dixCl x.dix) →
    s.dev.on F.TRV_CFG_RECHECK (dixCl x.dix) = false →
    dieFenced s.dev x.tdix = false →
    ∃ t, exec (.copyEncodeEnd k) s = .next t ∧ (t.dev.cell k).ready = true ∧ (t.dev.cell k).coded = copyCodes x p ∧ (t.dev.cell k).plain = [] ∧
      (t.dev.cell k).stg = (if x.bitmap = some 0 then x.stg else 0) ∧ (t.dev.cell k).relocated = x.plain.length ∧
      ((t.dev.ctx (dixCh x.tdix) (s.dev.chn (dixCh x.tdix)).nextId).map fun y => (y.cells, y.work, y.dix, y.blk, y.page, y.planes)) = some ([k.val], .target, x.tdix, tTblock x.tkt, tTpage x.tkt, tTplanes x.tkt) ∧
      t.dev.fab = s.dev.fab ∧
      t = s.withDev { s.dev with regs := t.dev.regs, acc := t.dev.acc, adm := t.dev.adm, cells := t.dev.cells, chs := t.dev.chs, cls := t.dev.cls, cq := t.dev.cq, dma := t.dev.dma, dq := t.dev.dq, fab := t.dev.fab, freeCtr := t.dev.freeCtr, int := t.dev.int, xch := t.dev.xch }) ∧
  -- The second bitmap.
  (∀ (s : State) (k : Fin 1048576) (x : Cell) (p : Prof) (a : Answer) (r : List Answer) (g : List Nat),
    s.dev.live = true →
    s.dev.answers = a :: r →
    a.what = .bitmapAgain k →
    a.code = 0 →
    look s.dev.cells k = some x →
    x.recheck = true →
    x.out = none →
    x.tprof = some p →
    dieFenced s.dev x.tdix = false →
    g = (List.range (cwTotal x.tkt)).filter (fun m => bit (x.bitmap.getD 0) m && !bit (leAt a.bytes 0 8) m) →
    ∃ t, exec (.bitmapRecheckReturn k) s = .next t ∧ (t.dev.cell k).recheck = false ∧
      (t.dev.cell k).coded = g.foldl (fun c m => ins c m (List.replicate p.len 0)) x.coded ∧ (t.dev.cell k).relocated = x.relocated - g.length ∧
      t.dev.rd F.TRV_RCHK_DROPPED (dixCl x.dix) = satAdd F.TRV_RCHK_DROPPED.w (s.dev.rd F.TRV_RCHK_DROPPED (dixCl x.dix)) g.length ∧
      t.dev.answers = r ∧
      t = s.withDev { s.dev with regs := t.dev.regs, acc := t.dev.acc, adm := t.dev.adm, answers := t.dev.answers, cells := t.dev.cells, chs := t.dev.chs, cls := t.dev.cls, cq := t.dev.cq, dma := t.dev.dma, dq := t.dev.dq, fab := t.dev.fab, freeCtr := t.dev.freeCtr, int := t.dev.int })

/-- Enumeration starts; recovery polls and timeouts. CH_ENUM_GO on a channel that holds no ticket starts its enumeration
at target 0, at rate 0, with routine 0x040 as work without a ticket; while one runs it is counted as dropped. A
recovery poll acts only on a die in RECOVER: with RDY 0 it is charged alone, with RDY 1 the die is back in SERVICE
with one more consecutive timeout, and a line that is still low is then a fenced die's. A recovery timeout fences the
die with cause 1. (R252, R256, R258) Commands said to answer a next state: chEnumGo, recoveryPoll, recoveryTimeout. -/
def Obligations.EnumerationAndRecovery : Prop :=
  -- An enumeration starts.
  (∀ (s : State) (v : Word) (a : Acc),
    s.dev.takes 0x100C a = true →
    s.dev.on F.CH_STAT_ENUMBUSY (s.dev.named 0x100C a) = false →
    chHolds s.dev (s.dev.named 0x100C a) = false →
    ((List.range 4).all fun l => !dieFenced s.dev (32 * (s.dev.named 0x100C a) + l)) = true →
    (s.dev.chs).all (fun p => p.2.ctxs.isEmpty) = true →
    ∃ t, exec (.chEnumGo v a) s = .next t ∧ t.dev.rd F.CH_STAT_ENUMBUSY (s.dev.named 0x100C a) = 1 ∧ t.dev.rd F.CH_ENUM_GO (s.dev.named 0x100C a) = 1 ∧
      t.dev.rd F.CH_STAT_RATE (s.dev.named 0x100C a) = 0 ∧
      (t.dev.chn (s.dev.named 0x100C a)).enum.map (fun e => { e with saved := [], maxok := 0 }) = some {} ∧
      ((t.dev.ctx (s.dev.named 0x100C a) (s.dev.chn (s.dev.named 0x100C a)).nextId).map fun y => (y.work, y.dix, y.rix)) = some (.enum, 32 * (s.dev.named 0x100C a), 0x040) ∧
      t.dev.cells = s.dev.cells) ∧
  -- While one runs.
  (∀ (s : State) (v : Word) (a : Acc),
    s.dev.takes 0x100C a = true →
    s.dev.on F.CH_STAT_ENUMBUSY (s.dev.named 0x100C a) = true →
    ∃ t, exec (.chEnumGo v a) s = .next t ∧
      t.dev.rd F.CH_ENUM_DROP (s.dev.named 0x100C a) = satAdd 8 (s.dev.rd F.CH_ENUM_DROP (s.dev.named 0x100C a)) 1 ∧
      t.dev.rd F.CH_STAT_RATE (s.dev.named 0x100C a) = s.dev.rd F.CH_STAT_RATE (s.dev.named 0x100C a) ∧ t.dev.chs = s.dev.chs) ∧
  -- A poll of a die that is ready.
  (∀ (s : State) (x : Fin 1024) (st : Nat) (ns : Nat),
    s.dev.live = true →
    rbSampled s.dev (dixCh x) = true →
    s.dev.rd F.DIE_STAT_STATE x = 2 →
    st.testBit 6 = true →
    s.dev.on F.DIE_CFG_AUTOFENCE x = false ∨ satAdd 8 (s.dev.rd F.DIE_STAT_TOCONS x) 1 < s.dev.rd F.DIE_CFG_TOLIM x →
    exec (.recoveryPoll x st ns) s = .next (s.withDev (latchAll (heldLow x (((chargeSysBus ns s.dev).wr F.DIE_STAT_STATE 1 x).wr F.DIE_STAT_TOCONS (satAdd 8 (s.dev.rd F.DIE_STAT_TOCONS x) 1) x))))) ∧
  -- A poll of a die that is busy.
  (∀ (s : State) (x : Fin 1024) (st : Nat) (ns : Nat),
    s.dev.live = true →
    rbSampled s.dev (dixCh x) = true →
    s.dev.rd F.DIE_STAT_STATE x = 2 →
    st.testBit 6 = false →
    exec (.recoveryPoll x st ns) s = .next (s.withDev (latchAll (chargeSysBus ns s.dev)))) ∧
  -- A poll of a die that does not recover.
  (∀ (s : State) (x : Fin 1024) (st : Nat) (ns : Nat),
    s.dev.rd F.DIE_STAT_STATE x ≠ 2 →
    exec (.recoveryPoll x st ns) s = .next (s.withDev (whenLive latchAll s.dev))) ∧
  -- The timeout.
  (∀ (s : State) (x : Fin 1024),
    s.dev.live = true →
    s.dev.chs = [] →
    s.dev.cells = [] →
    s.dev.rd F.DIE_STAT_STATE x = 2 →
    s.dev.lift.reqs = [] →
    s.dev.dq = [] →
    ∃ t, exec (.recoveryTimeout x) s = .next t ∧ t.dev.rd F.DIE_STAT_STATE x = 3 ∧ t.dev.rd F.DIE_STAT_FCAUSE x = 1 ∧
      bit t.dev.int.pend (0x70 + x / 256) = true)

/-- Fence, admit and clear of a die, and the polling fallback. DIE_FENCE fences an idle die with cause 0 and raises the
source of its cluster; a FENCED die stays as it is. DIE_ADMIT puts a die in PROBATION in SERVICE and is a write error
with cause 3 elsewhere. DIE_TOCLR clears the consecutive timeouts. A group whose line stays low with no die busy
enters the fallback, with a count and the source of its cluster; it leaves it on a quiet line when AUTOEXIT is 1, or
by EXIT. (R258, R261, R262, R267) Commands said to answer a next state: dieFence, dieAdmit, dieToclr, rbFallbackEntry,
rbFallbackQuiet, chRbExit. -/
def Obligations.DieControl : Prop :=
  -- Fence.
  (∀ (s : State) (a : Acc),
    s.dev.takes 0x3004 a = true →
    s.dev.rd F.DIE_STAT_STATE (s.dev.named 0x3004 a) ≠ 3 →
    s.dev.live = true →
    s.dev.chs = [] →
    s.dev.cells = [] →
    s.dev.lift.reqs = [] →
    s.dev.dq = [] →
    ∃ t, exec (.dieFence a) s = .next t ∧ t.dev.rd F.DIE_STAT_STATE (s.dev.named 0x3004 a) = 3 ∧
      t.dev.rd F.DIE_STAT_FCAUSE (s.dev.named 0x3004 a) = 0 ∧ bit t.dev.int.pend (0x70 + (s.dev.named 0x3004 a) / 256) = true) ∧
  -- A FENCED die.
  (∀ (s : State) (a : Acc),
    s.dev.takes 0x3004 a = true →
    s.dev.rd F.DIE_STAT_STATE (s.dev.named 0x3004 a) = 3 →
    exec (.dieFence a) s = .next (s.withDev (s.dev.acked 0))) ∧
  -- Admit.
  (∀ (s : State) (a : Acc),
    s.dev.takes 0x3004 a = true →
    s.dev.rd F.DIE_STAT_STATE (s.dev.named 0x3004 a) = 4 →
    exec (.dieAdmit a) s = .next (s.withDev ((s.dev.wr F.DIE_STAT_STATE 1 (s.dev.named 0x3004 a)).acked 0))) ∧
  -- Admit elsewhere.
  (∀ (s : State) (a : Acc),
    s.dev.takes 0x3004 a = true →
    s.dev.rd F.DIE_STAT_STATE (s.dev.named 0x3004 a) ≠ 4 →
    exec (.dieAdmit a) s = .next (s.withDev ((s.dev.writeError 0x3004 a (s.dev.named 0x3004 a) 3).acked 0))) ∧
  -- Clear.
  (∀ (s : State) (a : Acc),
    s.dev.takes 0x3004 a = true →
    exec (.dieToclr a) s = .next (s.withDev ((s.dev.wr F.DIE_STAT_TOCONS 0 (s.dev.named 0x3004 a)).acked 0))) ∧
  -- The fallback is entered.
  (∀ (s : State) (c : Fin 32) (g : Fin 2),
    s.dev.live = true →
    rbSampled s.dev c = true →
    bit (s.dev.rd F.CH_RB_FB c) g = false →
    bit (s.dev.chn c).rb g = false →
    groupBusy s.dev c g = [] →
    exec (.rbFallbackEntry c g) s = .next (s.withDev (raise (0x74 + c / 8) ((s.dev.wr F.CH_RB_FB (setBit (s.dev.rd F.CH_RB_FB c) g) c).wr F.CH_CNT_FBENTRY (satAdd 16 (s.dev.rd F.CH_CNT_FBENTRY c) 1) c)))) ∧
  -- A quiet line.
  (∀ (s : State) (c : Fin 32) (g : Fin 2),
    s.dev.live = true →
    rbSampled s.dev c = true →
    bit (s.dev.chn c).rb g = true →
    s.dev.on F.CH_RB_AUTOEXIT c = true →
    exec (.rbFallbackQuiet c g) s = .next (s.withDev (s.dev.wr F.CH_RB_FB (clrBit (s.dev.rd F.CH_RB_FB c) g) c))) ∧
  -- A quiet line that AUTOEXIT does not heed.
  (∀ (s : State) (c : Fin 32) (g : Fin 2),
    s.dev.on F.CH_RB_AUTOEXIT c = false →
    exec (.rbFallbackQuiet c g) s = .next (s.withDev (s.dev))) ∧
  -- EXIT.
  (∀ (s : State) (v : Word) (a : Acc),
    s.dev.takes 0x1010 a = true →
    fld v.toNat 8 8 ≠ 0 →
    fld v.toNat 16 8 ≠ 0 →
    fld v.toNat 24 8 ≠ 0 →
    ∃ t, exec (.chRbExit v a) s = .next t ∧ t.dev.rd F.CH_RB_FB (s.dev.named 0x1010 a) = 0 ∧
      t.dev.rd F.CH_RB_AUTOEXIT (s.dev.named 0x1010 a) = fld v.toNat 2 1 ∧
      t = s.withDev { s.dev with regs := t.dev.regs, port := t.dev.port, shadow := t.dev.shadow } ∧ s.dev.onlyAt [(0x14, 0x14), (0x1010, 0x1010)] t.dev)

/-- Pad impedance searches. PZQ_GO clears GIVEUP and ABORTS, while a search runs too, and sets BUSY. A search that ends
inside the code range shows its codes, clears ABORTS, counts a pass and sets the impedance targets of the eight
channels; one that ends at an end of the range is counted, marked and raised, and gives up after AMAX of them. A
backoff that ends starts the search again. (R270, R271) Commands said to answer a next state: pzqGo, pzqSearchEnd,
pzqBackoffEnd. -/
def Obligations.PadImpedance : Prop :=
  -- GO.
  (∀ (s : State) (a : Acc),
    s.dev.takes 0x2300 a = true →
    s.dev.on F.PZQ_STAT_BUSY (s.dev.named 0x2300 a) = false →
    exec (.pzqGo a) s = .next (s.withDev (((((s.dev.wr F.PZQ_CTL_GO 1 (s.dev.named 0x2300 a)).wr F.PZQ_STAT_GIVEUP 0 (s.dev.named 0x2300 a)).wr F.PZQ_STAT_ABORTS 0 (s.dev.named 0x2300 a)).wr F.PZQ_STAT_BUSY 1 (s.dev.named 0x2300 a)).acked 0))) ∧
  -- GO while busy.
  (∀ (s : State) (a : Acc),
    s.dev.takes 0x2300 a = true →
    s.dev.on F.PZQ_STAT_BUSY (s.dev.named 0x2300 a) = true →
    exec (.pzqGo a) s = .next (s.withDev (((s.dev.wr F.PZQ_STAT_GIVEUP 0 (s.dev.named 0x2300 a)).wr F.PZQ_STAT_ABORTS 0 (s.dev.named 0x2300 a)).acked 0))) ∧
  -- A search passes.
  (∀ (s : State) (cl : Fin 4) (pu : Fin 64) (pd : Fin 64),
    s.dev.live = true →
    s.dev.on F.PZQ_STAT_BUSY cl = true →
    pu ≠ 0 →
    pu ≠ 63 →
    pd ≠ 0 →
    pd ≠ 63 →
    s.dev.chs = [] →
    ∃ t, exec (.pzqSearchEnd cl pu pd) s = .next t ∧ t.dev.rd F.PZQ_STAT_BUSY cl = 0 ∧ t.dev.rd F.PZQ_CTL_GO cl = 0 ∧ t.dev.rd F.PZQ_STAT_PU cl = pu ∧
      t.dev.rd F.PZQ_STAT_PD cl = pd ∧ t.dev.rd F.PZQ_STAT_ABORTS cl = 0 ∧ t.dev.rd F.PZQ_CNT_PASS cl = satAdd 16 (s.dev.rd F.PZQ_CNT_PASS cl) 1 ∧
      (∀ i : Fin 8, t.dev.rd F.CAL_TIMP_PU (8 * cl + i) = pu ∧ t.dev.rd F.CAL_TIMP_PD (8 * cl + i) = pd ∧ t.dev.rd F.CAL_TIMP_ODT (8 * cl + i) = pd) ∧
      t.dev.rd F.PZQ_STAT_ERR cl = s.dev.rd F.PZQ_STAT_ERR cl) ∧
  -- A search fails.
  (∀ (s : State) (cl : Fin 4) (pu : Fin 64) (pd : Fin 64),
    s.dev.live = true →
    s.dev.on F.PZQ_STAT_BUSY cl = true →
    pu = 0 ∨ pu = 63 ∨ pd = 0 ∨ pd = 63 →
    s.dev.chs = [] →
    ∃ t, exec (.pzqSearchEnd cl pu pd) s = .next t ∧ t.dev.rd F.PZQ_STAT_BUSY cl = 0 ∧ t.dev.rd F.PZQ_STAT_ERR cl = 1 ∧
      t.dev.rd F.PZQ_STAT_ABORTS cl = satAdd 4 (s.dev.rd F.PZQ_STAT_ABORTS cl) 1 ∧
      t.dev.rd F.PZQ_CNT_FAIL cl = satAdd 16 (s.dev.rd F.PZQ_CNT_FAIL cl) 1 ∧ t.dev.rd F.PZQ_STAT_PU cl = pu ∧ t.dev.rd F.PZQ_STAT_PD cl = pd ∧
      bit t.dev.int.pend (0x78 + cl) = true ∧
      (s.dev.rd F.CAL_CFG_AMAX (8 * cl) ≤ satAdd 4 (s.dev.rd F.PZQ_STAT_ABORTS cl) 1 → t.dev.rd F.PZQ_STAT_GIVEUP cl = 1)) ∧
  -- The backoff ends.
  (∀ (s : State) (cl : Fin 4),
    s.dev.live = true →
    s.dev.on F.PZQ_STAT_ABORTS cl = true →
    s.dev.on F.PZQ_STAT_BUSY cl = false →
    s.dev.on F.PZQ_STAT_GIVEUP cl = false →
    exec (.pzqBackoffEnd cl) s = .next (s.withDev (s.dev.wr F.PZQ_STAT_BUSY 1 cl))) ∧
  -- No backoff runs.
  (∀ (s : State) (cl : Fin 4),
    s.dev.rd F.PZQ_STAT_ABORTS cl = 0 →
    exec (.pzqBackoffEnd cl) s = .next (s.withDev (s.dev)))

/-- Calibration: triggers, timeouts and the policy. CAL_GO and CAL_FORCE on a channel whose calibration is valid make a
run DUE at step 1 with trigger code 3, CAL_FORCE a forced one, which is counted. CAL_RETRY makes a channel that gave
up DUE with ABORTS 0 and does nothing elsewhere. CAL_POL writes the shadows of its policy. A period expires as trigger
1 when PERIOD is not 0. A gap timeout between two steps starts the run again, a force timeout forces it once, and the
end of a backoff makes it DUE. (R275, R276, R277, R278, R279, R287) Commands said to answer a next state: calGo,
calForce, calRetry, calPolWrite, calPeriodExpiry, calGapTimeout, calForceTimeout, calBackoffEnd. -/
def Obligations.CalibrationTriggers : Prop :=
  -- GO.
  (∀ (s : State) (a : Acc),
    s.dev.takes 0x140C a = true →
    s.dev.rd F.CAL_STAT_STATE (s.dev.named 0x140C a) = 1 →
    s.dev.lift.reqs = [] →
    ∃ t, exec (.calGo a) s = .next t ∧ t.dev.rd F.CAL_STAT_STATE (s.dev.named 0x140C a) = 2 ∧ (t.dev.chn (s.dev.named 0x140C a)).cal.step = 1 ∧
      (t.dev.chn (s.dev.named 0x140C a)).cal.trig = 3 ∧ (t.dev.chn (s.dev.named 0x140C a)).cal.forced = false ∧
      (t.dev.chn (s.dev.named 0x140C a)).ctxs = (s.dev.chn (s.dev.named 0x140C a)).ctxs) ∧
  -- FORCE.
  (∀ (s : State) (a : Acc),
    s.dev.takes 0x140C a = true →
    s.dev.rd F.CAL_STAT_STATE (s.dev.named 0x140C a) = 1 →
    s.dev.lift.reqs = [] →
    ∃ t, exec (.calForce a) s = .next t ∧ t.dev.rd F.CAL_STAT_STATE (s.dev.named 0x140C a) = 2 ∧ (t.dev.chn (s.dev.named 0x140C a)).cal.step = 1 ∧
      (t.dev.chn (s.dev.named 0x140C a)).cal.forced = true ∧
      t.dev.rd F.CAL_CNT2_FORCED (s.dev.named 0x140C a) = satAdd 16 (s.dev.rd F.CAL_CNT2_FORCED (s.dev.named 0x140C a)) 1) ∧
  -- GO after giving up.
  (∀ (s : State) (a : Acc),
    s.dev.takes 0x140C a = true →
    s.dev.rd F.CAL_STAT_STATE (s.dev.named 0x140C a) = 5 →
    exec (.calGo a) s = .next (s.withDev (s.dev.acked 0))) ∧
  -- RETRY.
  (∀ (s : State) (a : Acc),
    s.dev.takes 0x140C a = true →
    s.dev.rd F.CAL_STAT_STATE (s.dev.named 0x140C a) = 5 →
    s.dev.lift.reqs = [] →
    ∃ t, exec (.calRetry a) s = .next t ∧ t.dev.rd F.CAL_STAT_STATE (s.dev.named 0x140C a) = 2 ∧
      t.dev.rd F.CAL_STAT_ABORTS (s.dev.named 0x140C a) = 0 ∧ (t.dev.chn (s.dev.named 0x140C a)).cal.step = 1) ∧
  -- RETRY elsewhere.
  (∀ (s : State) (a : Acc),
    s.dev.takes 0x140C a = true →
    s.dev.rd F.CAL_STAT_STATE (s.dev.named 0x140C a) ≠ 5 →
    exec (.calRetry a) s = .next (s.withDev (s.dev.acked 0))) ∧
  -- The policy.
  (∀ (s : State) (v : Word) (a : Acc) (c : Nat),
    s.dev.takes 0x1408 a = true →
    c = s.dev.named 0x1408 a →
    ∃ t, exec (.calPolWrite v a) s = .next t ∧ look t.dev.shadow (F.CAL_CFG_AUTO.key c) = some (if v.toNat % 4 = 3 then 0 else 1) ∧
      look t.dev.shadow (F.CAL_CFG_DTEMP.key c) = some (if v.toNat % 4 = 1 then 12 else if v.toNat % 4 = 2 then 4 else 8) ∧
      look t.dev.shadow (F.CAL_CFG2_PERIOD.key c) = some (if v.toNat % 4 = 2 then 10 else 0) ∧
      look t.dev.shadow (F.CAL_POL_POLICY.key c) = some (v.toNat % 4) ∧ t.dev.rd F.CAL_CFG_AUTO c = s.dev.rd F.CAL_CFG_AUTO c ∧
      t = s.withDev { s.dev with regs := t.dev.regs, port := t.dev.port, shadow := t.dev.shadow } ∧ s.dev.onlyAt [(0x14, 0x14), (0x1408, 0x1408)] t.dev) ∧
  -- The period.
  (∀ (s : State) (c : Fin 32),
    s.dev.live = true →
    s.dev.rd F.CAL_STAT_STATE c = 1 →
    s.dev.on F.CAL_CFG2_PERIOD c = true →
    s.dev.on F.CAL_CFG_AUTO c = true →
    s.dev.on F.TST_LBCTL_DEPTH c = false →
    s.dev.lift.reqs = [] →
    ∃ t, exec (.calPeriodExpiry c) s = .next t ∧ t.dev.rd F.CAL_STAT_STATE c = 2 ∧ (t.dev.chn c).cal.trig = 1 ∧ (t.dev.chn c).cal.step = 1) ∧
  -- No period.
  (∀ (s : State) (c : Fin 32),
    s.dev.rd F.CAL_CFG2_PERIOD c = 0 →
    exec (.calPeriodExpiry c) s = .next (s.withDev (s.dev))) ∧
  -- A gap that does not come.
  (∀ (s : State) (c : Fin 32) (h : Ch),
    s.dev.live = true →
    s.dev.rd F.CAL_STAT_STATE c = 3 →
    s.dev.chn c = h →
    calCtx s.dev c = none →
    1 < h.cal.step →
    s.dev.lift.reqs = [] →
    exec (.calGapTimeout c) s = .next (s.withDev ({ s.dev with chs := ins s.dev.chs c { h with cal := { h.cal with step := 1, more := [] } } }))) ∧
  -- No run.
  (∀ (s : State) (c : Fin 32),
    s.dev.rd F.CAL_STAT_STATE c ≠ 3 →
    exec (.calGapTimeout c) s = .next (s.withDev (s.dev))) ∧
  -- The force time.
  (∀ (s : State) (c : Fin 32) (h : Ch),
    s.dev.live = true →
    s.dev.rd F.CAL_STAT_STATE c = 2 ∨ s.dev.rd F.CAL_STAT_STATE c = 3 →
    s.dev.chn c = h →
    h.cal.forced = false →
    exec (.calForceTimeout c) s = .next (s.withDev (({ s.dev with chs := ins s.dev.chs c { h with cal := { h.cal with forced := true } } } : Dev).wr F.CAL_CNT2_FORCED (satAdd 16 (s.dev.rd F.CAL_CNT2_FORCED c) 1) c))) ∧
  -- The backoff.
  (∀ (s : State) (c : Fin 32) (h : Ch),
    s.dev.live = true →
    s.dev.rd F.CAL_STAT_STATE c = 4 →
    s.dev.chn c = h →
    exec (.calBackoffEnd c) s = .next (s.withDev (({ s.dev with chs := ins s.dev.chs c { h with cal := { h.cal with step := 1 } } } : Dev).wr F.CAL_STAT_STATE 2 c)))

/-- Glide steps, and PHYs that sleep and wake. On an idle, awake channel a Glide step moves each trim that differs one
unit toward its target, a trim already there stays, and the step is counted; with no difference, or with the bus held,
no trim moves. An idle PHY with PHYIDLE set goes off with its pads; a granted wake turns it on with its pads in the
idle row. (R275, R280, R376, R386) Commands said to answer a next state: glideTimer, phyIdleSleep, phyWakeDone. -/
def Obligations.GlideAndPhys : Prop :=
  -- A step.
  (∀ (s : State) (c : Fin 32) (f : Fld) (g : Fld),
    s.dev.live = true →
    (s.dev.chn c).run = none →
    trimsDiffer s.dev c = true →
    phyAwake s.dev c = true →
    s.dev.on F.FS_STAT_ACTIVE = false →
    s.dev.fs.pfail = false →
    s.dev.on F.CAL_CFG_GLIDE c = true →
    (f, g, false) ∈ trims →
    ∃ t, exec (.glideTimer c) s = .next t ∧
      t.dev.rd f c = (if s.dev.rd f c < s.dev.rd g c then (s.dev.rd f c + 1) % 2 ^ f.w else if s.dev.rd g c < s.dev.rd f c then (s.dev.rd f c - 1) % 2 ^ f.w else s.dev.rd f c) ∧
      t.dev.rd g c = s.dev.rd g c ∧ t.dev.rd F.CAL_CNT2_GSTEPS c = (s.dev.rd F.CAL_CNT2_GSTEPS c + 1) % 2 ^ 16 ∧
      t = s.withDev { s.dev with regs := t.dev.regs, chs := t.dev.chs } ∧
      s.dev.onlyAt [(0x20, 0x20), (0x1400, 0x1410), (0x1430, 0x144C), (0x1470, 0x1488), (0xC100, 0xC100)] t.dev) ∧
  -- The bus is held.
  (∀ (s : State) (c : Fin 32),
    (s.dev.chn c).run.isSome = true →
    exec (.glideTimer c) s = .next (s.withDev (s.dev))) ∧
  -- Every trim is at its target.
  (∀ (s : State) (c : Fin 32),
    s.dev.live = true →
    (s.dev.chn c).run = none →
    trimsDiffer s.dev c = false →
    exec (.glideTimer c) s = .next (s.withDev (s.dev.wr F.CAL_STAT_GLIDING 0 c))) ∧
  -- A PHY sleeps.
  (∀ (s : State) (c : Fin 32),
    s.dev.live = true →
    s.dev.on F.PM_CFG_PHYIDLE = true →
    phyAwake s.dev c = true →
    phyBusy s.dev c = false →
    s.dev.on F.FS_STAT_ACTIVE = false →
    ∃ t, exec (.phyIdleSleep c) s = .next t ∧ t.dev.rd F.PM_PHYSTAT_ON = clrBit (s.dev.rd F.PM_PHYSTAT_ON) c % 2 ^ 32 ∧ (t.dev.chn c).pads = padsOff ∧
      (s.dev.rd (F.TS_STATE.ix c) = 0 → t.dev.rd (F.TS_STATE.ix c) = 3) ∧ (t.dev.chn c).ctxs = (s.dev.chn c).ctxs ∧
      t = s.withDev { s.dev with regs := t.dev.regs, chs := t.dev.chs, th := t.dev.th } ∧ s.dev.onlyAt [(0x9008, 0x9010), (0x9200, 0x929C)] t.dev) ∧
  -- PHYIDLE is 0.
  (∀ (s : State) (c : Fin 32),
    s.dev.on F.PM_CFG_PHYIDLE = false →
    exec (.phyIdleSleep c) s = .next (s.withDev (s.dev))) ∧
  -- A PHY wakes.
  (∀ (s : State) (c : Fin 32),
    s.dev.live = true →
    (s.dev.chn c).waking = true →
    s.dev.on F.FS_STAT_ACTIVE = false →
    s.dev.on F.CAL_CFG_AUTO c = false →
    ∃ t, exec (.phyWakeDone c) s = .next t ∧ t.dev.rd F.PM_PHYSTAT_ON = setBit (s.dev.rd F.PM_PHYSTAT_ON) c % 2 ^ 32 ∧ (t.dev.chn c).waking = false ∧
      (t.dev.chn c).pads = padsIdle (s.dev.on F.CH_PAD_KEEP c) ∧ t.dev.cells = s.dev.cells) ∧
  -- No wake was granted.
  (∀ (s : State) (c : Fin 32),
    (s.dev.chn c).waking = false →
    exec (.phyWakeDone c) s = .next (s.withDev (s.dev)))

/-- Fabric data, responses and timeouts. A beat that is not the last is added to its request while no error has come. The
last beat of a Lichen Map read frees its tag and hands the unit the bytes asked for. A write response frees its tag
and hands over its code, POISON counted as TERR. A bus error is counted by its code, logged and raised. A response
that ends on a free tag is a stray. A timeout is a bus error of code 4 whose tag is quarantined, and UNQUAR releases
every quarantined tag of the port. (R293, R294, R295, R298, R300) Commands said to answer a next state:
fabricReadData, fabricWriteResponse, fabricTimeout, fpUnquar. -/
def Obligations.FabricResponses : Prop :=
  -- A beat that is not the last.
  (∀ (s : State) (p : Fin 4) (tag : Fin 256) (b : List Byte) (r : Nat) (o : Outst),
    s.dev.live = true →
    look (s.dev.prt p).rd.out tag = some o →
    o.err = 0 →
    ∃ t, exec (.fabricReadData p tag b false { code := r }) s = .next t ∧
      look (t.dev.prt p).rd.out tag = some { o with got := (if r = 0 then o.got ++ fitTo 64 0 b else o.got), err := r } ∧
      (t.dev.prt p).wr = (s.dev.prt p).wr ∧ t.dev.regs = s.dev.regs ∧ t.dev.answers = s.dev.answers) ∧
  -- The last beat of a map read.
  (∀ (s : State) (p : Fin 4) (tag : Fin 256) (b : List Byte) (o : Outst) (l : Nat),
    s.dev.live = true →
    look (s.dev.prt p).rd.out tag = some o →
    o.err = 0 →
    o.req.what = .mapRead l →
    ∃ t, exec (.fabricReadData p tag b true { code := 0 }) s = .next t ∧ look (t.dev.prt p).rd.out tag = none ∧
      t.dev.answers = s.dev.answers ++ [{ what := .mapRead l, code := 0, bytes := ((o.got ++ fitTo 64 0 b).drop (o.req.addr % 64)).take o.req.len, req := o.req }] ∧
      (t.dev.prt p).wr = (s.dev.prt p).wr ∧ t.dev.rd F.FP_STAT_RDOUT p = (del (s.dev.prt p).rd.out tag).length % 2 ^ 9) ∧
  -- A stray.
  (∀ (s : State) (p : Fin 4) (tag : Fin 256) (b : List Byte) (r : Nat),
    s.dev.live = true →
    look (s.dev.prt p).rd.out tag = none →
    tag.val ∉ (s.dev.prt p).rd.quar →
    exec (.fabricReadData p tag b true { code := r }) s = .next (s.withDev (raise (0x60 + p) (s.dev.wr F.FP_STRAY_STRAY (satAdd 16 (s.dev.rd F.FP_STRAY_STRAY p) 1) p)))) ∧
  -- A write response.
  (∀ (s : State) (p : Fin 4) (tag : Fin 256) (o : Outst) (l : Nat),
    s.dev.live = true →
    look (s.dev.prt p).wr.out tag = some o →
    o.req.what = .mapWrite l →
    ∃ t, exec (.fabricWriteResponse p tag { code := 0 }) s = .next t ∧ look (t.dev.prt p).wr.out tag = none ∧
      t.dev.answers = s.dev.answers ++ [{ what := .mapWrite l, code := 0, req := o.req }] ∧ (t.dev.prt p).rd = (s.dev.prt p).rd ∧
      t.dev.rd F.FP_ERR_TERR p = s.dev.rd F.FP_ERR_TERR p) ∧
  -- A write response with an error: 1 TERR, 2 DERR, 3 POISON.
  (∀ (s : State) (p : Fin 4) (tag : Fin 256) (r : Fin 4) (o : Outst) (l : Nat) (k : Nat),
    s.dev.live = true →
    look (s.dev.prt p).wr.out tag = some o →
    o.req.what = .mapWrite l →
    r ≠ 0 →
    k = (if r = 3 then 1 else r.val) →
    ∃ t, exec (.fabricWriteResponse p tag { code := r }) s = .next t ∧ look (t.dev.prt p).wr.out tag = none ∧
      t.dev.answers = s.dev.answers ++ [{ what := .mapWrite l, code := k, req := o.req }] ∧
      t.dev.rd F.FP_ERR_TERR p = (if k = 1 then satAdd 8 (s.dev.rd F.FP_ERR_TERR p) 1 else s.dev.rd F.FP_ERR_TERR p) ∧
      t.dev.rd F.FP_ERR_DERR p = (if k = 2 then satAdd 8 (s.dev.rd F.FP_ERR_DERR p) 1 else s.dev.rd F.FP_ERR_DERR p) ∧ t.dev.rd F.FP_ELOGK_CODE p = k ∧
      t.dev.rd F.FP_ELOGK_TAG p = tag ∧ t.dev.rd F.FP_ELOGK_WR p = 1 ∧ t.dev.rd F.FP_ELOG_LO_ADDR p = o.req.addr / 64 * 64 % 2 ^ 32 ∧
      bit t.dev.int.pend (0x60 + p) = true) ∧
  -- A timeout.
  (∀ (s : State) (p : Fin 4) (tag : Fin 256) (o : Outst) (l : Nat),
    s.dev.live = true →
    look (s.dev.prt p).rd.out tag = some o →
    o.req.what = .mapRead l →
    ∃ t, exec (.fabricTimeout p false { tag := tag }) s = .next t ∧ look (t.dev.prt p).rd.out tag = none ∧
      (t.dev.prt p).rd.quar = (s.dev.prt p).rd.quar ++ [tag.val] ∧ t.dev.rd F.FP_QUAR_RDQ p = ((s.dev.prt p).rd.quar.length + 1) % 2 ^ 9 ∧
      t.dev.rd F.FP_ERR_TIMEOUT p = satAdd 8 (s.dev.rd F.FP_ERR_TIMEOUT p) 1 ∧
      t.dev.answers = s.dev.answers ++ [{ what := .mapRead l, code := 4, req := o.req }]) ∧
  -- No such request.
  (∀ (s : State) (p : Fin 4) (tag : Fin 256) (w : Bool),
    look ((s.dev.prt p).dir w).out tag = none →
    exec (.fabricTimeout p w { tag := tag }) s = .next (s.withDev (s.dev))) ∧
  -- UNQUAR.
  (∀ (s : State) (a : Acc),
    s.dev.takes 0x2418 a = true →
    ∃ t, exec (.fpUnquar a) s = .next t ∧ (t.dev.prt (s.dev.named 0x2418 a)).rd.quar = [] ∧ (t.dev.prt (s.dev.named 0x2418 a)).wr.quar = [] ∧
      (t.dev.prt (s.dev.named 0x2418 a)).rd.out = (s.dev.prt (s.dev.named 0x2418 a)).rd.out ∧ t.dev.rd F.FP_QUAR_RDQ (s.dev.named 0x2418 a) = 0 ∧
      t.dev.rd F.FP_QUAR_WRQ (s.dev.named 0x2418 a) = 0 ∧ t = s.withDev { s.dev with regs := t.dev.regs, fab := t.dev.fab, port := t.dev.port } ∧
      s.dev.onlyAt [(0x2414, 0x2418)] t.dev)

/-- One grant of a port. A grant gives a tag that is neither outstanding nor quarantined to the head of the control queue
when that head may go: a tag is free for its kind and its span meets no outstanding request as R296 forbids. It leaves
its queue and stands outstanding under its tag. A tag in use grants nothing. (R291, R296, R299) Commands said to
answer a next state: fabricRequestGrant. -/
def Obligations.FabricArbitration : Prop :=
  -- A control request.
  (∀ (s : State) (p : Fin 4) (w : Bool) (tag : Fin 256) (r : Req) (q : List Req),
    s.dev.live = true →
    p ≠ 0 ∨ w = false →
    look ((s.dev.prt p).dir w).out tag = none →
    tag.val ∉ ((s.dev.prt p).dir w).quar →
    ((s.dev.prt p).dir w).gCtrl ≠ 0 →
    ((s.dev.prt p).dir w).ctrl = r :: q →
    r.kind = .ctrl →
    0 < ((s.dev.prt p).dir w).free →
    overlaps s.dev w r = false →
    ∃ t, exec (.fabricRequestGrant p w tag) s = .next t ∧ ((t.dev.prt p).dir w).ctrl = q ∧ look ((t.dev.prt p).dir w).out tag = some { req := r } ∧
      ((t.dev.prt p).dir w).data = ((s.dev.prt p).dir w).data ∧ (t.dev.prt p).dir (!w) = (s.dev.prt p).dir (!w) ∧
      t = s.withDev { s.dev with regs := t.dev.regs, captured := t.dev.captured, cls := t.dev.cls, dma := t.dev.dma, fab := t.dev.fab, led := t.dev.led }) ∧
  -- A tag in use.
  (∀ (s : State) (p : Fin 4) (w : Bool) (tag : Fin 256),
    s.dev.live = true →
    p ≠ 0 ∨ w = false →
    (look ((s.dev.prt p).dir w).out tag).isSome = true ∨ tag.val ∈ ((s.dev.prt p).dir w).quar →
    exec (.fabricRequestGrant p w tag) s = .next (s.withDev (s.dev)))

/-- DMA channels: start, stop, clear and a burst. START of an idle channel with a non-empty descriptor begins it: RUN,
HOPS 0, REMAIN the whole transfer. Of a busy or halted channel it is counted as dropped. STOP of a running channel
makes it STOPPING. CLR of a halted channel makes it IDLE with EKIND 0. The issue slot gives the only channel with a
burst its next read, of the bytes R304 allows. (R303, R304, R306, R307, R308, R311) Commands said to answer a next
state: dmaStart, dmaStop, dmaClr, dmaBurstIssue. -/
def Obligations.DmaControl : Prop :=
  -- START.
  (∀ (s : State) (c : Fin 16) (a : Acc),
    s.dev.takes (0x6144 + 0x80 * c.val) a = true →
    s.dev.on F.DMA_GCTL_EN = true →
    s.dev.rd (F.DMA_STAT_STATE.ix c) = 0 →
    dmaTotal s.dev c ≠ 0 →
    ∃ t, exec (.dmaStart c a) s = .next t ∧ t.dev.rd (F.DMA_STAT_STATE.ix c) = 1 ∧ t.dev.rd (F.DMA_HOPS_HOPS.ix c) = 0 ∧
      t.dev.rd (F.DMA_REMAIN_LO_BYTES.ix c) = dmaTotal s.dev c % 2 ^ 32 ∧ t.dev.rd (F.DMA_REMAIN_HI_BYTES.ix c) = dmaTotal s.dev c / 2 ^ 32 % 2 ^ 32 ∧
      bit (t.dev.rd F.DMA_GSTAT_BUSY) c = true ∧ (t.dev.dch c).placed = 0 ∧ (t.dev.dch c).doneBytes = 0 ∧ t.dev.fab = s.dev.fab ∧
      t = s.withDev { s.dev with regs := t.dev.regs, dma := t.dev.dma, fab := t.dev.fab, freeCtr := t.dev.freeCtr, port := t.dev.port } ∧
      s.dev.onlyAt [(0x6004, 0x6008), (0x6144, 0x68DC)] t.dev) ∧
  -- START of a channel that cannot start.
  (∀ (s : State) (c : Fin 16) (a : Acc),
    s.dev.takes (0x6144 + 0x80 * c.val) a = true →
    s.dev.on F.DMA_GCTL_EN = false ∨ (s.dev.rd (F.DMA_STAT_STATE.ix c) ≠ 0 ∧ s.dev.rd (F.DMA_STAT_STATE.ix c) ≠ 3) →
    exec (.dmaStart c a) s = .next (s.withDev ((s.dev.wr (F.DMA_STAT_DROP.ix c) (satAdd 8 (s.dev.rd (F.DMA_STAT_DROP.ix c)) 1)).acked 0))) ∧
  -- STOP.
  (∀ (s : State) (c : Fin 16) (a : Acc),
    s.dev.takes (0x6144 + 0x80 * c.val) a = true →
    s.dev.rd (F.DMA_STAT_STATE.ix c) = 1 →
    ∃ t, exec (.dmaStop c a) s = .next t ∧ t.dev.rd (F.DMA_STAT_STATE.ix c) = 2 ∧ t.dev.rd (F.DMA_CTL_STOP.ix c) = 1 ∧
      bit (t.dev.rd F.DMA_GSTAT_BUSY) c = true ∧ t = s.withDev { s.dev with regs := t.dev.regs, port := t.dev.port } ∧
      s.dev.onlyAt [(0x6004, 0x6004), (0x6144, 0x68C8)] t.dev) ∧
  -- STOP of another.
  (∀ (s : State) (c : Fin 16) (a : Acc),
    s.dev.takes (0x6144 + 0x80 * c.val) a = true →
    s.dev.rd (F.DMA_STAT_STATE.ix c) ≠ 1 →
    exec (.dmaStop c a) s = .next (s.withDev (s.dev.acked 0))) ∧
  -- CLR.
  (∀ (s : State) (c : Fin 16) (a : Acc),
    s.dev.takes (0x6144 + 0x80 * c.val) a = true →
    s.dev.rd (F.DMA_STAT_STATE.ix c) = 5 →
    ∃ t, exec (.dmaClr c a) s = .next t ∧ t.dev.rd (F.DMA_STAT_STATE.ix c) = 0 ∧ t.dev.rd (F.DMA_STAT_EKIND.ix c) = 0 ∧
      bit (t.dev.rd F.DMA_GSTAT_HALT) c = false ∧ t = s.withDev { s.dev with regs := t.dev.regs, port := t.dev.port } ∧
      s.dev.onlyAt [(0x6004, 0x6004), (0x6144, 0x68C8)] t.dev) ∧
  -- CLR of another.
  (∀ (s : State) (c : Fin 16) (a : Acc),
    s.dev.takes (0x6144 + 0x80 * c.val) a = true →
    s.dev.rd (F.DMA_STAT_STATE.ix c) ≠ 5 →
    exec (.dmaClr c a) s = .next (s.withDev (s.dev.acked 0))) ∧
  -- A burst.
  (∀ (s : State) (c : Fin 16) (x : DmaCh) (n : Nat),
    s.dev.live = true →
    dmaTurn s.dev true s.dev.dmaLastHi = none →
    dmaTurn s.dev false s.dev.dmaLast = some c.val →
    s.dev.dch c = x →
    x.h0 = .free →
    x.h1 = .free →
    x.placed < dmaTotal s.dev c →
    n = dmaBurst s.dev c x.placed →
    ∃ t, exec (.dmaBurstIssue .clean) s = .next t ∧ t.dev.dmaLast = c ∧
      t.dev.dch c = { x with h0 := .reading (dmaSrc s.dev c x.placed) (dmaDst s.dev c x.placed) n 0 true, placed := x.placed + n, older := 0 } ∧
      t.dev.fab = (request (s.dev.rd (F.DMA_CFG_PORT.ix c)) false { what := .dmaRead c 0, addr := dmaSrc s.dev c x.placed, len := n, kind := .dma, ns := s.dev.on (F.DMA_CFG_NS.ix c), hipri := s.dev.on (F.DMA_CFG_HIPRI.ix c) } s.dev).fab ∧
      t = s.withDev { s.dev with regs := t.dev.regs, dma := t.dev.dma, dmaLast := t.dev.dmaLast, dmaLastHi := t.dev.dmaLastHi, fab := t.dev.fab, freeCtr := t.dev.freeCtr, int := t.dev.int, mp := t.dev.mp, nor := t.dev.nor, spr := t.dev.spr, upd := t.dev.upd }) ∧
  -- No burst to issue.
  (∀ (s : State),
    dmaTurn s.dev true s.dev.dmaLastHi = none →
    dmaTurn s.dev false s.dev.dmaLast = none →
    exec (.dmaBurstIssue .clean) s = .next (s.withDev (s.dev)))

/-- Interrupt sources presented, accepted, claimed and completed. The only pending source, presentable to one target that
presents nothing, is presented there with its vector address VBASE + 8 times its ID. An acceptance claims it: P falls,
A rises for that target, and the target presents nothing in the next cycle. A read of INT_CLAIM claims the candidate
and returns its ID, or returns 0x3FF and counts. The claimer completes a source by writing its ID; another ID is a
stray. The end of a hold-off clears HOLDOFF and REMAIN. (R315, R316, R317, R318, R320, R321, R323) Commands said to
answer a next state: intPresent, vectorAccept, intClaim, intComplete, modHoldoffExpiry. -/
def Obligations.InterruptPresentation : Prop :=
  -- A presentation.
  (∀ (s : State) (k : Fin 16) (n : Nat) (m : Fin 256),
    s.dev.live = true →
    s.dev.int.pres = [] →
    bit s.dev.int.gap k = false →
    pendingIds s.dev = [n] →
    (levelIds.all fun i => !rawLevel s.dev i) = true →
    presentable s.dev k n = true →
    ∀ j : Fin 16, j ≠ k → presentable s.dev j n = false →
    ∃ t, exec (.intPresent m) s = .next t ∧
      look t.dev.int.pres k = some (n, (s.dev.rd64 (F.INT_VBASE_LO_ADDR.ix k) (F.INT_VBASE_HI_ADDR.ix k) + 8 * n) % 2 ^ 64) ∧
      (∀ j : Fin 16, j ≠ k → look t.dev.int.pres j = none) ∧ t.dev.int.pend = s.dev.int.pend ∧ t.dev.regs = s.dev.regs ∧
      t = s.withDev { s.dev with int := t.dev.int }) ∧
  -- An acceptance.
  (∀ (s : State) (k : Fin 16) (n : Nat) (v : Nat),
    s.dev.live = true →
    look s.dev.int.pres k = some (n, v) →
    intActive s.dev n = false →
    modGroup s.dev n = none →
    exec (.vectorAccept k) s = .next (s.withDev ({ s.dev with int := { s.dev.int with pend := clrBit s.dev.int.pend n, act := ins s.dev.int.act n k.val, pres := del s.dev.int.pres k, gap := setBit s.dev.int.gap k } }))) ∧
  -- No presentation.
  (∀ (s : State) (k : Fin 16),
    look s.dev.int.pres k = none →
    exec (.vectorAccept k) s = .next (s.withDev (s.dev))) ∧
  -- A claim by a read.
  (∀ (s : State) (k : Fin 16) (a : Acc) (n : Nat),
    s.dev.takes (0x420C + 0x20 * k.val) a = true →
    claimCandidate s.dev k = some n →
    n < 1023 →
    modGroup s.dev n = none →
    ∃ t, exec (.intClaim k a) s = .next t ∧ t.dev.port.rdata = n ∧ look t.dev.int.act n = some k.val ∧ bit t.dev.int.pend n = false ∧
      t.dev.regs = s.dev.regs ∧
      t = s.withDev { s.dev with chs := t.dev.chs, dma := t.dev.dma, freeCtr := t.dev.freeCtr, int := t.dev.int, led := t.dev.led, mp := t.dev.mp, port := t.dev.port }) ∧
  -- A claim of nothing.
  (∀ (s : State) (k : Fin 16) (a : Acc),
    s.dev.takes (0x420C + 0x20 * k.val) a = true →
    claimCandidate s.dev k = none →
    exec (.intClaim k a) s = .next (s.withDev ((s.dev.wr (F.INT_SPUR_SPUR.ix k) (satAdd 16 (s.dev.rd (F.INT_SPUR_SPUR.ix k)) 1)).acked 0x3FF))) ∧
  -- A completion.
  (∀ (s : State) (k : Fin 16) (v : Word) (a : Acc),
    s.dev.takes (0x4210 + 0x20 * k.val) a = true →
    look s.dev.int.act (fld v.toNat 0 10) = some k.val →
    exec (.intComplete k v a) s = .next (s.withDev (({ s.dev with int := { s.dev.int with act := del s.dev.int.act (fld v.toNat 0 10) } } : Dev).acked 0))) ∧
  -- A stray.
  (∀ (s : State) (k : Fin 16) (v : Word) (a : Acc),
    s.dev.takes (0x4210 + 0x20 * k.val) a = true →
    look s.dev.int.act (fld v.toNat 0 10) ≠ some k.val →
    exec (.intComplete k v a) s = .next (s.withDev ((((s.dev.wr F.INT_STRAY_CNT (satAdd 16 (s.dev.rd F.INT_STRAY_CNT) 1)).wr F.INT_STRAY_LASTID (fld v.toNat 0 10)).wr F.INT_STRAY_LASTTGT k).acked 0))) ∧
  -- A hold-off expires.
  (∀ (s : State) (g : Fin 32),
    s.dev.live = true →
    s.dev.on (F.MOD_STAT_HOLDOFF.ix g) = true →
    exec (.modHoldoffExpiry g) s = .next (s.withDev ((s.dev.wr (F.MOD_STAT_HOLDOFF.ix g) 0).wr (F.MOD_STAT_REMAIN.ix g) 0))) ∧
  -- None runs.
  (∀ (s : State) (g : Fin 32),
    s.dev.rd (F.MOD_STAT_HOLDOFF.ix g) = 0 →
    exec (.modHoldoffExpiry g) s = .next (s.withDev (s.dev)))

/-- Interrupt pends, the global enable and idle targets. A one written to INT_PEND sets P of an edge source and changes no
other source. INT_GCTL takes EN; a 0 withdraws every presentation whose VEC_ACK is low and keeps the others. TGT_IDLE
low clears the bit and the wake latch of its target; high sets the bit. (R315, R318, R322, R324, R325) Commands said
to answer a next state: intPendWrite, intGctlWrite, tgtIdleChange. -/
def Obligations.InterruptControl : Prop :=
  -- INT_PEND.
  (∀ (s : State) (n : Fin 8) (v : Word) (a : Acc),
    s.dev.takes (0x4100 + 4 * n.val) a = true →
    ∃ t, exec (.intPendWrite n v a) s = .next t ∧
      (∀ b : Fin 32, bit t.dev.int.pend (32 * n + b) = (bit s.dev.int.pend (32 * n + b) || (v.toNat.testBit b && isEdge (32 * n + b)))) ∧
      (∀ i : Fin 256, i.val / 32 ≠ n.val → bit t.dev.int.pend i = bit s.dev.int.pend i) ∧ t.dev.regs = s.dev.regs ∧ t.dev.int.act = s.dev.int.act ∧
      t = s.withDev { s.dev with int := t.dev.int, port := t.dev.port }) ∧
  -- EN 1.
  (∀ (s : State) (v : Word) (a : Acc) (k : Nat),
    s.dev.takes 0x4000 a = true →
    fld v.toNat 0 1 = 1 →
    exec (.intGctlWrite v a k) s = .next (s.withDev ((s.dev.wr F.INT_GCTL_EN 1).acked 0))) ∧
  -- EN 0.
  (∀ (s : State) (v : Word) (a : Acc) (k : Nat),
    s.dev.takes 0x4000 a = true →
    fld v.toNat 0 1 = 0 →
    ∃ t, exec (.intGctlWrite v a k) s = .next t ∧ t.dev.rd F.INT_GCTL_EN = 0 ∧
      (∀ j : Fin 16, look t.dev.int.pres j = if k.testBit j then look s.dev.int.pres j else none) ∧ t.dev.int.pend = s.dev.int.pend ∧
      t.dev.int.act = s.dev.int.act ∧ t = s.withDev { s.dev with regs := t.dev.regs, int := t.dev.int, port := t.dev.port } ∧
      s.dev.onlyAt [(0x4000, 0x4000), (0x4218, 0x43F8)] t.dev) ∧
  -- A target leaves idle.
  (∀ (s : State) (k : Fin 16),
    exec (.tgtIdleChange k false) s = .next (s.withDev ({ s.dev with int := { s.dev.int with idle := clrBit s.dev.int.idle k, wake := clrBit s.dev.int.wake k } }))) ∧
  -- A target is idle.
  (∀ (s : State) (k : Fin 16),
    ∃ t, exec (.tgtIdleChange k true) s = .next t ∧ t.dev.int.idle = setBit s.dev.int.idle k ∧ t.dev.regs = s.dev.regs ∧
      t.dev.int.pend = s.dev.int.pend ∧ t.dev.int.pres = s.dev.int.pres ∧ t = s.withDev { s.dev with int := t.dev.int })

/-- Spores: delivery, LUT cells, inputs and software triggers. A spore for an interrupt input reaches it in its cycle: its
channel counts it and source 0x0F0 + k is raised. A spore of a non-secure channel for a secure consumer is dropped and
counted. A LUT cell that is due puts its spore in and, in FF mode, clears its sticky bits. A rise of SPI_IN and a one
in SPR_SWTRIG produce their spores. SAFE_IN takes its level; a rise sets the status bit of its link whether or not the
link is enabled, and link 15 stops admission. (R328, R329, R330, R333, R335, R337, R338) Commands said to answer a
next state: sporeDeliver, lutFire, spiInEdge, sprSwtrig, safeInEdge, loopWindowEnd. -/
def Obligations.SporeRouter : Prop :=
  -- A delivery.
  (∀ (s : State) (x : Spore) (k : Fin 16),
    s.dev.live = true →
    s.dev.on F.SPR_CTL_EN = true →
    s.dev.spr.stage = [x] →
    x.dst = 0x10 + k.val →
    x.chan < 48 →
    s.dev.on (F.SPR_CH_LOOP.ix x.chan) = false →
    ∃ t, exec (.sporeDeliver) s = .next t ∧ t.dev.spr.stage = [] ∧
      t.dev.rd (F.SPR_CNT_CARRIED.ix x.chan) = (s.dev.rd (F.SPR_CNT_CARRIED.ix x.chan) + 1) % 2 ^ 32 ∧ bit t.dev.int.pend (0xF0 + k) = true ∧
      t.dev.rd F.SPR_SECDROP_CNT = s.dev.rd F.SPR_SECDROP_CNT ∧
      t = s.withDev { s.dev with regs := t.dev.regs, dma := t.dev.dma, fab := t.dev.fab, freeCtr := t.dev.freeCtr, int := t.dev.int, pins := t.dev.pins, spr := t.dev.spr } ∧
      s.dev.onlyAt [(0x400C, 0x400C), (0x4804, 0x48FC), (0x5000, 0x5008), (0x5020, 0x5038), (0x5100, 0x51BC), (0x5200, 0x52BC), (0x5300, 0x533C), (0x6004, 0x6008), (0x6148, 0x68DC)] t.dev) ∧
  -- A security drop.
  (∀ (s : State) (x : Spore) (k : Fin 16),
    s.dev.live = true →
    s.dev.on F.SPR_CTL_EN = true →
    s.dev.spr.stage = [x] →
    x.dst = k.val →
    x.ns = true →
    x.chan < 48 →
    s.dev.on (F.SPR_CH_LOOP.ix x.chan) = false →
    s.dev.on (F.DMA_CFG_NS.ix k) = false →
    ∃ t, exec (.sporeDeliver) s = .next t ∧ t.dev.spr.stage = [] ∧ t.dev.rd F.SPR_SECDROP_CNT = satAdd 16 (s.dev.rd F.SPR_SECDROP_CNT) 1 ∧
      t.dev.rd F.SPR_FLAG_SECDROP = 1 ∧ t.dev.rd (F.DMA_STAT_STATE.ix k) = s.dev.rd (F.DMA_STAT_STATE.ix k) ∧ t.dev.dma = s.dev.dma ∧
      t.dev.int.pend = s.dev.int.pend ∧
      t = s.withDev { s.dev with regs := t.dev.regs, dma := t.dev.dma, fab := t.dev.fab, freeCtr := t.dev.freeCtr, int := t.dev.int, pins := t.dev.pins, spr := t.dev.spr } ∧
      s.dev.onlyAt [(0x400C, 0x400C), (0x4804, 0x48FC), (0x5000, 0x5008), (0x5020, 0x5038), (0x5100, 0x51BC), (0x5200, 0x52BC), (0x5300, 0x533C), (0x6004, 0x6008), (0x6148, 0x68DC)] t.dev) ∧
  -- With the router off nothing is carried or counted.
  (∀ (s : State),
    s.dev.live = true →
    s.dev.on F.SPR_CTL_EN = false →
    ∃ t, exec (.sporeDeliver) s = .next t ∧ t.dev.spr.stage = [] ∧
      (∀ n : Fin 48, t.dev.rd (F.SPR_CNT_CARRIED.ix n) = s.dev.rd (F.SPR_CNT_CARRIED.ix n)) ∧ t.dev.rd F.SPR_SECDROP_CNT = s.dev.rd F.SPR_SECDROP_CNT ∧
      t.dev.int.pend = s.dev.int.pend ∧ t.dev.dma = s.dev.dma ∧
      t = s.withDev { s.dev with regs := t.dev.regs, dma := t.dev.dma, fab := t.dev.fab, freeCtr := t.dev.freeCtr, int := t.dev.int, pins := t.dev.pins, spr := t.dev.spr } ∧
      s.dev.onlyAt [(0x400C, 0x400C), (0x4804, 0x48FC), (0x5000, 0x5008), (0x5020, 0x5038), (0x5100, 0x51BC), (0x5200, 0x52BC), (0x5300, 0x533C), (0x6004, 0x6008), (0x6148, 0x68DC)] t.dev) ∧
  -- A cell fires.
  (∀ (s : State) (k : Fin 16),
    s.dev.live = true →
    bit s.dev.spr.due k = true →
    s.dev.on (F.SPR_LUT_FF.ix k) = true →
    exec (.lutFire k) s = .next (s.withDev (produce (0x60 + k) (({ s.dev with spr := { s.dev.spr with due := clrBit s.dev.spr.due k } } : Dev).wr (F.SPR_LUT_STICKY.ix k) 0)))) ∧
  -- A cell that is not due.
  (∀ (s : State) (k : Fin 16),
    bit s.dev.spr.due k = false →
    exec (.lutFire k) s = .next (s.withDev (s.dev))) ∧
  -- SPI_IN.
  (∀ (s : State) (n : Fin 4),
    s.dev.live = true →
    exec (.spiInEdge n) s = .next (s.withDev (produce (0x7C + n) s.dev))) ∧
  -- SPR_SWTRIG.
  (∀ (s : State) (v : Word) (a : Acc),
    s.dev.takes 0x5010 a = true →
    exec (.sprSwtrig v a) s = .next (s.withDev (((if v.toNat.testBit 1 then produce 0x7B else id) ((if v.toNat.testBit 0 then produce 0x7A else id) s.dev)).acked 0))) ∧
  -- SAFE_IN falls.
  (∀ (s : State) (n : Fin 4),
    n ≠ 2 →
    exec (.safeInEdge n false) s = .next (s.withDev ({ s.dev with pins := { s.dev.pins with safeIn := clrBit s.dev.pins.safeIn n } }))) ∧
  -- SAFE_IN[3] rises.
  (∀ (s : State),
    s.dev.pins.porstN = true →
    ∃ t, exec (.safeInEdge 3 true) s = .next t ∧ bit (t.dev.rd F.SPR_SAFEST_ST) 15 = true ∧ t.dev.pins.safeIn = setBit s.dev.pins.safeIn 3 ∧
      (bit (s.dev.rd F.SPR_SAFEEN_EN) 15 = true → t.dev.rd F.ADM_CTL_EN = 0) ∧
      (bit (s.dev.rd F.SPR_SAFEEN_EN) 15 = false → t.dev.rd F.ADM_CTL_EN = s.dev.rd F.ADM_CTL_EN)) ∧
  -- The loop window ends.
  (∀ (s : State),
    s.dev.live = true →
    exec (.loopWindowEnd) s = .next (s.withDev ({ s.dev with spr := { s.dev.spr with reent := [] } })))

/-- Routing channels and LUT cells are written by their owner. A secure access of domain 0 writes a routing channel and a
LUT cell: the fields take the write, and a LUT write clears the sticky bits and the filter count. An access that is
neither that nor the owner's changes no field and is counted in SPR_ACCERR with the register and its domain. The value
LASTREG takes for the channels and cells is the register's place. (R331, R332, R335, R336, R337) Commands said to
answer a next state: sprChWrite, sprLutWrite. -/
def Obligations.RouterRegisters : Prop :=
  -- A channel.
  (∀ (s : State) (c : Fin 48) (v : Word) (a : Acc),
    s.dev.takes (0x5100 + 4 * c.val) a = true →
    a.dom = 0 →
    a.ns = false →
    fld v.toNat 8 7 ≤ 95 →
    ∃ t, exec (.sprChWrite c v a) s = .next t ∧ t.dev.rd (F.SPR_CH_SRC.ix c) = fld v.toNat 0 7 ∧ t.dev.rd (F.SPR_CH_DST.ix c) = fld v.toNat 8 7 ∧
      t.dev.rd (F.SPR_CH_EN.ix c) = fld v.toNat 15 1 ∧ t.dev.rd (F.SPR_CH_OWNER.ix c) = fld v.toNat 16 4 ∧
      t.dev.rd (F.SPR_CH_NS.ix c) = fld v.toNat 20 1 ∧ t.dev.rd F.SPR_ACCERR_CNT = s.dev.rd F.SPR_ACCERR_CNT ∧
      t = s.withDev { s.dev with regs := t.dev.regs, port := t.dev.port, spr := t.dev.spr } ∧ s.dev.onlyAt [(0x5100, 0x51BC)] t.dev) ∧
  -- A channel of another domain.
  (∀ (s : State) (c : Fin 48) (v : Word) (a : Acc),
    s.dev.takes (0x5100 + 4 * c.val) a = true →
    a.dom ≠ 0 →
    s.dev.rd (F.SPR_CH_OWNER.ix c) ≠ a.dom.val →
    exec (.sprChWrite c v a) s = .next (s.withDev (((((s.dev.wr F.SPR_ACCERR_CNT (satAdd 16 (s.dev.rd F.SPR_ACCERR_CNT) 1)).wr F.SPR_ACCERR_LASTREG c).wr F.SPR_ACCERR_LASTDOM a.dom.val).wr F.SPR_FLAG_ACCERR 1).acked 0))) ∧
  -- A LUT cell.
  (∀ (s : State) (k : Fin 16) (v : Word) (a : Acc),
    s.dev.takes (0x5300 + 4 * k.val) a = true →
    a.dom = 0 →
    a.ns = false →
    ∃ t, exec (.sprLutWrite k v a) s = .next t ∧ t.dev.rd (F.SPR_LUT_TRUTH.ix k) = fld v.toNat 0 8 ∧ t.dev.rd (F.SPR_LUT_FF.ix k) = fld v.toNat 8 1 ∧
      t.dev.rd (F.SPR_LUT_FILT.ix k) = fld v.toNat 9 4 ∧ t.dev.rd (F.SPR_LUT_NS.ix k) = fld v.toNat 13 1 ∧
      t.dev.rd (F.SPR_LUT_OWNER.ix k) = fld v.toNat 14 4 ∧ t.dev.rd (F.SPR_LUT_STICKY.ix k) = 0 ∧ look t.dev.spr.filt k = none ∧
      t = s.withDev { s.dev with regs := t.dev.regs, port := t.dev.port, spr := t.dev.spr } ∧ s.dev.onlyAt [(0x5300, 0x533C)] t.dev) ∧
  -- A LUT cell of another domain.
  (∀ (s : State) (k : Fin 16) (v : Word) (a : Acc),
    s.dev.takes (0x5300 + 4 * k.val) a = true →
    a.dom ≠ 0 →
    s.dev.rd (F.SPR_LUT_OWNER.ix k) ≠ a.dom.val →
    exec (.sprLutWrite k v a) s = .next (s.withDev (((((s.dev.wr F.SPR_ACCERR_CNT (satAdd 16 (s.dev.rd F.SPR_ACCERR_CNT) 1)).wr F.SPR_ACCERR_LASTREG (48 + k.val)).wr F.SPR_ACCERR_LASTDOM a.dom.val).wr F.SPR_FLAG_ACCERR 1).acked 0)))

/-- Ledger swaps, exports, caps and LG_TIME. A scheduled swap is taken once at each multiple of PERIOD times 1,000 of
LG_TIME. With no export running it freezes every active bank with its marks, starts the other at zero, and raises SEQ;
LG_SNAP does so with the unscheduled mark. A swap that falls due while an export runs is late: counted, kept and
raised. With CCLK stopped it is merged into the one at the wake. Nothing swaps in reset. The end of an export writes
its header at the base of its half. A cap interval boundary, a multiple of CAPINT times 1,000 of LG_TIME, clears the
cap use and CAPPED of every tenant. A write of LG_TIME_HI sets the time with the LG_TIME_LO held. (R343, R348, R349,
R351, R352, R353, R358) Commands said to answer a next state: ledgerSwap, lgSnap, ledgerExportEnd,
capIntervalBoundary, lgTimeWrite. -/
def Obligations.TenantLedger : Prop :=
  -- A scheduled swap.
  (∀ (s : State),
    s.dev.live = true →
    s.dev.time % (1000 * s.dev.rd F.LG_CFG_PERIOD) = 0 →
    s.dev.led.swapAt ≠ some s.dev.time →
    swapWaits s.dev = false →
    s.dev.on F.LG_CTL_EXPEN = false →
    ∃ t, exec (.ledgerSwap) s = .next t ∧
      t.dev.led = { s.dev.led with active := [], activeD := {}, frozen := s.dev.led.active.map (fun (p : Nat × Bank) => (p.1, p.2.freeze 0)), frozenD := s.dev.led.activeD.freeze 0, seq := (s.dev.led.seq + 1) % 2 ^ 32, lastSwap := s.dev.time, swapAt := some s.dev.time } ∧
      t.dev.rd F.LG_STAT_SEQ = (s.dev.led.seq + 1) % 2 ^ 16 ∧ t.dev.rd F.LG_CTL_SNAP = s.dev.rd F.LG_CTL_SNAP) ∧
  -- A snapshot.
  (∀ (s : State) (v : Word) (a : Acc),
    s.dev.takes 0x7000 a = true →
    fld v.toNat 0 1 = 0 →
    s.dev.on F.LG_CTL_SNAP = false →
    swapWaits s.dev = false →
    ∃ t, exec (.lgSnap v a) s = .next t ∧ t.dev.led.active = [] ∧ t.dev.led.activeD = {} ∧
      t.dev.led.frozen = s.dev.led.active.map (fun (p : Nat × Bank) => (p.1, p.2.freeze (2 ^ 14))) ∧ t.dev.led.seq = (s.dev.led.seq + 1) % 2 ^ 32 ∧
      t.dev.rd F.LG_CTL_EXPEN = 0 ∧ t.dev.cells = s.dev.cells) ∧
  -- A late swap.
  (∀ (s : State) (e : Export),
    s.dev.live = true →
    s.dev.time % (1000 * s.dev.rd F.LG_CFG_PERIOD) = 0 →
    s.dev.led.swapAt ≠ some s.dev.time →
    s.dev.led.run = some e →
    exec (.ledgerSwap) s = .next (s.withDev (raise 0xC2 (({ s.dev with led := { s.dev.led with swapAt := some s.dev.time, due := s.dev.led.due ++ [.scheduled] } } : Dev).wr F.LG_STAT_LATE (satAdd 8 (s.dev.rd F.LG_STAT_LATE) 1))))) ∧
  -- A swap while CCLK is stopped.
  (∀ (s : State),
    s.dev.inReset = false →
    s.dev.cclkOn = false →
    s.dev.time % (1000 * s.dev.rd F.LG_CFG_PERIOD) = 0 →
    s.dev.led.swapAt ≠ some s.dev.time →
    exec (.ledgerSwap) s = .next (s.withDev ({ s.dev with led := { s.dev.led with swapAt := some s.dev.time, mergedDue := true } }))) ∧
  -- Between two multiples, or a second time at one.
  (∀ (s : State),
    s.dev.time % (1000 * s.dev.rd F.LG_CFG_PERIOD) ≠ 0 ∨ s.dev.led.swapAt = some s.dev.time →
    exec (.ledgerSwap) s = .next (s.withDev (s.dev))) ∧
  -- A swap in reset.
  (∀ (s : State),
    s.dev.inReset = true →
    exec (.ledgerSwap) s = .next (s.withDev (s.dev))) ∧
  -- The end of an export.
  (∀ (s : State) (e : Export),
    s.dev.live = true →
    s.dev.led.run = some e →
    e.header = false →
    e.tries = 0 →
    4096 ≤ e.next ∨ e.failed = true →
    exec (.ledgerExportEnd) s = .next (s.withDev (request 0 true { what := .ledgerHeader, addr := s.dev.rd64 F.LG_EXP_LO_ADDR F.LG_EXP_HI_ADDR + e.half * 266240, len := 64, data := exportHeader s.dev e (!e.failed) } { s.dev with led := { s.dev.led with run := some { e with header := true } } }))) ∧
  -- A cap interval boundary.
  (∀ (s : State),
    s.dev.inReset = false →
    s.dev.time % (1000 * s.dev.rd F.LG_CFG_CAPINT) = 0 →
    s.dev.led.capAt ≠ some s.dev.time →
    ∃ t, exec (.capIntervalBoundary) s = .next t ∧ (∀ n : Fin 4096, t.dev.rd F.TN_CAPUSE_USE n = 0 ∧ t.dev.rd F.TN_USE_CAPPED n = 0 ∧
      t.dev.rd F.TN_USE_CELLS n = s.dev.rd F.TN_USE_CELLS n) ∧ t.dev.led = { s.dev.led with capNs := [], capAt := some s.dev.time } ∧
      t = s.withDev { s.dev with regs := t.dev.regs, captured := t.dev.captured, led := t.dev.led }) ∧
  -- LG_TIME is set back.
  (∀ (s : State) (v : Word) (a : Acc) (l : Nat),
    s.dev.takes 0x7010 a = true →
    s.dev.led.timeHeld = some l →
    v.toNat * 2 ^ 32 + l < s.dev.time →
    l < 2 ^ 32 →
    (v.toNat * 2 ^ 32 + l) % (1000 * s.dev.rd F.LG_CFG_PERIOD) ≠ 0 →
    (v.toNat * 2 ^ 32 + l) % (1000 * s.dev.rd F.LG_CFG_CAPINT) ≠ 0 →
    exec (.lgTimeWrite v a) s = .next (s.withDev ((({ s.dev with led := { s.dev.led with timeHeld := none } } : Dev).wr64 F.LG_TIME_LO_TIME F.LG_TIME_HI_TIME (v.toNat * 2 ^ 32 + l)).acked 0)))

/-- The scrubber, laps, fills and the error log. A scrub read of a clean word moves to the next; one that corrects an
error also counts it and logs it as kind 3. The lap alarm is raised once, when LAP.CUR passes LAPLIM. MP_FILL starts a
fill of a CORE region under firmware fill and counts a drop while one runs; the end of a fill makes its region ready
and raises source 0x084. MP_LOGPOP takes the oldest entry into MP_LOGE0 and MP_LOGE1, or clears VALID. Writing 1 to
VALID arms the capture again. (R365, R367, R368, R369, R370, R372) Commands said to answer a next state: scrubRead,
lapAlarm, mpFillGo, mpFillEnd, mpLogpop, mpUelogRearm. -/
def Obligations.MemoryProtection : Prop :=
  -- A clean word.
  (∀ (s : State) (r : Fin 12) (w : Nat),
    s.dev.live = true →
    s.dev.on F.MP_CFG_SCRUBEN = true →
    regionReady s.dev r = true →
    w = (look s.dev.mp.pos r).getD 0 →
    look s.dev.mp.bad (wordKey r w) = none →
    w % 512 ≠ 511 →
    w + 1 < regionWords.getD r 0 →
    exec (.scrubRead r .clean 0 false) s = .next (s.withDev ({ s.dev with mp := { s.dev.mp with pos := ins s.dev.mp.pos r (w + 1) } }))) ∧
  -- A corrected word.
  (∀ (s : State) (r : Fin 12) (w : Nat) (y : Nat) (m : Nat),
    s.dev.live = true →
    s.dev.on F.MP_CFG_SCRUBEN = true →
    regionReady s.dev r = true →
    w = (look s.dev.mp.pos r).getD 0 →
    look s.dev.mp.bad (wordKey r w) = none →
    w % 512 ≠ 511 →
    w + 1 < regionWords.getD r 0 →
    y ≠ 0xFF →
    s.dev.mp.log = [] →
    ∃ t, exec (.scrubRead r (.corrected m y) 0 false) s = .next t ∧
      t.dev.mp.log = [{ region := r, word := w, kind := 3, synd := y, time := logTime s.dev }] ∧
      t.dev.rd (F.MP_RCNT_CE.ix r) = satAdd 16 (s.dev.rd (F.MP_RCNT_CE.ix r)) 1 ∧ t.dev.rd F.MP_LOGSTAT_COUNT = 1 ∧ look t.dev.mp.pos r = some (w + 1)) ∧
  -- A region that is not ready.
  (∀ (s : State) (r : Fin 12) (m : Mem),
    regionReady s.dev r = false →
    exec (.scrubRead r m 5 true) s = .next (s.withDev (s.dev))) ∧
  -- A lap too long.
  (∀ (s : State),
    s.dev.live = true →
    s.dev.on F.MP_SCRUB_LAPLIM = true →
    10 * s.dev.rd F.MP_SCRUB_LAPLIM < s.dev.rd F.MP_LAP_CUR →
    s.dev.mp.alarmed = false →
    exec (.lapAlarm) s = .next (s.withDev (raise 0x83 { s.dev with mp := { s.dev.mp with alarmed := true } }))) ∧
  -- No second alarm.
  (∀ (s : State),
    s.dev.mp.alarmed = true →
    exec (.lapAlarm) s = .next (s.withDev (s.dev))) ∧
  -- A fill starts.
  (∀ (s : State) (v : Word) (a : Acc),
    s.dev.takes 0x8008 a = true →
    fld v.toNat 4 4 ≤ 11 →
    isRet (fld v.toNat 4 4) = false →
    s.dev.on F.MP_CFG_INIT = true →
    s.dev.on F.MP_STAT_FILLBUSY = false →
    exec (.mpFillGo v a) s = .next (s.withDev (((({ s.dev with mp := { s.dev.mp with filling := fld v.toNat 4 4 } }.wr F.MP_FILL_REGION (fld v.toNat 4 4)).wr F.MP_STAT_FILLBUSY 1).wr F.MP_FILL_GO 1).acked 0))) ∧
  -- A fill while one runs.
  (∀ (s : State) (v : Word) (a : Acc),
    s.dev.takes 0x8008 a = true →
    s.dev.on F.MP_STAT_FILLBUSY = true →
    exec (.mpFillGo v a) s = .next (s.withDev ((s.dev.wr F.MP_FILL_DROP (satAdd 8 (s.dev.rd F.MP_FILL_DROP) 1)).acked 0))) ∧
  -- A fill ends.
  (∀ (s : State),
    s.dev.live = true →
    s.dev.on F.MP_STAT_FILLBUSY = true →
    s.dev.on F.TST_INJ_ARM = false →
    s.dev.mp.filling ≤ 11 →
    ∃ t, exec (.mpFillEnd) s = .next t ∧ t.dev.rd F.MP_STAT_FILLBUSY = 0 ∧ t.dev.rd F.MP_FILL_GO = 0 ∧ regionReady t.dev s.dev.mp.filling = true ∧
      bit t.dev.int.pend 0x84 = true ∧ t.dev.mp.bad = s.dev.mp.bad.filter (fun (p : Nat × Nat) => p.1 / 2 ^ 20 != s.dev.mp.filling) ∧
      t = s.withDev { s.dev with regs := t.dev.regs, cls := t.dev.cls, dma := t.dev.dma, fab := t.dev.fab, int := t.dev.int, lm := t.dev.lm, mp := t.dev.mp, pm := t.dev.pm } ∧
      s.dev.onlyAt [(0x400C, 0x400C), (0x4804, 0x48FC), (0x8004, 0x802C), (0x8100, 0x812C), (0xC200, 0xC200), (0xD104, 0xD104), (0xD118, 0xD118)] t.dev) ∧
  -- An entry is taken.
  (∀ (s : State) (a : Acc) (e : LogEnt) (r : List LogEnt),
    s.dev.takes 0x801C a = true →
    s.dev.mp.log = e :: r →
    ∃ t, exec (.mpLogpop a) s = .next t ∧ t.dev.mp.log = r ∧ t.dev.rd F.MP_LOGSTAT_COUNT = r.length % 2 ^ 6 ∧
      t.dev.rd F.MP_LOGE0_REGION = e.region % 16 ∧ t.dev.rd F.MP_LOGE0_WORD = e.word % 2 ^ 19 ∧ t.dev.rd F.MP_LOGE0_KIND = e.kind % 4 ∧
      t.dev.rd F.MP_LOGE0_REPEAT = e.repeats % 64 ∧ t.dev.rd F.MP_LOGE1_SYND = e.synd % 256 ∧ t.dev.rd F.MP_LOGE1_VALID = 1 ∧
      t.dev.rd F.MP_LOGE1_TIME = e.time % 2 ^ 23 ∧ t = s.withDev { s.dev with regs := t.dev.regs, mp := t.dev.mp, port := t.dev.port } ∧
      s.dev.onlyAt [(0x8018, 0x8024)] t.dev) ∧
  -- The log is empty.
  (∀ (s : State) (a : Acc),
    s.dev.takes 0x801C a = true →
    s.dev.mp.log = [] →
    exec (.mpLogpop a) s = .next (s.withDev ((s.dev.wr F.MP_LOGE1_VALID 0).acked 0))) ∧
  -- The capture is armed again.
  (∀ (s : State) (a : Acc),
    s.dev.takes 0x802C a = true →
    ∃ t, exec (.mpUelogRearm a) s = .next t ∧ t.dev.rd F.MP_UELOG1_VALID = maskOff 1 (s.dev.rd F.MP_UELOG1_VALID) 1 ∧
      t.dev.rd F.MP_UELOG1_SYND = s.dev.rd F.MP_UELOG1_SYND ∧ t = s.withDev { s.dev with regs := t.dev.regs, port := t.dev.port } ∧
      s.dev.onlyAt [(0x802C, 0x802C)] t.dev)

/-- Clock losses and the supply warning. A lost CCLK latches safety link 2 and source 0x0A4 and enters the fail-safe state
with cause 5 and the pads' part of entry alone; a lost cluster link adds the whole entry with cause 6; a lost CFGCLK
is marked and the port stops; a lost AONCLK enters with cause 7 and safety link 3, and a supply warning with cause 8
and link 8. CFGCLK returning ends its mark at the port. Nothing happens while PORST_N is low. (R32, R33, R330, R392,
R393, R455) Commands said to answer a next state: clockLoss, aonclkWatch, supplyWarning, cfgclkReturn. -/
def Obligations.ClocksAndSupply : Prop :=
  -- CCLK.
  (∀ (s : State),
    s.dev.inReset = false →
    s.dev.cclkOn = true →
    s.dev.on F.FS_STAT_ACTIVE = false →
    exec (.clockLoss 0) s = .next (s.withDev (failSafeMark 5 0 0 (({ raise 0xA4 (safeLink 2 s.dev) with pins := { (safeLink 2 s.dev).pins with cclkLost := true } } : Dev).wr F.PM_CLKMON_CCLK 1)))) ∧
  -- A cluster link.
  (∀ (s : State) (k : Fin 4),
    s.dev.inReset = false →
    s.dev.cclkOn = true →
    s.dev.on F.FS_STAT_ACTIVE = false →
    exec (.clockLoss ⟨k.val + 1, by omega⟩) s = .next (s.withDev (failSafeBody (failSafeMark 6 0 0 (({ raise 0xA4 (safeLink 2 s.dev) with pins := { (safeLink 2 s.dev).pins with linkLost := setBit s.dev.pins.linkLost k } } : Dev).wr F.PM_CLKMON_LINK (setBit (s.dev.rd F.PM_CLKMON_LINK) k)))))) ∧
  -- CFGCLK.
  (∀ (s : State),
    s.dev.inReset = false →
    s.dev.cclkOn = true →
    ∃ t, exec (.clockLoss 5) s = .next t ∧ t.dev.pins.cfgLost = true ∧ t.dev.rd F.PM_CLKMON_CFG = 1 ∧ t.dev.portReady = false ∧
      bit (t.dev.rd F.SPR_SAFEST_ST) 2 = true ∧ bit t.dev.int.pend 0xA4 = true ∧ t.dev.rd F.FS_STAT_ACTIVE = s.dev.rd F.FS_STAT_ACTIVE ∧
      t.dev.cells = s.dev.cells) ∧
  -- AONCLK.
  (∀ (s : State),
    s.dev.inReset = false →
    s.dev.cclkOn = true →
    s.dev.on F.FS_STAT_ACTIVE = false →
    exec (.aonclkWatch) s = .next (s.withDev (failSafeBody (failSafeMark 7 0 0 ((raise 0xA4 (safeLink 3 { s.dev with pins := { s.dev.pins with aonLost := true } })).wr F.PM_CLKMON_AON 1))))) ∧
  -- The supply.
  (∀ (s : State),
    s.dev.inReset = false →
    s.dev.cclkOn = true →
    s.dev.on F.FS_STAT_ACTIVE = false →
    exec (.supplyWarning) s = .next (s.withDev (failSafeBody (failSafeMark 8 0 0 (raise 0xA7 (safeLink 8 { s.dev with pins := { s.dev.pins with supWarnN := false } })))))) ∧
  -- In reset.
  (∀ (s : State) (k : Fin 6),
    s.dev.pins.porstN = false →
    exec (.clockLoss k) s = .next s ∧ exec .aonclkWatch s = .next s ∧ exec .supplyWarning s = .next s) ∧
  -- CFGCLK returns.
  (∀ (s : State),
    exec (.cfgclkReturn) s = .next (s.withDev ({ s.dev with pins := { s.dev.pins with cfgLost := false } })))

/-- What entry to the fail-safe state leaves. The pads' part of a fail-safe entry sets ACTIVE, RESETONLY by the cause,
CAUSE, UNIT and INDEX, clears CLEARED, DIEIDLE and MANIFEST, records cause and time in FS_LAST, counts the entry, and
drives the fail-safe row on every channel. A further cause while the state holds is counted, and replaces CAUSE only
when it is the first that needs a reset. (R246, R455, R461, R465) -/
def Obligations.FailSafeEntry : Prop :=
  -- Entry.
  (∀ (s : State) (c : Fin 13) (u : Fin 32) (i : Fin 256),
    let t := failSafeMark c u i s.dev;
      t.rd F.FS_STAT_ACTIVE = 1 ∧ t.rd F.FS_STAT_RESETONLY = b2n (resetOnly c) ∧ t.rd F.FS_STAT_CAUSE = c ∧ t.rd F.FS_STAT_CLEARED = 0 ∧
      t.rd F.FS_STAT_DIEIDLE = 0 ∧ t.rd F.FS_STAT_MANIFEST = 0 ∧
      t.rd F.FS_STAT_UNIT = u ∧ t.rd F.FS_STAT_INDEX = i ∧ t.rd F.FS_LAST_CAUSE = c ∧ t.rd F.FS_LAST_TIME = s.dev.time % 2 ^ 24 ∧
      t.rd F.FS_CNT_ENTRIES = satAdd 16 (s.dev.rd F.FS_CNT_ENTRIES) 1 ∧
      (∀ n : Fin 32, (t.chn n).pads = padsFail ∧ (t.chn n).ctxs = (s.dev.chn n).ctxs) ∧ t.cells = s.dev.cells) ∧
  -- A further cause.
  (∀ (s : State) (c : Fin 13),
    s.dev.inReset = false →
    s.dev.cclkOn = true →
    s.dev.on F.FS_STAT_ACTIVE = true →
    let t := enterFailSafe c 0 0 s.dev;
      t.rd F.FS_CNT_ENTRIES = satAdd 16 (s.dev.rd F.FS_CNT_ENTRIES) 1 ∧ t.rd F.FS_STAT_ACTIVE = s.dev.rd F.FS_STAT_ACTIVE ∧
      t.rd F.FS_STAT_CAUSE = (if s.dev.on F.FS_STAT_RESETONLY = false ∧ resetOnly c = true then c.val else s.dev.rd F.FS_STAT_CAUSE) ∧
      t.cells = s.dev.cells)

/-- Sensor readings, reinstatement and the thermal policy. A window with a reading of a cluster sensor applies the commits
that wait for an evaluation, takes the reading, checks it, takes every zone's level, and when the highest level stands
as it was shows it with its zone and with HALT at 7. TH_REINST puts each excluded zone whose bit is 1 in PROBE. TH_POL
writes the seven thresholds of policies 0 to 2 as shadows, and those of policy 3 as they were. (R376, R378, R379,
R381, R382) Commands said to answer a next state: sensorReading, thReinst, thPolWrite. -/
def Obligations.Sensors : Prop :=
  -- A window of one cluster sensor.
  (∀ (s : State) (r : Reading) (d : Dev) (lv : Nat),
    s.dev.live = true →
    32 ≤ r.sensor.val →
    d = thMax (holdCheck (Dev.each (List.range 40) zoneLevel (checkReading r.sensor (takeReading r.sensor r.cnt r.temp (beforeEvaluation s.dev))))) →
    lv = max (max (zLvl d (hotZone d)) (d.rd F.TH_FORCE_MIN)) (if safeHold d || d.th.holdTrip then 7 else 0) →
    lv = d.rd F.TH_STAT_LEVEL →
    exec (.sensorReading [r]) s = .next (s.withDev (pgmShow (((d.wr F.TH_STAT_LEVEL lv).wr F.TH_STAT_HOT (hotZone d)).put F.TH_STAT_HALT (lv == 7))))) ∧
  -- The reading that is taken.
  (∀ (s : State) (r : Reading),
    sensOn s.dev r.sensor = true →
    let t := takeReading r.sensor r.cnt r.temp s.dev;
      t.rd (F.TS_TEMP.ix r.sensor) = r.temp % 2 ^ 10 ∧ (t.sens r.sensor).cnt = r.cnt ∧
      (t.sens r.sensor).same = (if r.cnt = (s.dev.sens r.sensor).cnt then (s.dev.sens r.sensor).same + 1 else 0) ∧
      (∀ n : Fin 40, n ≠ r.sensor → t.rd (F.TS_TEMP.ix n) = s.dev.rd (F.TS_TEMP.ix n))) ∧
  -- Reinstatement of zones 0 to 31.
  (∀ (s : State) (v : Word) (a : Acc),
    s.dev.takes 0x9148 a = true →
    ∃ t, exec (.thReinst false v a) s = .next t ∧
      (∀ n : Fin 32, t.dev.rd (F.TS_STATE.ix n) = if v.toNat.testBit n && s.dev.rd (F.TS_STATE.ix n) == 1 then 2 else s.dev.rd (F.TS_STATE.ix n)) ∧
      t = s.withDev { s.dev with regs := t.dev.regs, port := t.dev.port, th := t.dev.th } ∧ s.dev.onlyAt [(0x9148, 0x9148), (0x9200, 0x929C)] t.dev) ∧
  -- Reinstatement of zones 32 to 39.
  (∀ (s : State) (v : Word) (a : Acc),
    s.dev.takes 0x914C a = true →
    ∃ t, exec (.thReinst true v a) s = .next t ∧
      (∀ n : Fin 8, t.dev.rd (F.TS_STATE.ix (32 + n)) = if v.toNat.testBit n && s.dev.rd (F.TS_STATE.ix (32 + n)) == 1 then 2 else s.dev.rd (F.TS_STATE.ix (32 + n))) ∧
      t = s.withDev { s.dev with regs := t.dev.regs, port := t.dev.port, th := t.dev.th } ∧ s.dev.onlyAt [(0x9148, 0x9148), (0x9200, 0x929C)] t.dev) ∧
  -- The policy.
  (∀ (s : State) (v : Word) (a : Acc) (k : Fin 7),
    s.dev.takes 0x9104 a = true →
    ∃ t, exec (.thPolWrite v a) s = .next t ∧
      look t.dev.shadow ((F.TH_LVL_TEMP.ix (k + 1)).key 0) = (if v.toNat % 4 = 3 then look s.dev.shadow ((F.TH_LVL_TEMP.ix (k + 1)).key 0) else some ((policyTemps (v.toNat % 4)).getD k 0)) ∧
      t.dev.rd (F.TH_LVL_TEMP.ix (k + 1)) = s.dev.rd (F.TH_LVL_TEMP.ix (k + 1)) ∧ look t.dev.shadow (F.TH_POL_POLICY.key 0) = some (v.toNat % 4) ∧
      t = s.withDev { s.dev with regs := t.dev.regs, port := t.dev.port, shadow := t.dev.shadow } ∧ s.dev.onlyAt [(0x14, 0x14), (0x9104, 0x9104)] t.dev)

/-- The thermal log and the trip output. The record of a trip that has been programmed is the log's last, its SEQ is
shown, and TH_TRIP_N falls; a failed program sets LOGFAIL and raises source 0x0A8. The trip timeout lowers TH_TRIP_N,
giving up a record that waits for an erase. The end of a preparing erase arms the log. (R383, R384, R411) Commands
said to answer a next state: thermalLogProgrammed, thermalTripTimeout, thermalLogEraseEnd. -/
def Obligations.ThermalLog : Prop :=
  -- Programmed.
  (∀ (s : State) (b : List Byte),
    s.dev.th.record = some b →
    s.dev.nor.found = true →
    s.dev.on F.CFG_LOG_ARMED = true →
    s.dev.upd.nor = 0 →
    s.dev.inReset = false →
    ∃ t, exec (.thermalLogProgrammed true) s = .next t ∧ t.dev.th.record = none ∧ t.dev.th.logSeq = leAt b 4 4 ∧
      t.dev.rd F.CFG_LOG_SEQ = leAt b 4 4 % 2 ^ 16 ∧ t.dev.pins.thTripN = false ∧
      t = s.withDev { s.dev with regs := t.dev.regs, dma := t.dev.dma, int := t.dev.int, nor := t.dev.nor, pins := t.dev.pins, th := t.dev.th } ∧
      s.dev.onlyAt [(0x400C, 0x400C), (0x4804, 0x48FC), (0x9108, 0x9108), (0xA018, 0xA018)] t.dev) ∧
  -- Not programmed.
  (∀ (s : State) (b : List Byte),
    s.dev.th.record = some b →
    s.dev.nor.found = true →
    s.dev.on F.CFG_LOG_ARMED = true →
    s.dev.upd.nor = 0 →
    s.dev.inReset = false →
    exec (.thermalLogProgrammed false) s = .next (s.withDev (raise 0xA8 (({ s.dev with th := { s.dev.th with record := none } } : Dev).wr F.TH_STAT_LOGFAIL 1)))) ∧
  -- The timeout.
  (∀ (s : State),
    s.dev.th.trip = true →
    s.dev.pins.thTripN = true →
    s.dev.th.record = none ∨ s.dev.on F.CFG_LOG_ARMED = true →
    exec (.thermalTripTimeout) s = .next (s.withDev ({ s.dev with pins := { s.dev.pins with thTripN := false } }))) ∧
  -- The timeout with a record that waits for an erase.
  (∀ (s : State) (b : List Byte),
    s.dev.th.trip = true →
    s.dev.pins.thTripN = true →
    s.dev.th.record = some b →
    s.dev.on F.CFG_LOG_ARMED = false →
    ∃ t, exec (.thermalTripTimeout) s = .next t ∧ t.dev.pins.thTripN = false ∧ t.dev.th.record = none ∧ t.dev.rd F.TH_STAT_LOGFAIL = 1 ∧
      t = s.withDev { s.dev with regs := t.dev.regs, int := t.dev.int, pins := t.dev.pins, th := t.dev.th } ∧
      s.dev.onlyAt [(0x400C, 0x400C), (0x4804, 0x48FC), (0x9108, 0x9108)] t.dev) ∧
  -- No trip.
  (∀ (s : State),
    s.dev.th.trip = false →
    exec (.thermalTripTimeout) s = .next (s.withDev (s.dev))) ∧
  -- The erase ends.
  (∀ (s : State),
    s.dev.live = true →
    s.dev.on F.CFG_LOG_PREP = true →
    ∃ t, exec (.thermalLogEraseEnd) s = .next t ∧ t.dev.rd F.CFG_LOG_PREP = 0 ∧ t.dev.rd F.CFG_LOG_ARMED = 1 ∧
      t = s.withDev { s.dev with regs := t.dev.regs, nor := t.dev.nor } ∧ s.dev.onlyAt [(0xA018, 0xA018)] t.dev) ∧
  -- No erase is due.
  (∀ (s : State),
    s.dev.on F.CFG_LOG_PREP = false →
    exec (.thermalLogEraseEnd) s = .next (s.withDev (s.dev)))

/-- Nap and Hibernate: request, cancel, entry, wake. A request from Awake or Doze makes the state ENTERING with REQ.
Cancelling it, or WAKE_IN, makes it Awake again with REQ 0 and BLOCK 0. An entry whose conditions do not hold shows
the first in BLOCK; when they hold and the PHYs are off the clock is gated: NAP, no presentation stands and the ring
link is passive. ENTTO raises source 0x0A6. WAKE_IN in Nap starts the wake; its end makes the block Awake, counts the
Nap and raises source 0x0A5. (R326, R387, R388, R389, R390, R438) Commands said to answer a next state: pmNapRequest,
pmHibernateRequest, pmCancel, powerStateEntry, pmEntryTimeout, wakeInEdge, wakeCompleted. -/
def Obligations.PowerStates : Prop :=
  -- Nap is requested.
  (∀ (s : State) (a : Acc),
    s.dev.takes 0x9000 a = true →
    s.dev.rd F.PM_STAT_STATE ≤ 1 →
    s.dev.rd F.UPD_STAT_STATE = 0 →
    ∃ t, exec (.pmNapRequest a) s = .next t ∧ t.dev.rd F.PM_STAT_STATE = 2 ∧ t.dev.rd F.PM_CTL_REQ = 1 ∧ t.dev.cells = s.dev.cells ∧
      t.dev.upd = s.dev.upd) ∧
  -- Hibernate is requested.
  (∀ (s : State) (a : Acc),
    s.dev.takes 0x9000 a = true →
    s.dev.rd F.PM_STAT_STATE ≤ 1 →
    s.dev.rd F.UPD_STAT_STATE = 0 →
    ∃ t, exec (.pmHibernateRequest a) s = .next t ∧ t.dev.rd F.PM_STAT_STATE = 2 ∧ t.dev.rd F.PM_CTL_REQ = 2 ∧ t.dev.cells = s.dev.cells ∧
      t.dev.upd = s.dev.upd) ∧
  -- A request is cancelled.
  (∀ (s : State) (a : Acc),
    s.dev.takes 0x9000 a = true →
    s.dev.rd F.PM_STAT_STATE = 2 →
    ∃ t, exec (.pmCancel a) s = .next t ∧ t.dev.rd F.PM_STAT_STATE = (if s.dev.rd F.PM_PHYSTAT_ON = 0 then 1 else 0) ∧ t.dev.rd F.PM_CTL_REQ = 0 ∧
      t.dev.rd F.PM_STAT_BLOCK = 0 ∧ t.dev.pm = { s.dev.pm with off := false } ∧
      t = s.withDev { s.dev with regs := t.dev.regs, pm := t.dev.pm, port := t.dev.port } ∧ s.dev.onlyAt [(0x9000, 0x9008)] t.dev) ∧
  -- Nothing to cancel.
  (∀ (s : State) (a : Acc),
    s.dev.takes 0x9000 a = true →
    s.dev.rd F.PM_STAT_STATE ≤ 1 →
    exec (.pmCancel a) s = .next (s.withDev ((s.dev.wr F.PM_CTL_REQ 0).acked 0))) ∧
  -- An entry that waits.
  (∀ (s : State),
    s.dev.live = true →
    s.dev.rd F.PM_STAT_STATE = 2 →
    pmBlock s.dev ≠ 0 →
    exec (.powerStateEntry) s = .next (s.withDev (s.dev.wr F.PM_STAT_BLOCK (pmBlock s.dev)))) ∧
  -- Entry to Nap.
  (∀ (s : State),
    s.dev.live = true →
    s.dev.rd F.PM_STAT_STATE = 2 →
    pmBlock s.dev = 0 →
    pmWaits s.dev = false →
    s.dev.pm.off = true →
    s.dev.rd F.PM_CTL_REQ = 1 →
    ∃ t, exec (.powerStateEntry) s = .next t ∧ t.dev.rd F.PM_STAT_STATE = 3 ∧ t.dev.rd F.PM_STAT_BLOCK = 0 ∧ t.dev.pm.hib = false ∧
      t.dev.int.pres = [] ∧ t.dev.ring.active = false ∧ t.dev.cclkOn = false ∧ t.dev.cells = s.dev.cells) ∧
  -- No request.
  (∀ (s : State),
    s.dev.rd F.PM_STAT_STATE ≠ 2 →
    exec .powerStateEntry s = .next s ∧ exec .pmEntryTimeout s = .next s) ∧
  -- The timeout.
  (∀ (s : State),
    s.dev.live = true →
    s.dev.rd F.PM_STAT_STATE = 2 →
    s.dev.on F.PM_CFG_ENTTO = true →
    exec (.pmEntryTimeout) s = .next (s.withDev (raise 0xA6 s.dev))) ∧
  -- WAKE_IN in Nap.
  (∀ (s : State),
    s.dev.inReset = false →
    s.dev.rd F.PM_STAT_STATE = 3 →
    exec (.wakeInEdge) s = .next (s.withDev (({ s.dev with pins := { s.dev.pins with wakeIn := true } } : Dev).wr F.PM_STAT_STATE 4))) ∧
  -- WAKE_IN while awake.
  (∀ (s : State),
    s.dev.rd F.PM_STAT_STATE ≤ 1 →
    exec (.wakeInEdge) s = .next (s.withDev ({ s.dev with pins := { s.dev.pins with wakeIn := true } }))) ∧
  -- The wake from Nap ends.
  (∀ (s : State) (us : Nat),
    s.dev.rd F.PM_STAT_STATE = 4 →
    s.dev.pm.hib = false →
    s.dev.pins.cclkLost = false →
    s.dev.pins.aonLost = false →
    s.dev.int.held = [] →
    s.dev.led.mergedDue = false →
    s.dev.pm.causes = [] →
    s.dev.port.waiting = [] →
    ∃ t, exec (.wakeCompleted us []) s = .next t ∧ t.dev.rd F.PM_STAT_STATE = (if s.dev.rd F.PM_PHYSTAT_ON = 0 then 1 else 0) ∧
      t.dev.rd F.PM_CTL_REQ = 0 ∧ t.dev.rd F.PM_STAT_LASTHIB = 0 ∧ t.dev.rd F.PM_CNT_NAPS = (s.dev.rd F.PM_CNT_NAPS + 1) % 2 ^ 16 ∧
      t.dev.rd F.PM_WAKE_LAST = min us 65535 ∧ bit t.dev.int.pend 0xA5 = true ∧ t.dev.cells = s.dev.cells) ∧
  -- No wake is in progress.
  (∀ (s : State) (us : Nat),
    s.dev.rd F.PM_STAT_STATE ≠ 4 →
    s.dev.cclkOn = false ∨ s.dev.port.waiting = [] →
    exec (.wakeCompleted us []) s = .next s)

/-- Resets, the boot, and the end of boot enumeration. PORST_N leaves every unit at its reset state with tenant 0 enabled
and the NOR as it was, but for a background erase, which completes. SRST_N leaves the die geometry, LG_TIME and the
thermal trip mark and drops the tickets. The release of a reset with a good configuration header boots to PHASE 7 and
READY with the boot time; with a discovery error it ends in PHASE 8 with the error; in test mode nothing boots; with
PFAIL_N low it waits in PHASE 9, whose end boots. The end of boot enumeration clears ENUM, records its time and raises
source 0x0D0. (R397, R398, R399, R400, R401, R402, R404, R409, R410, R490) Commands said to answer a next state:
porstNAssert, srstNAssert, resetReleased, bootPfailWaitEnd, bootEnumEnded. -/
def Obligations.ResetsAndBoot : Prop :=
  -- PORST_N.
  (∀ (s : State),
    s.fuse.trims = [] →
    s.dev.nor.undone = [] →
    ∃ t, exec (.porstNAssert) s = .next t ∧ t.dev.pins.porstN = false ∧ t.dev.cells = [] ∧
      t.dev.nor.mem = (if s.dev.on F.CFG_LOG_PREP = true then norErase (logAddr (s.dev.rd F.CFG_LOG_NEXT)) s.dev else s.dev).nor.mem ∧
      t.dev.rd F.PM_STAT_STATE = 0 ∧ t.dev.rd F.BOOT_STAT_PHASE = 0 ∧ t.dev.rd F.BOOT_STAT_READY = 0 ∧ t.dev.rd F.FS_STAT_ACTIVE = 0 ∧
      t.dev.rd F.TN_CFG_EN 0 = 1 ∧ t.dev.rd F.TN_CFG_EN 1 = 0 ∧ t.dev.rd F.LG_TIME_LO_TIME = 0 ∧ t.dev.int.pend = 0 ∧ t.fuse = s.fuse) ∧
  -- SRST_N.
  (∀ (s : State) (x : Fin 1024),
    s.dev.pins.porstN = true →
    s.dev.nor.undone = [] →
    ∃ t, exec (.srstNAssert) s = .next t ∧ t.dev.pins.srstN = false ∧ t.dev.rd F.PM_STAT_BLOCK = s.dev.rd F.PM_STAT_BLOCK ∧ t.dev.cells = [] ∧
      t.dev.nor.mem = (if s.dev.on F.CFG_LOG_PREP = true then norErase (logAddr (s.dev.rd F.CFG_LOG_NEXT)) s.dev else s.dev).nor.mem ∧
      t.dev.rd F.PM_STAT_STATE = s.dev.rd F.PM_STAT_STATE ∧ t.dev.rd F.BOOT_STAT_PHASE = 0 ∧ t.dev.rd F.BOOT_STAT_READY = 0 ∧
      t.dev.rd F.FS_STAT_ACTIVE = 0 ∧ t.dev.rd F.DIE_GEOM1_PGLEN x = s.dev.rd F.DIE_GEOM1_PGLEN x ∧
      t.dev.rd F.LG_TIME_LO_TIME = s.dev.rd F.LG_TIME_LO_TIME ∧ t.dev.rd F.TH_STAT_TRIPPED = s.dev.rd F.TH_STAT_TRIPPED ∧
      t.dev.rd F.FS_LAST_CAUSE = s.dev.rd F.FS_LAST_CAUSE ∧ t.dev.int.pend = 0 ∧ t.fuse = s.fuse) ∧
  -- A boot.
  (∀ (s : State) (e : BootEnv),
    s.dev.inReset = true →
    s.dev.pins.pfailN = true →
    (if s.dev.cold then e.testMode else s.dev.tst.testMode) = false →
    s.dev.upd.recoverNext = false →
    sfdpErr e.sfdp = 0 →
    s.dev.on F.FS_STAT_ACTIVE = false →
    e.stop = none →
    headerErr s.fuse.uid (norRead s.dev 0 64) = 0 →
    ∃ t, exec (.resetReleased e) s = .next t ∧ t.dev.rd F.BOOT_STAT_PHASE = 7 ∧ t.dev.rd F.BOOT_STAT_READY = 1 ∧
      t.dev.rd F.BOOT_TIME_TIME = min e.us 65535 ∧ t.dev.inReset = false ∧ t.fuse = s.fuse) ∧
  -- A discovery error.
  (∀ (s : State) (e : BootEnv),
    s.dev.inReset = true →
    s.dev.pins.pfailN = true →
    (if s.dev.cold then e.testMode else s.dev.tst.testMode) = false →
    sfdpErr e.sfdp ≠ 0 →
    s.dev.on F.FS_STAT_ACTIVE = false →
    e.stop = none →
    ∃ t, exec (.resetReleased e) s = .next t ∧ t.dev.rd F.BOOT_STAT_PHASE = 8 ∧ t.dev.rd F.BOOT_STAT_ERR = sfdpErr e.sfdp ∧ t.dev.inReset = false ∧
      t.dev.cells = s.dev.cells) ∧
  -- Test mode.
  (∀ (s : State) (e : BootEnv),
    s.dev.inReset = true →
    s.dev.cold = true →
    e.testMode = true →
    ∃ t, exec (.resetReleased e) s = .next t ∧ t.dev.tst.testMode = true ∧ t.dev.inReset = false ∧
      t.dev.rd F.BOOT_STAT_PHASE = s.dev.rd F.BOOT_STAT_PHASE ∧ t.dev.regs = s.dev.regs) ∧
  -- PFAIL_N low.
  (∀ (s : State) (e : BootEnv),
    s.dev.inReset = true →
    s.dev.pins.pfailN = false →
    (if s.dev.cold then e.testMode else s.dev.tst.testMode) = false →
    ∃ t, exec (.resetReleased e) s = .next t ∧ t.dev.rd F.BOOT_STAT_PHASE = 9 ∧ t.dev.inReset = false) ∧
  -- The wait ends.
  (∀ (s : State) (e : BootEnv),
    s.dev.inReset = false →
    s.dev.tst.testMode = false →
    s.dev.rd F.BOOT_STAT_PHASE = 9 →
    sfdpErr e.sfdp ≠ 0 →
    s.dev.on F.FS_STAT_ACTIVE = false →
    e.stop = none →
    ∃ t, exec (.bootPfailWaitEnd e) s = .next t ∧ t.dev.rd F.BOOT_STAT_PHASE = 8 ∧ t.dev.rd F.BOOT_STAT_ERR = sfdpErr e.sfdp ∧ t.dev.pins.pfailN = true) ∧
  -- Boot enumeration ends after a warm boot.
  (∀ (s : State) (ms : Nat),
    s.dev.live = true →
    s.dev.on F.BOOT_STAT_ENUM = true →
    ((bitsOf 32 s.dev.bootCh).all fun c => !s.dev.on F.CH_STAT_ENUMBUSY c) = true →
    s.dev.cold = false →
    exec (.bootEnumEnded ms) s = .next (s.withDev (raise 0xD0 ((s.dev.wr F.BOOT_STAT_ENUM 0).wr F.BOOT_TIME_ENUM (min ms 65535))))) ∧
  -- While a channel enumerates.
  (∀ (s : State) (ms : Nat),
    ((bitsOf 32 s.dev.bootCh).any fun c => s.dev.on F.CH_STAT_ENUMBUSY c) = true →
    exec (.bootEnumEnded ms) s = .next (s.withDev (s.dev)))

/-- A commit captures shadows, and a safe point puts them in force. COMMIT of a group takes the shadows pending in the
instances it names out of the pending ones into the captured ones; it is dropped with cause 3, and counted in
COMMIT_STAT.DROP, while an earlier commit of the group waits in one of them. At the safe point the captured values of
the part are in force. A die window whose commit fails its check keeps its shadows pending, and DIEW_ERR names the
first failing die and the code. (R18, R265, R412, R413, R415) Commands said to answer a next state: commit,
commitApplied. -/
def Obligations.Commits : Prop :=
  -- Capture.
  (∀ (s : State) (v : Word) (a : Acc),
    s.dev.takes 0x10 a = true →
    fld v.toNat 0 4 ≤ 8 →
    fld v.toNat 0 4 ≠ 0 →
    commitWaits s.dev (fld v.toNat 0 4) (fun i => fld v.toNat 8 1 != 0 || (match fld v.toNat 0 4 with | 0 => i == selIndex s.dev a.dom.val .ch | 1 => i == selIndex s.dev a.dom.val .cl | 3 => i == selIndex s.dev a.dom.val .ten | _ => true)) = false →
    ∃ t, exec (.commit v a) s = .next t ∧
      t.dev.shadow = s.dev.shadow.filter (fun p => !(fun (p : Nat × Nat) => cmGroup (keyOff p.1) == fld v.toNat 0 4 && (!groupSelects (fld v.toNat 0 4) || (fun i => fld v.toNat 8 1 != 0 || (match fld v.toNat 0 4 with | 0 => i == selIndex s.dev a.dom.val .ch | 1 => i == selIndex s.dev a.dom.val .cl | 3 => i == selIndex s.dev a.dom.val .ten | _ => true)) (keyInst p.1))) p) ∧
      t.dev.captured = insAll s.dev.captured (s.dev.shadow.filter (fun (p : Nat × Nat) => cmGroup (keyOff p.1) == fld v.toNat 0 4 && (!groupSelects (fld v.toNat 0 4) || (fun i => fld v.toNat 8 1 != 0 || (match fld v.toNat 0 4 with | 0 => i == selIndex s.dev a.dom.val .ch | 1 => i == selIndex s.dev a.dom.val .cl | 3 => i == selIndex s.dev a.dom.val .ten | _ => true)) (keyInst p.1)))) ∧
      t.dev.rd F.COMMIT_STAT_WAIT = t.dev.captured.foldl (fun m p => setBit m (cmGroup (keyOff p.1))) 0 % 2 ^ 9 ∧
      t = s.withDev { s.dev with regs := t.dev.regs, captured := t.dev.captured, port := t.dev.port, shadow := t.dev.shadow } ∧
      s.dev.onlyAt [(0x10, 0x14), (0x1008, 0x1008)] t.dev) ∧
  -- Capture for a channel: new rates stop new tickets.
  (∀ (s : State) (c : Nat) (r : Nat) (a : Acc),
    s.dev.takes 0x10 a = true →
    selIndex s.dev a.dom.val .ch = c →
    s.dev.captured = [] →
    s.dev.shadow = [(F.CH_OPCFG_RATE.key c, r)] →
    c < 32 →
    r ≠ s.dev.rd F.CH_OPCFG_RATE c →
    ∃ t, exec (.commit 0 a) s = .next t ∧ t.dev.shadow = [] ∧ t.dev.captured = [(F.CH_OPCFG_RATE.key c, r)] ∧ t.dev.rd F.CH_STAT_RECHG c = 1 ∧
      t.dev.rd F.CH_OPCFG_RATE c = s.dev.rd F.CH_OPCFG_RATE c ∧
      t = s.withDev { s.dev with regs := t.dev.regs, captured := t.dev.captured, port := t.dev.port, shadow := t.dev.shadow } ∧
      s.dev.onlyAt [(0x10, 0x14), (0x1008, 0x1008)] t.dev) ∧
  -- An earlier commit waits.
  (∀ (s : State) (v : Word) (a : Acc),
    s.dev.takes 0x10 a = true →
    fld v.toNat 0 4 ≤ 8 →
    commitWaits s.dev (fld v.toNat 0 4) (fun i => fld v.toNat 8 1 != 0 || (match fld v.toNat 0 4 with | 0 => i == selIndex s.dev a.dom.val .ch | 1 => i == selIndex s.dev a.dom.val .cl | 3 => i == selIndex s.dev a.dom.val .ten | _ => true)) = true →
    exec (.commit v a) s = .next (s.withDev (((s.dev.wr F.COMMIT_STAT_DROP (satAdd 6 (s.dev.rd F.COMMIT_STAT_DROP) 1)).writeError 0x10 a 0 3).acked 0))) ∧
  -- The safe point of one captured field.
  (∀ (s : State) (v : Nat),
    s.dev.live = true →
    s.dev.captured = [(F.LIFT_BUDGET_ARRAY.key 0, v)] →
    v < 2 ^ 12 →
    ∃ t, exec (.commitApplied 6 0 0) s = .next t ∧ t.dev.rd F.LIFT_BUDGET_ARRAY = v ∧ t.dev.rd F.LIFT_BUDGET_IO = s.dev.rd F.LIFT_BUDGET_IO ∧
      t.dev.captured = [] ∧ t.dev.rd F.COMMIT_STAT_WAIT = 0 ∧ t.dev.cells = s.dev.cells) ∧
  -- The safe point of a group or part whose values need nothing more.
  (∀ (s : State) (g : Fin 9) (n : Fin 4096) (part : Fin 2),
    s.dev.live = true →
    g.val ∉ [0, 2, 3, 8] →
    (s.dev.captured.filter fun (p : Nat × Nat) => inGroup g n p.1 && partOf p.1 == part.val) ≠ [] →
    ∃ t, exec (.commitApplied g n part) s = .next t ∧
      t.dev.captured = (s.dev.captured.filter fun (p : Nat × Nat) => !(inGroup g n p.1 && partOf p.1 == part.val)) ∧ t.dev.shadow = s.dev.shadow ∧
      t.dev.cells = s.dev.cells ∧ t.dev.chs = s.dev.chs) ∧
  -- A die window that fails its check.
  (∀ (s : State) (x : Nat) (code : Nat),
    s.dev.live = true →
    dieCheck false (s.dev.captured.filter fun (p : Nat × Nat) => inGroup 2 0 p.1 && partOf p.1 == 0) s.dev = some (x, code) →
    (s.dev.captured.filter fun (p : Nat × Nat) => inGroup 2 0 p.1 && partOf p.1 == 0) ≠ [] →
    ∃ t, exec (.commitApplied 2 0 0) s = .next t ∧ t.dev.rd F.DIEW_ERR_FAIL = 1 ∧ t.dev.rd F.DIEW_ERR_DIX = x % 2 ^ 10 ∧
      t.dev.rd F.DIEW_ERR_CODE = code % 2 ^ F.DIEW_ERR_CODE.w ∧
      t.dev.captured = s.dev.captured.filter fun (p : Nat × Nat) => !(inGroup 2 0 p.1 && partOf p.1 == 0) ∧
      t.dev.shadow = insAll (s.dev.captured.filter fun (p : Nat × Nat) => inGroup 2 0 p.1 && partOf p.1 == 0) s.dev.shadow ∧
      (∀ y : Fin 32, t.dev.rd F.DIE_MAP_V y = s.dev.rd F.DIE_MAP_V y))

/-- An update session: open, intake, and its NOR operations. UPD_OPEN with a target and length that are allowed starts the
erase of the target and clears what the last session left. The end of the erase opens the session. UPD_DATA adds its
four bytes at UPD_OFF, and moves UPD_OFF on by 4. FLUSH programs the intake, and the end of the program leaves its
bytes in the NOR. A write of UPD_OFF sets it. ABORT ends a session with ERR 12. While the intake programs data are
dropped and counted. (R418, R419, R420, R422) Commands said to answer a next state: updOpen, updEraseEnd, updData,
updOffWrite, updFlush, intakeProgramEnd, updAbort. -/
def Obligations.UpdateSession : Prop :=
  -- OPEN.
  (∀ (s : State) (v : Word) (a : Acc),
    s.dev.takes 0xA100 a = true →
    s.dev.rd F.UPD_STAT_STATE = 0 →
    s.dev.on F.SC_STAT_BUSY = false →
    fld v.toNat 0 3 ≤ 4 →
    fld v.toNat 9 1 = 0 ∧ fld v.toNat 10 1 = 0 ∧ fld v.toNat 11 1 = 0 →
    s.dev.nor.found = true →
    targetOk s.dev (fld v.toNat 0 3) = true →
    lenOk (fld v.toNat 0 3) (s.dev.rd F.UPD_LEN_LEN) = true →
    ∃ t, exec (.updOpen v a) s = .next t ∧ t.dev.rd F.UPD_CTL_TARGET = fld v.toNat 0 3 ∧ t.dev.rd F.UPD_STAT_STATE = 1 ∧ t.dev.rd F.UPD_STAT_ERR = 0 ∧
      t.dev.rd F.UPD_ERRPOS_POS = 0 ∧ t.dev.rd F.UPD_RCVD_BYTES = 0 ∧ t.dev.rd F.UPD_STAT_HDROK = 0 ∧
      (fld v.toNat 0 3 ≤ 1 → t.dev.rd (vok (fld v.toNat 0 3)) = 0) ∧ t.dev.upd.got = [] ∧ t.dev.upd.intake = [] ∧ t.dev.upd.nor = 1 ∧
      t.dev.nor = (Dev.each (List.range ((s.dev.rd F.UPD_LEN_LEN + 4095) / 4096)) (fun i d => norErase (targetAddr (fld v.toNat 0 3) + 4096 * i) d) s.dev).nor ∧
      t = s.withDev { s.dev with regs := t.dev.regs, int := t.dev.int, nor := t.dev.nor, port := t.dev.port, upd := t.dev.upd } ∧
      s.dev.onlyAt [(0x400C, 0x400C), (0x4804, 0x48FC), (0xA100, 0xA118), (0xA244, 0xA244)] t.dev) ∧
  -- The target is not allowed.
  (∀ (s : State) (v : Word) (a : Acc),
    s.dev.takes 0xA100 a = true →
    s.dev.rd F.UPD_STAT_STATE = 0 →
    s.dev.on F.SC_STAT_BUSY = false →
    fld v.toNat 0 3 ≤ 4 →
    fld v.toNat 9 1 = 0 ∧ fld v.toNat 10 1 = 0 ∧ fld v.toNat 11 1 = 0 →
    s.dev.nor.found = true →
    targetOk s.dev (fld v.toNat 0 3) = false →
    ∃ t, exec (.updOpen v a) s = .next t ∧ t.dev.rd F.UPD_STAT_STATE = 0 ∧ t.dev.rd F.UPD_STAT_ERR = 2 ∧ t.dev.nor = s.dev.nor ∧
      t.dev.upd = s.dev.upd ∧
      t = s.withDev { s.dev with regs := t.dev.regs, int := t.dev.int, nor := t.dev.nor, port := t.dev.port, upd := t.dev.upd } ∧
      s.dev.onlyAt [(0x400C, 0x400C), (0x4804, 0x48FC), (0xA100, 0xA118), (0xA244, 0xA244)] t.dev) ∧
  -- The erase has ended.
  (∀ (s : State),
    s.dev.live = true →
    s.dev.upd.nor = 1 →
    s.dev.upd.aborting = false →
    s.dev.rd F.UPD_STAT_STATE = 1 →
    ∃ t, exec (.updEraseEnd true) s = .next t ∧ t.dev.rd F.UPD_STAT_STATE = 2 ∧ t.dev.upd.nor = 0 ∧ t.dev.nor = s.dev.nor ∧
      t = s.withDev { s.dev with regs := t.dev.regs, int := t.dev.int, nor := t.dev.nor, upd := t.dev.upd } ∧
      s.dev.onlyAt [(0x400C, 0x400C), (0x4804, 0x48FC), (0xA110, 0xA110)] t.dev) ∧
  -- The erase has failed.
  (∀ (s : State),
    s.dev.live = true →
    s.dev.upd.nor = 1 →
    s.dev.upd.aborting = false →
    ∃ t, exec (.updEraseEnd false) s = .next t ∧ t.dev.rd F.UPD_STAT_STATE = 5 ∧ t.dev.rd F.UPD_STAT_ERR = 8 ∧ t.dev.upd.nor = 0 ∧
      t = s.withDev { s.dev with regs := t.dev.regs, int := t.dev.int, nor := t.dev.nor, upd := t.dev.upd } ∧
      s.dev.onlyAt [(0x400C, 0x400C), (0x4804, 0x48FC), (0xA110, 0xA110)] t.dev) ∧
  -- Four bytes of a slot's header.
  (∀ (s : State) (v : Word) (a : Acc),
    s.dev.takes 0xA10C a = true →
    s.dev.rd F.UPD_STAT_STATE = 2 →
    s.dev.on F.UPD_STAT_FULL = false →
    s.dev.rd F.UPD_CTL_TARGET ≤ 1 →
    256 ≤ s.dev.rd F.UPD_LEN_LEN →
    s.dev.rd F.UPD_OFF_OFF + 4 < 256 →
    s.dev.upd.got = [] →
    s.dev.upd.intake = [] →
    s.dev.rd F.UPD_RCVD_BYTES + 4 < 2 ^ 17 →
    ∃ t, exec (.updData v a) s = .next t ∧ t.dev.rd F.UPD_OFF_OFF = s.dev.rd F.UPD_OFF_OFF + 4 ∧
      t.dev.rd F.UPD_RCVD_BYTES = s.dev.rd F.UPD_RCVD_BYTES + 4 ∧
      (∀ i : Fin 4, look t.dev.upd.intake (s.dev.rd F.UPD_OFF_OFF + i) = (leBytes 4 v.toNat)[i.val]?) ∧ t.dev.upd.got = t.dev.upd.intake ∧
      t.dev.upd.intake.length = 4 ∧ t.dev.rd F.UPD_STAT_STATE = 2 ∧ t.dev.nor = s.dev.nor ∧
      t = s.withDev { s.dev with regs := t.dev.regs, dma := t.dev.dma, int := t.dev.int, nor := t.dev.nor, port := t.dev.port, upd := t.dev.upd } ∧
      s.dev.onlyAt [(0x400C, 0x400C), (0x4804, 0x48FC), (0xA108, 0xA118)] t.dev) ∧
  -- Data while the intake programs.
  (∀ (s : State) (v : Word) (a : Acc),
    s.dev.takes 0xA10C a = true →
    s.dev.rd F.UPD_STAT_STATE ≠ 2 ∨ s.dev.on F.UPD_STAT_FULL = true →
    exec (.updData v a) s = .next (s.withDev ((s.dev.wr F.UPD_STAT_DROP (satAdd 8 (s.dev.rd F.UPD_STAT_DROP) 1)).acked 0))) ∧
  -- A write of UPD_OFF.
  (∀ (s : State) (v : Word) (a : Acc),
    s.dev.takes 0xA108 a = true →
    s.dev.rd F.UPD_STAT_STATE ≠ 2 ∨ (s.dev.upd.intake = [] ∧ s.dev.upd.flush = false) →
    ∃ t, exec (.updOffWrite v a) s = .next t ∧ t.dev.rd F.UPD_OFF_OFF = v.toNat % 2 ^ 17 / 4 * 4 ∧ t.dev.upd = s.dev.upd ∧ t.dev.nor = s.dev.nor ∧
      t = s.withDev { s.dev with regs := t.dev.regs, nor := t.dev.nor, port := t.dev.port, upd := t.dev.upd } ∧ s.dev.onlyAt [(0xA108, 0xA110)] t.dev) ∧
  -- FLUSH.
  (∀ (s : State) (v : Word) (a : Acc),
    s.dev.takes 0xA100 a = true →
    s.dev.rd F.UPD_STAT_STATE = 2 →
    fld v.toNat 0 3 = s.dev.rd F.UPD_CTL_TARGET →
    fld v.toNat 0 3 ≤ 4 →
    fld v.toNat 8 1 = 0 ∧ fld v.toNat 9 1 = 0 ∧ fld v.toNat 10 1 = 0 →
    s.dev.upd.intake ≠ [] →
    s.dev.upd.nor = 0 →
    ∃ t, exec (.updFlush v a) s = .next t ∧ t.dev.upd = { s.dev.upd with prog := s.dev.upd.intake, intake := [], flush := false, nor := 2 } ∧
      t.dev.rd F.UPD_STAT_FULL = 1 ∧ t.dev.nor = s.dev.nor ∧
      t = s.withDev { s.dev with regs := t.dev.regs, nor := t.dev.nor, port := t.dev.port, upd := t.dev.upd } ∧ s.dev.onlyAt [(0xA100, 0xA110)] t.dev) ∧
  -- The intake has been programmed.
  (∀ (s : State),
    s.dev.live = true →
    s.dev.upd.nor = 2 →
    s.dev.upd.aborting = false →
    s.dev.upd.flush = false →
    s.dev.upd.intake = [] →
    ∃ t, exec (.intakeProgramEnd true) s = .next t ∧ t.dev.upd = { s.dev.upd with nor := 0, prog := [] } ∧ t.dev.rd F.UPD_STAT_FULL = 0 ∧
      t.dev.nor = (Dev.each s.dev.upd.prog (fun (p : Nat × Byte) d => norPut (targetAddr (s.dev.rd F.UPD_CTL_TARGET) + p.1) p.2 d) s.dev).nor ∧
      t = s.withDev { s.dev with regs := t.dev.regs, int := t.dev.int, nor := t.dev.nor, upd := t.dev.upd } ∧
      s.dev.onlyAt [(0x400C, 0x400C), (0x4804, 0x48FC), (0xA110, 0xA110)] t.dev) ∧
  -- Its program has failed.
  (∀ (s : State),
    s.dev.live = true →
    s.dev.upd.nor = 2 →
    s.dev.upd.aborting = false →
    ∃ t, exec (.intakeProgramEnd false) s = .next t ∧ t.dev.rd F.UPD_STAT_STATE = 5 ∧ t.dev.rd F.UPD_STAT_ERR = 8 ∧ t.dev.nor = s.dev.nor ∧
      t = s.withDev { s.dev with regs := t.dev.regs, int := t.dev.int, nor := t.dev.nor, upd := t.dev.upd } ∧
      s.dev.onlyAt [(0x400C, 0x400C), (0x4804, 0x48FC), (0xA110, 0xA110)] t.dev) ∧
  -- ABORT.
  (∀ (s : State) (v : Word) (a : Acc),
    s.dev.takes 0xA100 a = true →
    s.dev.rd F.UPD_STAT_STATE = 2 →
    fld v.toNat 0 3 = s.dev.rd F.UPD_CTL_TARGET →
    fld v.toNat 0 3 ≤ 4 →
    fld v.toNat 8 1 = 0 ∧ fld v.toNat 9 1 = 0 ∧ fld v.toNat 11 1 = 0 →
    s.dev.upd.nor = 0 →
    ∃ t, exec (.updAbort v a) s = .next t ∧ t.dev.rd F.UPD_STAT_STATE = 5 ∧ t.dev.rd F.UPD_STAT_ERR = 12 ∧
      t = s.withDev { s.dev with regs := t.dev.regs, int := t.dev.int, port := t.dev.port, upd := t.dev.upd } ∧
      s.dev.onlyAt [(0x400C, 0x400C), (0x4804, 0x48FC), (0xA100, 0xA110)] t.dev)

/-- Verification of an update target. VERIFY of an open session whose intake is empty moves it to VERIFYING. When the
checks of the target pass, the session ends in DONE with ERR 0, and a slot shows its version and VOK. When one fails,
it ends in ERROR with the code, and a slot's version reads 0. Fewer bytes received than UPD_LEN is ERR 9. (R421)
Commands said to answer a next state: updVerify, updVerifyEnd. -/
def Obligations.UpdateVerify : Prop :=
  -- VERIFY.
  (∀ (s : State) (v : Word) (a : Acc),
    s.dev.takes 0xA100 a = true →
    s.dev.rd F.UPD_STAT_STATE = 2 →
    fld v.toNat 0 3 = s.dev.rd F.UPD_CTL_TARGET →
    fld v.toNat 0 3 ≤ 4 →
    fld v.toNat 8 1 = 0 ∧ fld v.toNat 10 1 = 0 ∧ fld v.toNat 11 1 = 0 →
    s.dev.upd.intake = [] →
    ∃ t, exec (.updVerify v a) s = .next t ∧ t.dev.rd F.UPD_STAT_STATE = 3 ∧ t.dev.upd = { s.dev.upd with stored := false, flush := false } ∧
      t.dev.nor = s.dev.nor ∧
      t = s.withDev { s.dev with regs := t.dev.regs, int := t.dev.int, nor := t.dev.nor, port := t.dev.port, upd := t.dev.upd } ∧
      s.dev.onlyAt [(0x400C, 0x400C), (0x4804, 0x48FC), (0xA100, 0xA110)] t.dev) ∧
  -- All checks pass.
  (∀ (s : State),
    s.dev.live = true →
    s.dev.rd F.UPD_STAT_STATE = 3 →
    s.dev.upd.nor = 0 →
    s.dev.rd F.UPD_RCVD_BYTES = s.dev.rd F.UPD_LEN_LEN →
    targetErr s.fuse s.dev = (0, 0, 0) →
    ∃ t, exec (.updVerifyEnd) s = .next t ∧ t.dev.rd F.UPD_STAT_STATE = 4 ∧ t.dev.rd F.UPD_STAT_ERR = 0 ∧
      (s.dev.rd F.UPD_CTL_TARGET ≤ 1 → t.dev.rd (vok (s.dev.rd F.UPD_CTL_TARGET)) = 1 ∧
      t.dev.rd (verFld (s.dev.rd F.UPD_CTL_TARGET)) = leAt (slotHead s.dev (s.dev.rd F.UPD_CTL_TARGET)) 8 4 % 2 ^ 32) ∧ t.dev.nor = s.dev.nor ∧
      t.dev.cells = s.dev.cells) ∧
  -- A check fails.
  (∀ (s : State) (e : Nat) (pc : Nat) (p : Nat),
    s.dev.live = true →
    s.dev.rd F.UPD_STAT_STATE = 3 →
    s.dev.upd.nor = 0 →
    s.dev.rd F.UPD_RCVD_BYTES = s.dev.rd F.UPD_LEN_LEN →
    targetErr s.fuse s.dev = (e, pc, p) →
    e ≠ 0 →
    ∃ t, exec (.updVerifyEnd) s = .next t ∧ t.dev.rd F.UPD_STAT_STATE = 5 ∧ t.dev.rd F.UPD_STAT_ERR = e % 16 ∧ t.dev.rd F.UPD_ERRPOS_PCODE = pc % 16 ∧
      t.dev.rd F.UPD_ERRPOS_POS = p % 2 ^ 17 ∧ (s.dev.rd F.UPD_CTL_TARGET ≤ 1 → t.dev.rd (verFld (s.dev.rd F.UPD_CTL_TARGET)) = 0)) ∧
  -- Bytes are missing.
  (∀ (s : State),
    s.dev.live = true →
    s.dev.rd F.UPD_STAT_STATE = 3 →
    s.dev.upd.nor = 0 →
    s.dev.upd.stored = false →
    s.dev.rd F.UPD_RCVD_BYTES ≠ s.dev.rd F.UPD_LEN_LEN →
    ∃ t, exec (.updVerifyEnd) s = .next t ∧ t.dev.rd F.UPD_STAT_STATE = 5 ∧ t.dev.rd F.UPD_STAT_ERR = 9)

/-- Sealed commands that pass their checks. Each sealed command whose checks all pass ends its write of SC_GO with RES 1,
BUSY set, the consecutive-failure count clear and the counter at the command's, and has its own effect: a trial
record; a confirmed record; the next boot in recovery; a sanitise; one repair entry more in the fuses; a higher key
index; a tenant's ledger zeroed; thermal floors removed; a die in PROBATION; the ring rejoined at the epoch; the debug
level. (R355, R371, R385, R426, R427, R429, R431, R432, R433, R447, R472) Commands said to answer a next state:
scImageActivate, scImageConfirm, scRecoveryEntry, scSanitise, scFuseProgram, scKeyRotation, scTenantLedgerReset,
scThermalOverride, scDieUnfence, scRingRejoin, scDebugUnlock. -/
def Obligations.SealedCommands : Prop :=
  -- Image activate.
  (∀ (s : State) (a : Acc) (ck : Bool),
    s.dev.portReady = true →
    masked 0xA240 a s.dev = false →
    scCmd (scBytes s.dev) = 1 →
    s.dev.on F.SC_STAT_BUSY = false →
    scResult s.fuse ck (scBytes s.dev) s.dev = 1 →
    ckDue (scBytes s.dev) s.dev = false →
    scArg (scBytes s.dev) 17 1 = 0 →
    ∃ t, exec (.scImageActivate a ck) s = .next t ∧ t.dev.rd F.SC_STAT_BUSY = 1 ∧ t.dev.rd F.SC_STAT_RES = 1 ∧ t.dev.rd F.SC_STAT_FAILS = 0 ∧
      t.dev.rd64 F.SC_CTR_LO_CTR F.SC_CTR_HI_CTR = scCtr (scBytes s.dev) % 2 ^ 64 ∧ t.dev.upd.bp.active = scArg (scBytes s.dev) 16 1 ∧
      t.dev.upd.bp.trial = true ∧ t.dev.upd.bp.tries = scArg (scBytes s.dev) 18 1 ∧ t.dev.upd.bp.prev = s.dev.upd.bp.active ∧
      t.dev.rd F.UPD_BP_ACTIVE = scArg (scBytes s.dev) 16 1 % 2 ∧ t.dev.rd F.UPD_BP_TRIAL = 1 ∧ t.pending = s.pending ∧ t.fuse = s.fuse ∧
      t.dev = { s.dev with regs := t.dev.regs, cls := t.dev.cls, dma := t.dev.dma, int := t.dev.int, nor := t.dev.nor, pins := t.dev.pins, port := t.dev.port, upd := t.dev.upd } ∧
      s.dev.onlyAt [(0x400C, 0x400C), (0x4804, 0x48FC), (0xA11C, 0xA12C), (0xA240, 0xA258), (0xF004, 0xF004)] t.dev) ∧
  -- Image activate with a warm swap.
  (∀ (s : State) (a : Acc) (ck : Bool),
    s.dev.portReady = true →
    masked 0xA240 a s.dev = false →
    scCmd (scBytes s.dev) = 1 →
    s.dev.on F.SC_STAT_BUSY = false →
    scResult s.fuse ck (scBytes s.dev) s.dev = 1 →
    ckDue (scBytes s.dev) s.dev = false →
    scArg (scBytes s.dev) 17 1 = 1 →
    ∃ t, exec (.scImageActivate a ck) s = .next t ∧ t.dev.rd F.SC_STAT_BUSY = 1 ∧ t.dev.rd F.SC_STAT_RES = 1 ∧ t.dev.rd F.SC_STAT_FAILS = 0 ∧
      t.dev.rd64 F.SC_CTR_LO_CTR F.SC_CTR_HI_CTR = scCtr (scBytes s.dev) % 2 ^ 64 ∧ t.dev.upd.bp.active = scArg (scBytes s.dev) 16 1 ∧
      t.dev.rd F.UPD_SWAP_STATE = 1 ∧ t.dev.rd F.UPD_SWAP_DONE = 0 ∧ t.dev.upd.swapAt = some 0 ∧ t.dev.upd.swapSlot = scArg (scBytes s.dev) 16 1 ∧
      t.pending = s.pending ∧ t.fuse = s.fuse ∧
      t.dev = { s.dev with regs := t.dev.regs, cls := t.dev.cls, dma := t.dev.dma, int := t.dev.int, nor := t.dev.nor, pins := t.dev.pins, port := t.dev.port, upd := t.dev.upd } ∧
      s.dev.onlyAt [(0x400C, 0x400C), (0x4804, 0x48FC), (0xA11C, 0xA12C), (0xA240, 0xA258), (0xF004, 0xF004)] t.dev) ∧
  -- Image confirm.
  (∀ (s : State) (a : Acc) (ck : Bool),
    s.dev.portReady = true →
    masked 0xA240 a s.dev = false →
    scCmd (scBytes s.dev) = 2 →
    s.dev.on F.SC_STAT_BUSY = false →
    scResult s.fuse ck (scBytes s.dev) s.dev = 1 →
    ckDue (scBytes s.dev) s.dev = false →
    ∃ t, exec (.scImageConfirm a ck) s = .next t ∧ t.dev.rd F.SC_STAT_BUSY = 1 ∧ t.dev.rd F.SC_STAT_RES = 1 ∧ t.dev.rd F.SC_STAT_FAILS = 0 ∧
      t.dev.rd64 F.SC_CTR_LO_CTR F.SC_CTR_HI_CTR = scCtr (scBytes s.dev) % 2 ^ 64 ∧ t.dev.upd.bp.trial = false ∧ t.dev.upd.bp.tries = 0 ∧
      t.dev.upd.bp.active = s.dev.upd.bp.active ∧ (scArg (scBytes s.dev) 17 1 = 0 → t.dev.upd.bp.minver = s.dev.upd.bp.minver) ∧
      s.dev.upd.bp.minver ≤ t.dev.upd.bp.minver ∧ t.dev.rd F.UPD_BP_TRIAL = 0 ∧ t.pending = s.pending ∧ t.fuse = s.fuse ∧
      t.dev = { s.dev with regs := t.dev.regs, dma := t.dev.dma, int := t.dev.int, nor := t.dev.nor, pins := t.dev.pins, port := t.dev.port, upd := t.dev.upd } ∧
      s.dev.onlyAt [(0x400C, 0x400C), (0x4804, 0x48FC), (0xA11C, 0xA128), (0xA240, 0xA258)] t.dev) ∧
  -- Recovery entry.
  (∀ (s : State) (a : Acc) (ck : Bool),
    s.dev.portReady = true →
    masked 0xA240 a s.dev = false →
    scCmd (scBytes s.dev) = 3 →
    s.dev.on F.SC_STAT_BUSY = false →
    scResult s.fuse ck (scBytes s.dev) s.dev = 1 →
    s.dev.pins.porstN = true →
    ∃ t, exec (.scRecoveryEntry a ck) s = .next t ∧ t.pending = s.pending ∧ t.dev.upd.recoverNext = true ∧ t.dev.pins.srstN = false ∧
      t.dev.rd F.BOOT_STAT_PHASE = 0 ∧ t.dev.cells = [] ∧ t.fuse = s.fuse) ∧
  -- Sanitise.
  (∀ (s : State) (a : Acc) (ck : Bool),
    s.dev.portReady = true →
    masked 0xA240 a s.dev = false →
    scCmd (scBytes s.dev) = 4 →
    s.dev.on F.SC_STAT_BUSY = false →
    scResult s.fuse ck (scBytes s.dev) s.dev = 1 →
    ckDue (scBytes s.dev) s.dev = false →
    ∃ t, exec (.scSanitise a ck) s = .next t ∧ t.dev.rd F.SC_STAT_BUSY = 1 ∧ t.dev.rd F.SC_STAT_RES = 1 ∧ t.dev.rd F.SC_STAT_FAILS = 0 ∧
      t.dev.rd64 F.SC_CTR_LO_CTR F.SC_CTR_HI_CTR = scCtr (scBytes s.dev) % 2 ^ 64 ∧ t.dev.rd F.SAN_STAT_BUSY = 1 ∧ t.dev.rd F.SAN_STAT_ABORTED = 0 ∧
      t.dev.upd.sanLast = scArg (scBytes s.dev) 22 2 ∧ t.pending = s.pending ∧ t.fuse = s.fuse ∧
      t.dev = { s.dev with regs := t.dev.regs, chs := t.dev.chs, cls := t.dev.cls, dma := t.dev.dma, int := t.dev.int, nor := t.dev.nor, pins := t.dev.pins, port := t.dev.port, upd := t.dev.upd } ∧
      s.dev.onlyAt [(0x1120, 0x1120), (0x1208, 0x1208), (0x400C, 0x400C), (0x4804, 0x48FC), (0xA11C, 0xA128), (0xA240, 0xA26C)] t.dev) ∧
  -- Fuse-map program.
  (∀ (s : State) (a : Acc) (ck : Bool),
    s.dev.portReady = true →
    masked 0xA240 a s.dev = false →
    scCmd (scBytes s.dev) = 5 →
    s.dev.on F.SC_STAT_BUSY = false →
    scResult s.fuse ck (scBytes s.dev) s.dev = 1 →
    ckDue (scBytes s.dev) s.dev = false →
    ∃ t, exec (.scFuseProgram a ck) s = .next t ∧ t.dev.rd F.SC_STAT_BUSY = 1 ∧ t.dev.rd F.SC_STAT_RES = 1 ∧ t.dev.rd F.SC_STAT_FAILS = 0 ∧
      t.dev.rd64 F.SC_CTR_LO_CTR F.SC_CTR_HI_CTR = scCtr (scBytes s.dev) % 2 ^ 64 ∧
      t.fuse = { s.fuse with repairs := s.fuse.repairs ++ [(scArg (scBytes s.dev) 16 2, scArg (scBytes s.dev) 18 2, scArg (scBytes s.dev) 20 1)] } ∧
      t.pending = s.pending ∧
      t.dev = { s.dev with regs := t.dev.regs, dma := t.dev.dma, int := t.dev.int, nor := t.dev.nor, pins := t.dev.pins, port := t.dev.port, upd := t.dev.upd } ∧
      s.dev.onlyAt [(0x400C, 0x400C), (0x4804, 0x48FC), (0xA11C, 0xA128), (0xA240, 0xA258)] t.dev) ∧
  -- Key rotation of the HMAC key.
  (∀ (s : State) (a : Acc) (ck : Bool),
    s.dev.portReady = true →
    masked 0xA240 a s.dev = false →
    scCmd (scBytes s.dev) = 6 →
    s.dev.on F.SC_STAT_BUSY = false →
    scResult s.fuse ck (scBytes s.dev) s.dev = 1 →
    ckDue (scBytes s.dev) s.dev = false →
    scArg (scBytes s.dev) 16 1 = 0 →
    ∃ t, exec (.scKeyRotation a ck) s = .next t ∧ t.dev.rd F.SC_STAT_BUSY = 1 ∧ t.dev.rd F.SC_STAT_RES = 1 ∧ t.dev.rd F.SC_STAT_FAILS = 0 ∧
      t.dev.rd64 F.SC_CTR_LO_CTR F.SC_CTR_HI_CTR = scCtr (scBytes s.dev) % 2 ^ 64 ∧ t.fuse = { s.fuse with hidx := scArg (scBytes s.dev) 17 1 } ∧
      s.fuse.hidx < t.fuse.hidx ∧ t.dev.rd F.SC_KEY_HIDX = scArg (scBytes s.dev) 17 1 % 4 ∧ t.pending = s.pending ∧
      t.dev = { s.dev with regs := t.dev.regs, dma := t.dev.dma, int := t.dev.int, nor := t.dev.nor, pins := t.dev.pins, port := t.dev.port, upd := t.dev.upd } ∧
      s.dev.onlyAt [(0x400C, 0x400C), (0x4804, 0x48FC), (0xA11C, 0xA128), (0xA240, 0xA25C)] t.dev) ∧
  -- Key rotation of the signing key.
  (∀ (s : State) (a : Acc) (ck : Bool),
    s.dev.portReady = true →
    masked 0xA240 a s.dev = false →
    scCmd (scBytes s.dev) = 6 →
    s.dev.on F.SC_STAT_BUSY = false →
    scResult s.fuse ck (scBytes s.dev) s.dev = 1 →
    ckDue (scBytes s.dev) s.dev = false →
    scArg (scBytes s.dev) 16 1 = 1 →
    ∃ t, exec (.scKeyRotation a ck) s = .next t ∧ t.dev.rd F.SC_STAT_BUSY = 1 ∧ t.dev.rd F.SC_STAT_RES = 1 ∧ t.dev.rd F.SC_STAT_FAILS = 0 ∧
      t.dev.rd64 F.SC_CTR_LO_CTR F.SC_CTR_HI_CTR = scCtr (scBytes s.dev) % 2 ^ 64 ∧ t.fuse = { s.fuse with sidx := scArg (scBytes s.dev) 17 1 } ∧
      s.fuse.sidx < t.fuse.sidx ∧ t.dev.rd F.SC_KEY_SIDX = scArg (scBytes s.dev) 17 1 % 4 ∧ t.pending = s.pending ∧
      t.dev = { s.dev with regs := t.dev.regs, dma := t.dev.dma, int := t.dev.int, nor := t.dev.nor, pins := t.dev.pins, port := t.dev.port, upd := t.dev.upd } ∧
      s.dev.onlyAt [(0x400C, 0x400C), (0x4804, 0x48FC), (0xA11C, 0xA128), (0xA240, 0xA25C)] t.dev) ∧
  -- Tenant ledger reset of one tenant.
  (∀ (s : State) (a : Acc) (ck : Bool),
    s.dev.portReady = true →
    masked 0xA240 a s.dev = false →
    scCmd (scBytes s.dev) = 7 →
    s.dev.on F.SC_STAT_BUSY = false →
    scResult s.fuse ck (scBytes s.dev) s.dev = 1 →
    ckDue (scBytes s.dev) s.dev = false →
    scArg (scBytes s.dev) 16 2 ≤ 4095 →
    s.dev.led.run = none →
    ∃ t, exec (.scTenantLedgerReset a ck) s = .next t ∧ t.dev.rd F.SC_STAT_BUSY = 1 ∧ t.dev.rd F.SC_STAT_RES = 1 ∧ t.dev.rd F.SC_STAT_FAILS = 0 ∧
      t.dev.rd64 F.SC_CTR_LO_CTR F.SC_CTR_HI_CTR = scCtr (scBytes s.dev) % 2 ^ 64 ∧
      look t.dev.led.active (scArg (scBytes s.dev) 16 2) = some { flags := 2 ^ 15 } ∧ look t.dev.led.frozen (scArg (scBytes s.dev) 16 2) = some {} ∧
      t.pending = s.pending ∧ t.fuse = s.fuse ∧
      t.dev = { s.dev with regs := t.dev.regs, dma := t.dev.dma, int := t.dev.int, led := t.dev.led, nor := t.dev.nor, pins := t.dev.pins, port := t.dev.port, upd := t.dev.upd } ∧
      s.dev.onlyAt [(0x400C, 0x400C), (0x4804, 0x48FC), (0x7008, 0x7008), (0x7100, 0x71B4), (0xA11C, 0xA128), (0xA240, 0xA258)] t.dev) ∧
  -- Thermal override.
  (∀ (s : State) (a : Acc) (ck : Bool),
    s.dev.portReady = true →
    masked 0xA240 a s.dev = false →
    scCmd (scBytes s.dev) = 8 →
    s.dev.on F.SC_STAT_BUSY = false →
    scResult s.fuse ck (scBytes s.dev) s.dev = 1 →
    ckDue (scBytes s.dev) s.dev = false →
    ∃ t, exec (.scThermalOverride a ck) s = .next t ∧ t.dev.rd F.SC_STAT_BUSY = 1 ∧ t.dev.rd F.SC_STAT_RES = 1 ∧ t.dev.rd F.SC_STAT_FAILS = 0 ∧
      t.dev.rd64 F.SC_CTR_LO_CTR F.SC_CTR_HI_CTR = scCtr (scBytes s.dev) % 2 ^ 64 ∧
      (∀ n : Fin 40, t.dev.rd (F.TS_FLOOR.ix n) = if (scArg (scBytes s.dev) 16 5).testBit n then 0 else s.dev.rd (F.TS_FLOOR.ix n)) ∧
      (scArg (scBytes s.dev) 21 1 = 1 → t.dev.rd F.TH_STAT_OVR = 1) ∧ t.pending = s.pending ∧ t.fuse = s.fuse ∧
      t.dev = { s.dev with regs := t.dev.regs, dma := t.dev.dma, int := t.dev.int, nor := t.dev.nor, pins := t.dev.pins, port := t.dev.port, upd := t.dev.upd } ∧
      s.dev.onlyAt [(0x400C, 0x400C), (0x4804, 0x48FC), (0x9108, 0x9108), (0x9200, 0x929C), (0xA11C, 0xA128), (0xA240, 0xA258)] t.dev) ∧
  -- Die unfence.
  (∀ (s : State) (a : Acc) (ck : Bool),
    s.dev.portReady = true →
    masked 0xA240 a s.dev = false →
    scCmd (scBytes s.dev) = 9 →
    s.dev.on F.SC_STAT_BUSY = false →
    scResult s.fuse ck (scBytes s.dev) s.dev = 1 →
    ckDue (scBytes s.dev) s.dev = false →
    dieFenced s.dev (scArg (scBytes s.dev) 16 2) = true →
    ∃ t, exec (.scDieUnfence a ck) s = .next t ∧ t.dev.rd F.SC_STAT_BUSY = 1 ∧ t.dev.rd F.SC_STAT_RES = 1 ∧ t.dev.rd F.SC_STAT_FAILS = 0 ∧
      t.dev.rd64 F.SC_CTR_LO_CTR F.SC_CTR_HI_CTR = scCtr (scBytes s.dev) % 2 ^ 64 ∧ t.dev.rd F.DIE_STAT_STATE (scArg (scBytes s.dev) 16 2) = 4 ∧
      t.pending = s.pending ∧ t.fuse = s.fuse ∧
      t.dev = { s.dev with regs := t.dev.regs, dma := t.dev.dma, int := t.dev.int, nor := t.dev.nor, pins := t.dev.pins, port := t.dev.port, spr := t.dev.spr, tq := t.dev.tq, upd := t.dev.upd } ∧
      s.dev.onlyAt [(0x3000, 0x3000), (0x400C, 0x400C), (0x4804, 0x48FC), (0xA11C, 0xA128), (0xA240, 0xA258), (0xEC04, 0xEFC8)] t.dev) ∧
  -- Ring rejoin.
  (∀ (s : State) (a : Acc) (ck : Bool),
    s.dev.portReady = true →
    masked 0xA240 a s.dev = false →
    scCmd (scBytes s.dev) = 10 →
    s.dev.on F.SC_STAT_BUSY = false →
    scResult s.fuse ck (scBytes s.dev) s.dev = 1 →
    ckDue (scBytes s.dev) s.dev = false →
    ∃ t, exec (.scRingRejoin a ck) s = .next t ∧ t.dev.rd F.SC_STAT_BUSY = 1 ∧ t.dev.rd F.SC_STAT_RES = 1 ∧ t.dev.rd F.SC_STAT_FAILS = 0 ∧
      t.dev.rd64 F.SC_CTR_LO_CTR F.SC_CTR_HI_CTR = scCtr (scBytes s.dev) % 2 ^ 64 ∧ t.dev.rd F.RG_STAT_STATE = 1 ∧
      ringEpoch t.dev = scArg (scBytes s.dev) 18 8 % 2 ^ 64 ∧ t.pending = s.pending ∧ t.fuse = s.fuse ∧
      t.dev = { s.dev with regs := t.dev.regs, dma := t.dev.dma, int := t.dev.int, nor := t.dev.nor, pins := t.dev.pins, port := t.dev.port, ring := t.dev.ring, upd := t.dev.upd } ∧
      s.dev.onlyAt [(0x400C, 0x400C), (0x4804, 0x48FC), (0xA11C, 0xA128), (0xA240, 0xA258), (0xB010, 0xB01C)] t.dev) ∧
  -- Debug unlock.
  (∀ (s : State) (a : Acc) (ck : Bool),
    s.dev.portReady = true →
    masked 0xA240 a s.dev = false →
    scCmd (scBytes s.dev) = 11 →
    s.dev.on F.SC_STAT_BUSY = false →
    scResult s.fuse ck (scBytes s.dev) s.dev = 1 →
    ckDue (scBytes s.dev) s.dev = false →
    ∃ t, exec (.scDebugUnlock a ck) s = .next t ∧ t.dev.rd F.SC_STAT_BUSY = 1 ∧ t.dev.rd F.SC_STAT_RES = 1 ∧ t.dev.rd F.SC_STAT_FAILS = 0 ∧
      t.dev.rd64 F.SC_CTR_LO_CTR F.SC_CTR_HI_CTR = scCtr (scBytes s.dev) % 2 ^ 64 ∧
      t.dev.rd F.DBG_STAT_LEVEL = scArg (scBytes s.dev) 16 1 % 2 ^ F.DBG_STAT_LEVEL.w ∧ t.pending = s.pending ∧ t.fuse = s.fuse ∧
      t.dev = { s.dev with regs := t.dev.regs, dma := t.dev.dma, int := t.dev.int, nor := t.dev.nor, pins := t.dev.pins, port := t.dev.port, upd := t.dev.upd } ∧
      s.dev.onlyAt [(0x400C, 0x400C), (0x4804, 0x48FC), (0xA11C, 0xA128), (0xA240, 0xA258), (0xC000, 0xC000)] t.dev)

/-- Sealed commands that fail a check, and the ends of commands. A command whose tag is wrong ends with RES 2, is counted,
and the eighth in a row locks the unit out; one with a counter that is not higher, or while locked out, has no effect
on fuses; with no NOR discovered RES is 7. The lockout ends by clearing LOCK and the count. SEALED_COMMAND_END ends
BUSY. A sanitise whose dies have all ended sets DONE. (R429, R431, R433) Commands said to answer a next state:
scDebugUnlock, scFuseProgram, scLockoutEnd, sealedCommandEnd, sanitiseEnd. -/
def Obligations.SealedRefusals : Prop :=
  -- A wrong tag.
  (∀ (s : State) (a : Acc) (ck : Bool),
    s.dev.portReady = true →
    masked 0xA240 a s.dev = false →
    scCmd (scBytes s.dev) = 11 →
    s.dev.on F.SC_STAT_BUSY = false →
    s.dev.nor.found = true →
    s.dev.on F.SC_STAT_LOCK = false →
    scTagOk s.fuse (scBytes s.dev) = false →
    ∃ t, exec (.scDebugUnlock a ck) s = .next t ∧ t.dev.rd F.SC_STAT_RES = 2 ∧ t.dev.rd F.SC_STAT_BUSY = 0 ∧
      t.dev.rd F.SC_STAT_FAILS = satAdd 4 (s.dev.rd F.SC_STAT_FAILS) 1 ∧
      t.dev.rd F.SC_STAT_LOCK = b2n (decide (8 ≤ satAdd 4 (s.dev.rd F.SC_STAT_FAILS) 1)) ∧ t.dev.rd F.DBG_STAT_LEVEL = s.dev.rd F.DBG_STAT_LEVEL ∧
      t.dev.rd F.SC_CNT_REJECTED = satAdd 16 (s.dev.rd F.SC_CNT_REJECTED) 1 ∧ t.pending = s.pending ∧ t.fuse = s.fuse ∧
      t.dev = { s.dev with regs := t.dev.regs, dma := t.dev.dma, int := t.dev.int, nor := t.dev.nor, pins := t.dev.pins, port := t.dev.port, upd := t.dev.upd } ∧
      s.dev.onlyAt [(0x400C, 0x400C), (0x4804, 0x48FC), (0x5018, 0x5018), (0xA110, 0xA110), (0xA11C, 0xA128), (0xA240, 0xA258), (0xC000, 0xC000)] t.dev) ∧
  -- Locked out.
  (∀ (s : State) (a : Acc) (ck : Bool),
    s.dev.portReady = true →
    masked 0xA240 a s.dev = false →
    scCmd (scBytes s.dev) = 5 →
    s.dev.on F.SC_STAT_BUSY = false →
    s.dev.nor.found = true →
    s.dev.on F.SC_STAT_LOCK = true →
    ∃ t, exec (.scFuseProgram a ck) s = .next t ∧ t.dev.rd F.SC_STAT_RES = 8 ∧ t.dev.rd F.SC_STAT_BUSY = 0 ∧
      t.dev.rd F.SC_STAT_FAILS = s.dev.rd F.SC_STAT_FAILS ∧ t.dev.upd = s.dev.upd ∧ t.pending = s.pending ∧ t.fuse = s.fuse ∧
      t.dev = { s.dev with regs := t.dev.regs, dma := t.dev.dma, int := t.dev.int, nor := t.dev.nor, pins := t.dev.pins, port := t.dev.port, upd := t.dev.upd } ∧
      s.dev.onlyAt [(0x400C, 0x400C), (0x4804, 0x48FC), (0x5018, 0x5018), (0xA110, 0xA110), (0xA11C, 0xA128), (0xA240, 0xA258)] t.dev) ∧
  -- With no NOR discovered.
  (∀ (s : State) (a : Acc) (ck : Bool),
    s.dev.portReady = true →
    masked 0xA240 a s.dev = false →
    scCmd (scBytes s.dev) = 5 →
    s.dev.on F.SC_STAT_BUSY = false →
    s.dev.nor.found = false →
    ∃ t, exec (.scFuseProgram a ck) s = .next t ∧ t.dev.rd F.SC_STAT_RES = 7 ∧ t.dev.rd F.SC_STAT_BUSY = 0 ∧ t.dev.upd = s.dev.upd ∧
      t.pending = s.pending ∧ t.fuse = s.fuse ∧
      t.dev = { s.dev with regs := t.dev.regs, dma := t.dev.dma, int := t.dev.int, nor := t.dev.nor, pins := t.dev.pins, port := t.dev.port, upd := t.dev.upd } ∧
      s.dev.onlyAt [(0x400C, 0x400C), (0x4804, 0x48FC), (0x5018, 0x5018), (0xA110, 0xA110), (0xA11C, 0xA128), (0xA240, 0xA258)] t.dev) ∧
  -- The lockout ends.
  (∀ (s : State),
    s.dev.on F.SC_STAT_LOCK = true →
    exec (.scLockoutEnd) s = .next (s.withDev ((s.dev.wr F.SC_STAT_LOCK 0).wr F.SC_STAT_FAILS 0))) ∧
  -- The command ends.
  (∀ (s : State),
    s.dev.live = true →
    s.dev.on F.SC_STAT_BUSY = true →
    ∃ t, exec (.sealedCommandEnd) s = .next t ∧ t.dev.rd F.SC_STAT_BUSY = 0 ∧ t.dev.rd F.SC_STAT_RES = s.dev.rd F.SC_STAT_RES ∧
      t = s.withDev { s.dev with regs := t.dev.regs, int := t.dev.int, nor := t.dev.nor } ∧
      s.dev.onlyAt [(0x400C, 0x400C), (0x4804, 0x48FC), (0xA244, 0xA244)] t.dev) ∧
  -- The sanitise ends.
  (∀ (s : State),
    s.dev.live = true →
    s.dev.on F.SAN_STAT_BUSY = true →
    s.dev.upd.san = [] →
    ∃ t, exec (.sanitiseEnd) s = .next t ∧ t.dev.rd F.SAN_STAT_BUSY = 0 ∧ t.dev.rd F.SAN_STAT_DONE = 1 ∧
      t.dev.rd F.SAN_CNT_ERASED = s.dev.rd F.SAN_CNT_ERASED ∧ t = s.withDev { s.dev with regs := t.dev.regs, int := t.dev.int } ∧
      s.dev.onlyAt [(0x400C, 0x400C), (0x4804, 0x48FC), (0xA260, 0xA260)] t.dev)

/-- Ring: heartbeats and frames received. A heartbeat with the flags waits for the link. The link sends a frame to forward
before a local one, but for one local frame after FAIR of them in a row; a local frame has the next sequence number
and, as a heartbeat, LG_TIME and the flags of its sending, and waits for its return. A frame with a bad check is
dropped and counted. An own frame that returns is taken off, a heartbeat, even one given up, sets RG_RTT. A broadcast
of another member is taken and goes on with one hop more; a heartbeat or join of 0 hops names the upstream neighbour.
An EPOCH frame of the next epoch is adopted, and one that names this instance fences it. A DRIFT frame of 4,096 bytes
goes to the next slot of the region. (R439, R441, R442, R443, R444, R445, R447, R448) Commands said to answer a next
state: heartbeatSend, heartbeatRx, epochRx, joinRx, driftRx. -/
def Obligations.RingFrames : Prop :=
  -- A heartbeat waits for the link.
  (∀ (s : State),
    s.dev.live = true →
    ringUp s.dev = true →
    s.dev.pfSeen = false →
    s.dev.rd F.RG_STAT_STATE ≠ 2 →
    s.dev.ring.cfg = [] →
    ∃ t, exec (.heartbeatSend) s = .next t ∧
      t.dev.ring.own = s.dev.ring.own ++ [{ dst := 0xFFFF, src := s.dev.rd F.RG_ID_ID, ty := 1, flags := s.dev.rd F.RG_CFG_TMASTER + 2 * s.dev.rd F.FS_STAT_ACTIVE, epoch := ringEpoch s.dev, arg := s.dev.time, payload := [] }] ∧
      t.dev.ring.sent = s.dev.ring.sent ∧ t.dev.regs = s.dev.regs ∧ t = s.withDev { s.dev with ring := t.dev.ring }) ∧
  -- A written configuration takes effect with the heartbeat.
  (∀ (s : State) (k : Nat),
    s.dev.live = true →
    s.dev.ring.cfg = [(F.RG_CFG_MAXHOP.key 0, k)] →
    ∃ t, exec (.heartbeatSend) s = .next t ∧ t.dev.rd F.RG_CFG_MAXHOP = k % 2 ^ F.RG_CFG_MAXHOP.w ∧ t.dev.ring.cfg = [] ∧
      t = s.withDev { s.dev with regs := t.dev.regs, ring := t.dev.ring } ∧ s.dev.onlyAt [(0xB008, 0xB00C), (0xB040, 0xB040)] t.dev) ∧
  -- A bad check.
  (∀ (s : State) (f : Frame) (fcrc : Nat) (rtt : Nat),
    s.dev.live = true →
    ringUp s.dev = true →
    s.dev.ring.fwd.length < 8 →
    s.dev.on F.TST_RINGLB_EN = false →
    fcrc ≠ Frame.crc ({ f with ty := 1 } : Frame) →
    exec (.heartbeatRx f fcrc rtt) s = .next (s.withDev (s.dev.wr F.RG_DROP_CRC (satAdd F.RG_DROP_CRC.w (s.dev.rd F.RG_DROP_CRC) 1)))) ∧
  -- The own heartbeat returns.
  (∀ (s : State) (f : Frame) (fcrc : Nat) (rtt : Nat) (o : List (Nat × Nat)),
    s.dev.live = true →
    ringUp s.dev = true →
    s.dev.ring.fwd.length < 8 →
    s.dev.on F.TST_RINGLB_EN = false →
    fcrc = Frame.crc ({ f with ty := 1 } : Frame) →
    f.src = s.dev.rd F.RG_ID_ID →
    s.dev.ring.late.any (fun p => p.1 == f.seq) = false →
    s.dev.ring.outstanding = (f.seq, 1) :: o →
    rtt ≤ 100 * s.dev.rd F.RG_CFG2_BUDGET →
    exec (.heartbeatRx f fcrc rtt) s = .next (s.withDev ((({ s.dev with ring := { s.dev.ring with outstanding := o, late := [] } } : Dev).wr F.RG_RTT_RTT (min rtt 65535)).wr F.RG_STAT_OPEN 0))) ∧
  -- It returns after it was given up.
  (∀ (s : State) (f : Frame) (fcrc : Nat) (rtt : Nat) (o : List (Nat × Nat)),
    s.dev.live = true →
    ringUp s.dev = true →
    s.dev.ring.fwd.length < 8 →
    s.dev.on F.TST_RINGLB_EN = false →
    fcrc = Frame.crc ({ f with ty := 1 } : Frame) →
    f.src = s.dev.rd F.RG_ID_ID →
    s.dev.ring.late = (f.seq, 1) :: o →
    rtt ≤ 100 * s.dev.rd F.RG_CFG2_BUDGET →
    exec (.heartbeatRx f fcrc rtt) s = .next (s.withDev ((({ s.dev with ring := { s.dev.ring with late := o } } : Dev).wr F.RG_RTT_RTT (min rtt 65535)).wr F.RG_STAT_OPEN 0))) ∧
  -- A neighbour's heartbeat.
  (∀ (s : State) (f : Frame) (fcrc : Nat) (rtt : Nat),
    s.dev.live = true →
    ringUp s.dev = true →
    s.dev.ring.fwd.length < 8 →
    s.dev.on F.TST_RINGLB_EN = false →
    fcrc = Frame.crc ({ f with ty := 1 } : Frame) →
    f.src ≠ s.dev.rd F.RG_ID_ID →
    f.hops < s.dev.rd F.RG_CFG_MAXHOP →
    s.dev.rd F.RG_STAT_STATE ≠ 2 →
    s.dev.pfSeen = false →
    f.epoch = ringEpoch s.dev →
    f.dst = 0xFFFF →
    f.hops = 0 →
    bit f.flags 0 = false →
    ∃ t, exec (.heartbeatRx f fcrc rtt) s = .next t ∧ t.dev.rd F.RG_UP_ID = f.src % 2 ^ 16 ∧
      t.dev.ring.fwd = s.dev.ring.fwd ++ [{ f with ty := 1, hops := f.hops + 1 }] ∧ t.dev.time = s.dev.time ∧
      t.dev.ring.outstanding = s.dev.ring.outstanding) ∧
  -- A frame of an earlier epoch.
  (∀ (s : State) (f : Frame) (fcrc : Nat) (rtt : Nat),
    s.dev.live = true →
    ringUp s.dev = true →
    s.dev.ring.fwd.length < 8 →
    s.dev.on F.TST_RINGLB_EN = false →
    fcrc = Frame.crc ({ f with ty := 1 } : Frame) →
    f.src ≠ s.dev.rd F.RG_ID_ID →
    f.hops < s.dev.rd F.RG_CFG_MAXHOP →
    s.dev.rd F.RG_STAT_STATE ≠ 2 →
    s.dev.pfSeen = false →
    f.epoch < ringEpoch s.dev →
    exec (.heartbeatRx f fcrc rtt) s = .next (s.withDev (s.dev.wr F.RG_DROP_STALE (satAdd F.RG_DROP_STALE.w (s.dev.rd F.RG_DROP_STALE) 1)))) ∧
  -- The next epoch, naming another.
  (∀ (s : State) (f : Frame) (fcrc : Nat),
    s.dev.live = true →
    ringUp s.dev = true →
    s.dev.ring.fwd.length < 8 →
    s.dev.on F.TST_RINGLB_EN = false →
    fcrc = Frame.crc ({ f with ty := 2 } : Frame) →
    f.src ≠ s.dev.rd F.RG_ID_ID →
    f.hops < s.dev.rd F.RG_CFG_MAXHOP →
    s.dev.rd F.RG_STAT_STATE ≠ 2 →
    s.dev.pfSeen = false →
    f.epoch = ringEpoch s.dev + 1 →
    f.epoch < 2 ^ 64 →
    f.arg % 65536 ≠ s.dev.rd F.RG_ID_ID →
    ∃ t, exec (.epochRx f fcrc) s = .next t ∧ ringEpoch t.dev = f.epoch ∧ t.dev.rd F.RG_DEAD_ID = f.arg % 65536 ∧
      t.dev.ring.deadAt = some (f.epoch, f.arg % 65536) ∧ t.dev.ring.fwd = s.dev.ring.fwd ++ [{ f with ty := 2, hops := f.hops + 1 }] ∧
      t.dev.rd F.RG_STAT_STATE = s.dev.rd F.RG_STAT_STATE) ∧
  -- An epoch frame that names this instance.
  (∀ (s : State) (f : Frame) (fcrc : Nat),
    s.dev.live = true →
    ringUp s.dev = true →
    s.dev.ring.fwd.length < 8 →
    s.dev.on F.TST_RINGLB_EN = false →
    fcrc = Frame.crc ({ f with ty := 2 } : Frame) →
    f.src ≠ s.dev.rd F.RG_ID_ID →
    f.hops < s.dev.rd F.RG_CFG_MAXHOP →
    s.dev.rd F.RG_STAT_STATE ≠ 2 →
    s.dev.pfSeen = false →
    f.epoch = ringEpoch s.dev →
    f.dst = 0xFFFF →
    f.arg % 65536 = s.dev.rd F.RG_ID_ID →
    ∃ t, exec (.epochRx f fcrc) s = .next t ∧ t.dev.rd F.RG_STAT_STATE = 2 ∧ bit (t.dev.rd F.SPR_SAFEST_ST) 11 = true ∧
      t.dev.ring.fwd = s.dev.ring.fwd ++ [{ f with ty := 2, hops := f.hops + 1 }]) ∧
  -- A join.
  (∀ (s : State) (f : Frame) (fcrc : Nat),
    s.dev.live = true →
    ringUp s.dev = true →
    s.dev.ring.fwd.length < 8 →
    s.dev.on F.TST_RINGLB_EN = false →
    fcrc = Frame.crc ({ f with ty := 3 } : Frame) →
    f.src ≠ s.dev.rd F.RG_ID_ID →
    f.hops < s.dev.rd F.RG_CFG_MAXHOP →
    s.dev.rd F.RG_STAT_STATE ≠ 2 →
    s.dev.pfSeen = false →
    f.epoch = ringEpoch s.dev →
    f.dst = 0xFFFF →
    f.hops = 0 →
    ∃ t, exec (.joinRx f fcrc) s = .next t ∧ t.dev.rd F.RG_UP_ID = f.src % 2 ^ 16 ∧
      t.dev.ring.fwd = s.dev.ring.fwd ++ [{ f with ty := 3, hops := f.hops + 1 }] ∧ t.dev.cells = s.dev.cells) ∧
  -- A drift summary.
  (∀ (s : State) (f : Frame) (fcrc : Nat),
    s.dev.live = true →
    ringUp s.dev = true →
    s.dev.ring.fwd.length < 8 →
    s.dev.on F.TST_RINGLB_EN = false →
    fcrc = Frame.crc ({ f with ty := 4 } : Frame) →
    f.src ≠ s.dev.rd F.RG_ID_ID →
    f.hops < s.dev.rd F.RG_CFG_MAXHOP →
    s.dev.rd F.RG_STAT_STATE ≠ 2 →
    s.dev.pfSeen = false →
    f.epoch = ringEpoch s.dev →
    f.dst = 0xFFFF →
    s.dev.ring.driftCount ≤ s.dev.rd F.RG_DCFG_SLOTS →
    s.dev.rd F.RG_DCFG_SLOTS < 2 ^ F.RG_DCFG_NEXT.w →
    ∃ t, exec (.driftRx f fcrc) s = .next t ∧
      t.dev.rd F.RG_DCFG_NEXT = (s.dev.rd F.RG_DCFG_NEXT % (s.dev.rd F.RG_DCFG_SLOTS + 1) + 1) % (s.dev.rd F.RG_DCFG_SLOTS + 1) ∧
      t.dev.ring.driftCount = s.dev.ring.driftCount + 1 ∧ t.dev.rd F.RG_DROP_LOST = s.dev.rd F.RG_DROP_LOST ∧
      t.dev.ring.fwd = s.dev.ring.fwd ++ [{ f with ty := 4, hops := f.hops + 1 }]) ∧
  -- The link takes a frame to forward.
  (∀ (s : State) (f : Frame) (r : List Frame),
    s.dev.ring.fwd = f :: r →
    s.dev.ring.own = [] ∨ s.dev.ring.run < fairCount s.dev →
    linkFrame s.dev = { s.dev with ring := { s.dev.ring with fwd := r, run := s.dev.ring.run + 1, sent := s.dev.ring.sent ++ [f] } }) ∧
  -- The link takes a local frame.
  (∀ (s : State) (f : Frame) (r : List Frame),
    s.dev.ring.own = f :: r →
    s.dev.ring.fwd = [] ∨ fairCount s.dev ≤ s.dev.ring.run →
    linkFrame s.dev = { s.dev with ring := { s.dev.ring with own := r, run := 0, seq := (s.dev.ring.seq + 1) % 2 ^ 32, sent := s.dev.ring.sent ++ [{ f with seq := s.dev.ring.seq, arg := if f.ty = 1 then s.dev.time else f.arg, flags := if f.ty = 1 then s.dev.rd F.RG_CFG_TMASTER + 2 * s.dev.rd F.FS_STAT_ACTIVE else f.flags }], outstanding := s.dev.ring.outstanding ++ [(s.dev.ring.seq, f.ty)] } })

/-- Ring: stripe fragments and their answers. A fragment frame addressed to this instance, the next of a RECEIVER that is
filling and has its tag, is added to the accumulator's contents, and the last one is acknowledged with code 0 and
counted. One for no such RECEIVER is answered with code 1. An acknowledgement of code 0 finishes its SENDER, any other
fails it. A SENDER whose answer does not come fails. (R441, R449) Commands said to answer a next state: fragRx,
fragackRx, fragTimeout. -/
def Obligations.RingFragments : Prop :=
  -- A fragment in sequence.
  (∀ (s : State) (f : Frame) (fcrc : Nat) (n : Nat) (k : Nat),
    s.dev.live = true →
    ringUp s.dev = true →
    s.dev.ring.fwd.length < 8 →
    s.dev.on F.TST_RINGLB_EN = false →
    fcrc = Frame.crc ({ f with ty := 5 } : Frame) →
    f.src ≠ s.dev.rd F.RG_ID_ID →
    f.hops < s.dev.rd F.RG_CFG_MAXHOP →
    s.dev.rd F.RG_STAT_STATE ≠ 2 →
    s.dev.pfSeen = false →
    f.epoch = ringEpoch s.dev →
    f.dst = s.dev.rd F.RG_ID_ID →
    s.dev.on F.FS_STAT_ACTIVE = false →
    n = (fld f.arg 21 6) →
    k = fld f.arg 16 5 →
    k < 31 →
    accState s.dev n = 1 →
    s.dev.on F.ACC_STAT_ABORTING n = false →
    isReceiver s.dev n = true →
    s.dev.rd F.ACC_RTAG_TAG n = fld f.arg 0 16 →
    s.dev.rd F.ACC_CFG_CPROF n = fld f.arg 27 3 →
    accCwn s.dev n = fld f.arg 30 4 →
    (s.dev.accu n).frag = (if k = 0 then none else some (f.src, k)) →
    exec (.fragRx f ⟨fcrc, .clean, []⟩) s = .next (s.withDev ((xorContents (2048 * k) (fitTo 2048 0 f.payload) n s.dev).setAcc n { (xorContents (2048 * k) (fitTo 2048 0 f.payload) n s.dev).accu n with frag := some (f.src, k + 1) }))) ∧
  -- For no such RECEIVER.
  (∀ (s : State) (f : Frame) (fcrc : Nat) (m : Mem) (ws : List MemWr),
    s.dev.live = true →
    ringUp s.dev = true →
    s.dev.ring.fwd.length < 8 →
    s.dev.on F.TST_RINGLB_EN = false →
    fcrc = Frame.crc ({ f with ty := 5 } : Frame) →
    f.src ≠ s.dev.rd F.RG_ID_ID →
    f.hops < s.dev.rd F.RG_CFG_MAXHOP →
    s.dev.rd F.RG_STAT_STATE ≠ 2 →
    s.dev.pfSeen = false →
    f.epoch = ringEpoch s.dev →
    f.dst = s.dev.rd F.RG_ID_ID →
    f.dst ≠ 0xFFFF →
    s.dev.on F.FS_STAT_ACTIVE = false →
    isReceiver s.dev (fld f.arg 21 6) = false →
    ∃ t, exec (.fragRx f ⟨fcrc, m, ws⟩) s = .next t ∧
      t.dev.ring.own = s.dev.ring.own ++ [{ dst := f.src, src := s.dev.rd F.RG_ID_ID, ty := 6, flags := 0, epoch := ringEpoch s.dev, arg := f.arg % 65536 + 65536 * 1, payload := [] }] ∧
      t.dev.ring.sent = s.dev.ring.sent ∧ t.dev.acc = s.dev.acc ∧ t.dev.regs = s.dev.regs) ∧
  -- An acknowledgement.
  (∀ (s : State) (f : Frame) (fcrc : Nat) (n : Nat),
    s.dev.live = true →
    ringUp s.dev = true →
    s.dev.ring.fwd.length < 8 →
    s.dev.on F.TST_RINGLB_EN = false →
    fcrc = Frame.crc ({ f with ty := 6 } : Frame) →
    f.src ≠ s.dev.rd F.RG_ID_ID →
    f.hops < s.dev.rd F.RG_CFG_MAXHOP →
    s.dev.rd F.RG_STAT_STATE ≠ 2 →
    s.dev.pfSeen = false →
    f.epoch = ringEpoch s.dev →
    f.dst = s.dev.rd F.RG_ID_ID →
    fragSender s.dev f = some n →
    fld f.arg 16 8 = 0 →
    n < 32 →
    ∃ t, exec (.fragackRx f fcrc) s = .next t ∧ t.dev.rd F.ACC_STAT_STATE n = 3 ∧ (t.dev.accu n).waitAck = false ∧
      bit (t.dev.rd F.ACC_DONE_LO_DONE) n = true ∧ t.dev.cells = s.dev.cells) ∧
  -- A refusal.
  (∀ (s : State) (f : Frame) (fcrc : Nat) (n : Nat),
    s.dev.live = true →
    ringUp s.dev = true →
    s.dev.ring.fwd.length < 8 →
    s.dev.on F.TST_RINGLB_EN = false →
    fcrc = Frame.crc ({ f with ty := 6 } : Frame) →
    f.src ≠ s.dev.rd F.RG_ID_ID →
    f.hops < s.dev.rd F.RG_CFG_MAXHOP →
    s.dev.rd F.RG_STAT_STATE ≠ 2 →
    s.dev.pfSeen = false →
    f.epoch = ringEpoch s.dev →
    f.dst = s.dev.rd F.RG_ID_ID →
    fragSender s.dev f = some n →
    fld f.arg 16 8 ≠ 0 →
    exec (.fragackRx f fcrc) s = .next (s.withDev (((s.dev.setAcc n { s.dev.accu n with waitAck := false, frag := none }).wr F.ACC_STAT_STATE 5 n).wr F.ACC_STAT_EMITERR 1 n))) ∧
  -- No answer.
  (∀ (s : State) (n : Fin 64),
    s.dev.live = true →
    isSender s.dev n = true →
    accState s.dev n = 2 →
    (s.dev.accu n).waitAck = true →
    exec (.fragTimeout n) s = .next (s.withDev (((s.dev.setAcc n { s.dev.accu n with waitAck := false, frag := none }).wr F.ACC_STAT_STATE 5 n).wr F.ACC_STAT_EMITERR 1 n)))

/-- Ring: losses, the link clock and joining. HEARTBEAT_LOSS of an active instance in state 1 raises the epoch by 1 and
hands the link an EPOCH frame that names the upstream neighbour. A heartbeat late by BUDGET sets OVERBUDGET, and by
four times it OPEN. DRIFT_SEND hands the link 4,096 bytes. EN of RG_CTL joins or leaves. The loss of the link clock
stops the link, and its return starts it again. (R438, R440, R443, R445, R448) Commands said to answer a next state:
heartbeatLoss, ringReturnTimeout, driftSend, rgCtlWrite, ringLinkClockLoss, ringLinkClockReturn. -/
def Obligations.RingMembership : Prop :=
  -- A neighbour is lost.
  (∀ (s : State),
    s.dev.live = true →
    s.dev.ring.active = true →
    s.dev.rd F.RG_STAT_STATE = 1 →
    s.dev.pfSeen = false →
    s.dev.rd F.RG_UP_ID ≠ 0 →
    s.dev.ring.deadAt ≠ some (ringEpoch s.dev, s.dev.rd F.RG_UP_ID) →
    s.dev.rd F.RG_UP_ID < 2 ^ 16 →
    ringEpoch s.dev < 2 ^ 63 →
    ∃ t, exec (.heartbeatLoss) s = .next t ∧ ringEpoch t.dev = ringEpoch s.dev + 1 ∧ t.dev.rd F.RG_DEAD_ID = s.dev.rd F.RG_UP_ID ∧
      t.dev.ring.deadAt = some (ringEpoch s.dev + 1, s.dev.rd F.RG_UP_ID) ∧
      t.dev.ring.own = s.dev.ring.own ++ [{ dst := 0xFFFF, src := s.dev.rd F.RG_ID_ID, ty := 2, flags := 0, epoch := ringEpoch s.dev + 1, arg := s.dev.rd F.RG_UP_ID, payload := [] }] ∧
      t.dev.ring.sent = s.dev.ring.sent ∧ t = s.withDev { s.dev with regs := t.dev.regs, int := t.dev.int, ring := t.dev.ring, spr := t.dev.spr } ∧
      s.dev.onlyAt [(0x400C, 0x400C), (0x4804, 0x48FC), (0xB018, 0xB020)] t.dev) ∧
  -- Late by BUDGET.
  (∀ (s : State),
    s.dev.live = true →
    ringUp s.dev = true →
    s.dev.ring.outstanding.any (fun p => p.2 == 1) = true →
    ∃ t, exec (.ringReturnTimeout false) s = .next t ∧ t.dev.rd F.RG_STAT_OVERBUDGET = 1 ∧ t.dev.rd F.RG_STAT_OPEN = s.dev.rd F.RG_STAT_OPEN ∧
      t.dev.ring = s.dev.ring ∧ t = s.withDev { s.dev with regs := t.dev.regs, int := t.dev.int, ring := t.dev.ring } ∧
      s.dev.onlyAt [(0x400C, 0x400C), (0x4804, 0x48FC), (0xB010, 0xB010)] t.dev) ∧
  -- Given up.
  (∀ (s : State) (q : Nat) (o : List (Nat × Nat)),
    s.dev.live = true →
    ringUp s.dev = true →
    s.dev.ring.outstanding = (q, 1) :: o →
    ∃ t, exec (.ringReturnTimeout true) s = .next t ∧ t.dev.rd F.RG_STAT_OPEN = 1 ∧ t.dev.ring.outstanding = o ∧
      t.dev.ring.late = s.dev.ring.late ++ [(q, 1)] ∧ t.dev.ring.sent = s.dev.ring.sent ∧
      t = s.withDev { s.dev with regs := t.dev.regs, int := t.dev.int, ring := t.dev.ring } ∧
      s.dev.onlyAt [(0x400C, 0x400C), (0x4804, 0x48FC), (0xB010, 0xB010)] t.dev) ∧
  -- Drift summaries wait for the link.
  (∀ (s : State),
    s.dev.live = true →
    ringUp s.dev = true →
    s.dev.pfSeen = false →
    s.dev.rd F.RG_STAT_STATE ≠ 2 →
    s.dev.rd F.RG_CFG2_DSPER ≠ 0 →
    ∃ t, exec (.driftSend) s = .next t ∧
      t.dev.ring.own = s.dev.ring.own ++ [{ dst := 0xFFFF, src := s.dev.rd F.RG_ID_ID, ty := 4, flags := 0, epoch := ringEpoch s.dev, arg := 0, payload := ((List.range 1024).flatMap fun x => leBytes 4 (s.dev.word [F.LM_SUM_MOVUP, F.LM_SUM_MOVDN] x)) }] ∧
      t.dev.ring.sent = s.dev.ring.sent ∧ t.dev.regs = s.dev.regs ∧ t = s.withDev { s.dev with ring := t.dev.ring }) ∧
  -- Joining.
  (∀ (s : State) (v : Word) (a : Acc),
    s.dev.takes 0xB000 a = true →
    fld v.toNat 0 1 = 1 →
    s.dev.rd F.RG_CTL_EN = 0 →
    s.dev.rd F.RG_ID_ID ≠ 0 →
    s.dev.rd F.RG_ID_ID ≠ 0xFFFF →
    s.dev.rd F.RG_STAT_STATE ≠ 2 →
    s.dev.ring.cfg = [] →
    ∃ t, exec (.rgCtlWrite v a) s = .next t ∧ t.dev.rd F.RG_CTL_EN = 1 ∧ t.dev.rd F.RG_STAT_STATE = 1 ∧
      t.dev.ring = { s.dev.ring with active := s.dev.ring.clock && !s.dev.on F.TST_RINGLB_EN } ∧
      t = s.withDev { s.dev with regs := t.dev.regs, port := t.dev.port, ring := t.dev.ring } ∧ s.dev.onlyAt [(0xB000, 0xB010), (0xB040, 0xB040)] t.dev) ∧
  -- Leaving.
  (∀ (s : State) (v : Word) (a : Acc),
    s.dev.takes 0xB000 a = true →
    fld v.toNat 0 1 = 0 →
    s.dev.rd F.RG_CTL_EN = 1 →
    s.dev.rd F.RG_STAT_STATE ≠ 2 →
    s.dev.ring.cfg = [] →
    ∃ t, exec (.rgCtlWrite v a) s = .next t ∧ t.dev.rd F.RG_CTL_EN = 0 ∧ t.dev.rd F.RG_STAT_STATE = 0 ∧
      t.dev.ring = { s.dev.ring with active := false, outstanding := [], late := [], fwd := [], own := [], run := 0, sent := s.dev.ring.sent ++ s.dev.ring.tx.toList, tx := none } ∧
      t = s.withDev { s.dev with regs := t.dev.regs, port := t.dev.port, ring := t.dev.ring } ∧ s.dev.onlyAt [(0xB000, 0xB010), (0xB040, 0xB040)] t.dev) ∧
  -- EN with no ID.
  (∀ (s : State) (v : Word) (a : Acc),
    s.dev.takes 0xB000 a = true →
    fld v.toNat 0 1 = 1 →
    s.dev.rd F.RG_ID_ID = 0 →
    exec (.rgCtlWrite v a) s = .next (s.withDev ((s.dev.writeError 0xB000 a 0 3).acked 0))) ∧
  -- The link clock stops.
  (∀ (s : State),
    exec (.ringLinkClockLoss) s = .next (s.withDev ({ s.dev with ring := { s.dev.ring with clock := false, outstanding := [], late := [], fwd := [], own := [], run := 0, tx := none, active := false } }))) ∧
  -- It returns.
  (∀ (s : State),
    exec (.ringLinkClockReturn) s = .next (s.withDev ({ s.dev with ring := { s.dev.ring with clock := true, active := s.dev.live && s.dev.on F.RG_CTL_EN && !s.dev.on F.TST_RINGLB_EN } })))

/-- Fail-safe: CLEARED, DIEIDLE, exit and flush. In the fail-safe state a recoverable cause whose condition has held sets
CLEARED, and the dies' rest sets DIEIDLE. An accepted exit clears ACTIVE, CLEARED, DIEIDLE, MANIFEST, CAUSE, UNIT and
INDEX, ends the Lift tokens, counts the exit and leaves no sequencer in its fail-safe state; one whose conditions do
not hold is dropped with cause 3. A flush ends every queued ticket with status 0x71 detail 4. (R455, R457, R459, R460)
Commands said to answer a next state: fsCleared, fsDieidle, fsExit, fsFlush. -/
def Obligations.FailSafeExit : Prop :=
  -- CLEARED.
  (∀ (s : State),
    s.dev.on F.FS_STAT_ACTIVE = true →
    s.dev.on F.FS_STAT_RESETONLY = false →
    s.dev.rd F.FS_STAT_CAUSE = 6 →
    exec (.fsCleared) s = .next (s.withDev (({ s.dev with pins := { s.dev.pins with linkLost := 0, aonLost := false } } : Dev).wr F.FS_STAT_CLEARED 1))) ∧
  -- A cause that needs a reset.
  (∀ (s : State),
    s.dev.on F.FS_STAT_RESETONLY = true →
    s.dev.pm.causes.contains 7 = false →
    exec (.fsCleared) s = .next (s.withDev (s.dev))) ∧
  -- DIEIDLE.
  (∀ (s : State),
    s.dev.on F.FS_STAT_ACTIVE = true →
    exec (.fsDieidle) s = .next (s.withDev (s.dev.wr F.FS_STAT_DIEIDLE 1))) ∧
  -- An accepted exit.
  (∀ (s : State) (a : Acc),
    s.dev.takes 0x24 a = true →
    exitOk s.dev = true →
    ∃ t, exec (.fsExit a) s = .next t ∧ t.dev.rd F.FS_STAT_ACTIVE = 0 ∧ t.dev.rd F.FS_STAT_CLEARED = 0 ∧ t.dev.rd F.FS_STAT_DIEIDLE = 0 ∧
      t.dev.rd F.FS_STAT_MANIFEST = 0 ∧ t.dev.rd F.FS_STAT_CAUSE = 0 ∧ t.dev.rd F.FS_STAT_UNIT = 0 ∧ t.dev.rd F.FS_STAT_INDEX = 0 ∧
      t.dev.rd F.FS_CNT_EXITS = satAdd F.FS_CNT_EXITS.w (s.dev.rd F.FS_CNT_EXITS) 1 ∧ t.dev.lift.toks = [] ∧ t.dev.adm.halted = false ∧
      (∀ c : Fin 32, t.dev.rd F.SEQ_STAT_STATE c = 0) ∧ t.dev.rd F.FS_LAST_CAUSE = s.dev.rd F.FS_LAST_CAUSE ∧
      t.dev.cells = s.dev.cells.map (fun (p : Nat × Cell) => (p.1, { p.2 with taking := false, claim := none }))) ∧
  -- Its conditions do not hold.
  (∀ (s : State) (a : Acc),
    s.dev.takes 0x24 a = true →
    exitOk s.dev = false →
    exec (.fsExit a) s = .next (s.withDev ((s.dev.writeError 0x24 a 0 3).acked 0))) ∧
  -- A flush of one queued ticket.
  (∀ (s : State) (a : Acc) (k : Nat) (x : Cell),
    s.dev.takes 0x24 a = true →
    flushOk s.dev = true →
    s.dev.dq = [(cellKey x, [k])] →
    look s.dev.cells k = some x →
    x.started = false →
    x.out = none →
    ∃ t, exec (.fsFlush a) s = .next t ∧ (t.dev.cell k).out = some { status := 0x71, detail := 4 } ∧ t.dev.queue (cellKey x) = [] ∧
      (t.dev.cqs (tCq x.tkt)).waiting = (s.dev.cqs (tCq x.tkt)).waiting ++ [.cell k] ∧ t.dev.on F.FS_STAT_ACTIVE = true ∧
      t = s.withDev { s.dev with regs := t.dev.regs, acc := t.dev.acc, adm := t.dev.adm, cells := t.dev.cells, cq := t.dev.cq, dma := t.dev.dma, dq := t.dev.dq, fab := t.dev.fab, freeCtr := t.dev.freeCtr, int := t.dev.int, port := t.dev.port } ∧
      s.dev.onlyAt [(0x24, 0x24), (0x2204, 0x222C), (0x3000, 0x3000), (0x3100, 0x310C), (0x400C, 0x400C), (0x4804, 0x48FC), (0xE008, 0xE008), (0xE084, 0xE084), (0xE214, 0xE22C)] t.dev)

/-- Loopback, the echo responder and injections. A new DEPTH on a channel that is not busy is taken, with the counts
cleared and the channel STALE; on a busy one the write is dropped with cause 1. RUN in a depth of 1 to 4 starts the
generator, and its end adds what was compared and what differed. TST_RINGLB_EN is taken with the ring off. ECHO_HANG,
TST_INJ_ARM and TST_INJ_LINKERR set their bits at a debug level that allows them. A busy time of the responder that
ends makes the waiting routine ready. (R466, R467, R468, R469, R470, R471, R473) Commands said to answer a next state:
tstLbDepth, tstLbRun, tstRinglbEn, echoHang, echoBusyEnded, tstInjArm, tstInjLinkerr. -/
def Obligations.Loopback : Prop :=
  -- DEPTH.
  (∀ (s : State) (v : Word) (a : Acc) (y : Nat) (z : Nat),
    s.dev.takes 0xC100 a = true →
    1 ≤ fld v.toNat 16 16 →
    fld v.toNat 0 3 ≤ 5 →
    fld v.toNat 0 3 ≠ s.dev.rd F.TST_LBCTL_DEPTH (s.dev.named 0xC100 a) →
    loopBusy s.dev (s.dev.named 0xC100 a) = false →
    fld v.toNat 0 3 ≠ 0 →
    fld v.toNat 0 3 ≠ 5 →
    s.dev.on F.TST_LBCTL_RUN (s.dev.named 0xC100 a) = false →
    ∃ t, exec (.tstLbDepth v a y z) s = .next t ∧ t.dev.rd F.TST_LBCTL_DEPTH (s.dev.named 0xC100 a) = fld v.toNat 0 3 ∧
      t.dev.rd F.TST_LBCTL_RUN (s.dev.named 0xC100 a) = fld v.toNat 3 1 ∧ t.dev.rd F.TST_LBCTL_SEED (s.dev.named 0xC100 a) = fld v.toNat 16 16 ∧
      t.dev.rd F.TST_LBSTAT_BYTES (s.dev.named 0xC100 a) = 0 ∧ t.dev.rd F.TST_LBERR_BITS (s.dev.named 0xC100 a) = 0 ∧
      t.dev.rd F.CAL_STAT_STALE (s.dev.named 0xC100 a) = 1 ∧ t = s.withDev { s.dev with regs := t.dev.regs, chs := t.dev.chs, port := t.dev.port } ∧
      s.dev.onlyAt [(0x1410, 0x1410), (0xC100, 0xC108)] t.dev) ∧
  -- A busy channel.
  (∀ (s : State) (v : Word) (a : Acc) (y : Nat) (z : Nat),
    s.dev.takes 0xC100 a = true →
    1 ≤ fld v.toNat 16 16 →
    fld v.toNat 0 3 ≤ 5 →
    fld v.toNat 0 3 ≠ s.dev.rd F.TST_LBCTL_DEPTH (s.dev.named 0xC100 a) →
    loopBusy s.dev (s.dev.named 0xC100 a) = true →
    exec (.tstLbDepth v a y z) s = .next (s.withDev ((s.dev.writeError 0xC100 a (s.dev.named 0xC100 a) 1).acked 0))) ∧
  -- RUN starts.
  (∀ (s : State) (v : Word) (a : Acc) (y : Nat) (z : Nat),
    s.dev.takes 0xC100 a = true →
    1 ≤ fld v.toNat 16 16 →
    fld v.toNat 0 3 ≤ 5 →
    fld v.toNat 0 3 = s.dev.rd F.TST_LBCTL_DEPTH (s.dev.named 0xC100 a) →
    fld v.toNat 16 16 = s.dev.rd F.TST_LBCTL_SEED (s.dev.named 0xC100 a) →
    fld v.toNat 0 3 ≠ 0 →
    fld v.toNat 0 3 ≠ 5 →
    fld v.toNat 3 1 = 1 →
    ∃ t, exec (.tstLbRun v a y z) s = .next t ∧ t.dev.rd F.TST_LBCTL_RUN (s.dev.named 0xC100 a) = 1 ∧
      t.dev.rd F.TST_LBCTL_DEPTH (s.dev.named 0xC100 a) = s.dev.rd F.TST_LBCTL_DEPTH (s.dev.named 0xC100 a) ∧
      t.dev.rd F.TST_LBSTAT_BYTES (s.dev.named 0xC100 a) = s.dev.rd F.TST_LBSTAT_BYTES (s.dev.named 0xC100 a) ∧
      t = s.withDev { s.dev with regs := t.dev.regs, port := t.dev.port } ∧ s.dev.onlyAt [(0xC100, 0xC108)] t.dev) ∧
  -- RUN ends.
  (∀ (s : State) (v : Word) (a : Acc) (y : Nat) (z : Nat),
    s.dev.takes 0xC100 a = true →
    1 ≤ fld v.toNat 16 16 →
    fld v.toNat 0 3 ≤ 5 →
    fld v.toNat 0 3 = s.dev.rd F.TST_LBCTL_DEPTH (s.dev.named 0xC100 a) →
    fld v.toNat 16 16 = s.dev.rd F.TST_LBCTL_SEED (s.dev.named 0xC100 a) →
    fld v.toNat 0 3 ≠ 0 →
    fld v.toNat 0 3 ≠ 5 →
    fld v.toNat 3 1 = 0 →
    s.dev.on F.TST_LBCTL_RUN (s.dev.named 0xC100 a) = true →
    ∃ t, exec (.tstLbRun v a y z) s = .next t ∧ t.dev.rd F.TST_LBCTL_RUN (s.dev.named 0xC100 a) = 0 ∧
      t.dev.rd F.TST_LBSTAT_BYTES (s.dev.named 0xC100 a) = (s.dev.rd F.TST_LBSTAT_BYTES (s.dev.named 0xC100 a) + y) % 2 ^ 32 ∧
      t.dev.rd F.TST_LBERR_BITS (s.dev.named 0xC100 a) = satAdd 32 (s.dev.rd F.TST_LBERR_BITS (s.dev.named 0xC100 a)) z ∧
      t = s.withDev { s.dev with regs := t.dev.regs, port := t.dev.port } ∧ s.dev.onlyAt [(0xC100, 0xC108)] t.dev) ∧
  -- Ring loopback.
  (∀ (s : State) (v : Word) (a : Acc),
    s.dev.takes 0xC004 a = true →
    s.dev.rd F.RG_CTL_EN = 0 →
    fld v.toNat 0 1 ≠ s.dev.rd F.TST_RINGLB_EN →
    ∃ t, exec (.tstRinglbEn v a) s = .next t ∧ t.dev.rd F.TST_RINGLB_EN = fld v.toNat 0 1 ∧
      t.dev.ring = { s.dev.ring with active := false, outstanding := [], late := [], fwd := [], own := [], run := 0, sent := s.dev.ring.sent ++ s.dev.ring.tx.toList, tx := none } ∧
      ringUp t.dev = (fld v.toNat 0 1 == 1) ∧ t = s.withDev { s.dev with regs := t.dev.regs, port := t.dev.port, ring := t.dev.ring } ∧
      s.dev.onlyAt [(0xC004, 0xC004)] t.dev) ∧
  -- A hung responder.
  (∀ (s : State) (v : Word) (a : Acc),
    s.dev.takes 0xC114 a = true →
    ∃ t, exec (.echoHang v a) s = .next t ∧ t.dev.rd F.TST_ECHOINJ_HANG (s.dev.named 0xC114 a) = 1 ∧
      t.dev.rd F.TST_ECHOINJ_FLIPS (s.dev.named 0xC114 a) = fld v.toNat 0 8 ∧ t.dev.rd F.TST_ECHOINJ_PFAILN (s.dev.named 0xC114 a) = fld v.toNat 8 8 ∧
      t = s.withDev { s.dev with regs := t.dev.regs, port := t.dev.port } ∧ s.dev.onlyAt [(0xC114, 0xC114)] t.dev) ∧
  -- The responder is ready.
  (∀ (s : State) (x : Fin 1024) (b : Nat) (id : Nat) (y : Ctx),
    s.dev.live = true →
    s.dev.on F.FS_STAT_ACTIVE = false →
    s.dev.rd F.TST_LBCTL_DEPTH (dixCh x) = 5 →
    (s.dev.chn (dixCh x)).ctxs = [(id, y)] →
    y.st = .parked →
    y.hang = false →
    y.committed = true →
    y.dix = x →
    ∃ t, exec (.echoBusyEnded x ⟨b, .clean⟩) s = .next t ∧ (t.dev.ctx (dixCh x) id).map (·.st) = some .ready ∧
      (t.dev.ctx (dixCh x) id).map (·.busy) = some (y.busy + b) ∧ t.dev.cells = s.dev.cells) ∧
  -- ARM.
  (∀ (s : State) (v : Word) (a : Acc),
    s.dev.takes 0xC200 a = true →
    s.dev.rd F.DBG_STAT_LEVEL ≠ 0 →
    fld v.toNat 0 4 ≤ 11 →
    fld v.toNat 8 1 = 0 →
    ∃ t, exec (.tstInjArm v a) s = .next t ∧ t.dev.rd F.TST_INJ_ARM = 1 ∧ t.dev.rd F.TST_INJ_REGION = fld v.toNat 0 4 ∧
      t.dev.rd F.TST_INJ_DOUBLE = fld v.toNat 4 1 ∧ (∀ c : Fin 32, t.dev.rd F.TST_INJ_LINKERR c = s.dev.rd F.TST_INJ_LINKERR c) ∧
      t = s.withDev { s.dev with regs := t.dev.regs, port := t.dev.port } ∧ s.dev.onlyAt [(0xC200, 0xC200)] t.dev) ∧
  -- LINKERR on one channel.
  (∀ (s : State) (v : Word) (a : Acc),
    s.dev.takes 0xC200 a = true →
    s.dev.rd F.DBG_STAT_LEVEL ≠ 0 →
    fld v.toNat 0 4 ≤ 11 →
    selBcast s.dev a.dom.val .ch = false →
    ∃ t, exec (.tstInjLinkerr v a) s = .next t ∧ t.dev.rd F.TST_INJ_LINKERR (selIndex s.dev a.dom.val .ch) = 1 ∧
      t = s.withDev { s.dev with regs := t.dev.regs, port := t.dev.port } ∧ s.dev.onlyAt [(0xC200, 0xC200)] t.dev) ∧
  -- LINKERR on every channel.
  (∀ (s : State) (v : Word) (a : Acc),
    s.dev.takes 0xC200 a = true →
    s.dev.rd F.DBG_STAT_LEVEL ≠ 0 →
    fld v.toNat 0 4 ≤ 11 →
    selBcast s.dev a.dom.val .ch = true →
    ∃ t, exec (.tstInjLinkerr v a) s = .next t ∧ (∀ c : Fin 32, t.dev.rd F.TST_INJ_LINKERR c = 1) ∧
      t = s.withDev { s.dev with regs := t.dev.regs, port := t.dev.port } ∧ s.dev.onlyAt [(0xC200, 0xC200)] t.dev) ∧
  -- At debug level 0.
  (∀ (s : State) (v : Word) (a : Acc),
    s.dev.takes 0xC200 a = true →
    s.dev.rd F.DBG_STAT_LEVEL = 0 →
    fld v.toNat 0 4 ≤ 11 →
    exec (.tstInjArm v a) s = .next (s.withDev ((s.dev.writeError 0xC200 a 0 3).acked 0)))

/-- The test wrapper and the fuses. BYPASS passes its bits one shift later. EXTEST and INTEST in test mode shift the
boundary register. SCAN in test mode shifts the chains, and what comes out is free (the spec gives no order:
assumption 3). MBIST leaves the ledger empty and gives pass bits and rows. FUSERD gives the fuse shadow without the
keys. FUSEPGM in test mode blows the items in order, and nothing once FUSELOCK is blown. OBSERVE at debug level 2 or 3
gives a field, and DEPOSIT at level 3 sets one; an illegal state of a state register enters the fail-safe state.
(R474, R475, R476) Commands said to answer a next state: wsBypass, wsExtest, wsIntest, scan, mbist, fuserd, fusepgm,
observe, deposit. -/
def Obligations.TestWrapper : Prop :=
  -- BYPASS.
  (∀ (s : State) (bits : List Bool),
    bits ≠ [] →
    exec (.wsBypass bits) s = .next (s.withDev ({ s.dev with tst := { s.dev.tst with instr := .bypass, wso := s.dev.tst.byp :: bits.dropLast, byp := bits.getLast?.getD false } }))) ∧
  -- EXTEST.
  (∀ (s : State) (bits : List Bool) (cap : List Bool),
    s.dev.tst.testMode = true →
    exec (.wsExtest bits cap) s = .next (s.withDev ({ s.dev with tst := { s.dev.tst with instr := .extest, wso := cap, boundary := bits } }))) ∧
  -- INTEST.
  (∀ (s : State) (bits : List Bool) (cap : List Bool),
    s.dev.tst.testMode = true →
    exec (.wsIntest bits cap) s = .next (s.withDev ({ s.dev with tst := { s.dev.tst with instr := .intest, wso := cap, boundary := bits } }))) ∧
  -- SCAN.
  (∀ (s : State) (bits : List Bool),
    s.dev.tst.testMode = true →
    ∃ t, exec (.scan bits) s = .next t ∧ t.dev.tst.scan = bits ∧ t.dev.tst.wso.length = bits.length ∧ t.dev.freeCtr = s.dev.freeCtr + bits.length ∧
      t.dev.regs = s.dev.regs ∧ t = s.withDev { s.dev with freeCtr := t.dev.freeCtr, tst := t.dev.tst }) ∧
  -- MBIST.
  (∀ (s : State) (res : List (Bool × List Nat)),
    s.dev.tst.testMode = true →
    ∃ t, exec (.mbist res) s = .next t ∧ t.dev.tst.mbist = (res.take 12).map (fun r => (r.1, r.2.take 16)) ∧ t.dev.led = {} ∧ t.dev.mp.bad = [] ∧
      t = s.withDev { s.dev with regs := t.dev.regs, led := t.dev.led, mp := t.dev.mp, tst := t.dev.tst } ∧ s.dev.onlyAt [(0x7100, 0x71B4)] t.dev) ∧
  -- FUSERD.
  (∀ (s : State),
    ∃ t, exec (.fuserd) s = .next t ∧
      t.dev.tst.words = [leNat s.dev.fuses.uid, s.dev.rd F.SC_KEY_HIDX, s.dev.rd F.SC_KEY_SIDX, s.dev.rd F.DBG_STAT_FUSELOCK] ++ (s.dev.fuses.trims.flatMap fun p => [p.1, p.2]) ++ (s.dev.fuses.repairs.flatMap fun r => [r.1, r.2.1, r.2.2]) ∧
      t.dev.regs = s.dev.regs ∧ t = s.withDev { s.dev with tst := t.dev.tst }) ∧
  -- FUSEPGM of a repair entry.
  (∀ (s : State) (m : Nat) (r : Nat) (p : Nat),
    s.dev.tst.testMode = true →
    s.fuse.lock = false →
    s.fuse.repairs.length < 256 →
    ∃ t, exec (.fusepgm [.repair m r p]) s = .next t ∧ t.fuse = { s.fuse with repairs := s.fuse.repairs ++ [(m, r, p)] } ∧
      t.dev = { s.dev with tst := { s.dev.tst with instr := .fusepgm } } ∧ t.pending = s.pending ∧
      t.dev = { s.dev with regs := t.dev.regs, dma := t.dev.dma, int := t.dev.int, tst := t.dev.tst } ∧
      s.dev.onlyAt [(0x400C, 0x400C), (0x4804, 0x48FC), (0x8030, 0x8030)] t.dev) ∧
  -- FUSEPGM of the lock, and after it.
  (∀ (s : State) (x : Fuse),
    s.dev.tst.testMode = true →
    s.fuse.lock = false →
    ∃ t, exec (.fusepgm [.lock, x]) s = .next t ∧ t.fuse = { s.fuse with lock := true } ∧ t.pending = s.pending ∧
      t.dev = { s.dev with regs := t.dev.regs, dma := t.dev.dma, int := t.dev.int, tst := t.dev.tst } ∧
      s.dev.onlyAt [(0x400C, 0x400C), (0x4804, 0x48FC), (0x8030, 0x8030)] t.dev) ∧
  -- FUSEPGM of fuses that are locked.
  (∀ (s : State) (xs : List Fuse),
    s.fuse.lock = true →
    ∃ t, exec (.fusepgm xs) s = .next t ∧ t.pending = s.pending ∧ t.fuse = s.fuse ∧
      t.dev = { s.dev with regs := t.dev.regs, dma := t.dev.dma, int := t.dev.int, tst := t.dev.tst } ∧
      s.dev.onlyAt [(0x400C, 0x400C), (0x4804, 0x48FC), (0x8030, 0x8030)] t.dev) ∧
  -- OBSERVE.
  (∀ (s : State) (o : Nat) (lo : Nat) (i : Nat) (f : Fld),
    s.dev.live = true →
    2 ≤ s.dev.rd F.DBG_STAT_LEVEL →
    ((fieldsAt o).bind fun fs => fs.find? fun g => g.lo == lo) = some f →
    exec (.observe o lo i) s = .next (s.withDev ({ s.dev with tst := { s.dev.tst with instr := .observe, words := [s.dev.rd f i] } }))) ∧
  -- DEPOSIT.
  (∀ (s : State) (o : Nat) (lo : Nat) (i : Nat) (v : Nat) (f : Fld),
    s.dev.live = true →
    s.dev.rd F.DBG_STAT_LEVEL = 3 →
    ((fieldsAt o).bind fun fs => fs.find? fun g => g.lo == lo) = some f →
    illegalAt o lo i (v % 2 ^ f.w) = none →
    exec (.deposit o lo i v) s = .next (s.withDev ({ s.dev.wr f v i with tst := { s.dev.tst with instr := .deposit } }))) ∧
  -- DEPOSIT of an illegal state.
  (∀ (s : State),
    s.dev.live = true →
    s.dev.rd F.DBG_STAT_LEVEL = 3 →
    s.dev.on F.FS_STAT_ACTIVE = false →
    ∃ t, exec (.deposit 0xB010 0 0 3) s = .next t ∧ t.dev.rd F.FS_STAT_ACTIVE = 1 ∧ t.dev.rd F.FS_STAT_CAUSE = 1 ∧ t.dev.rd F.FS_STAT_UNIT = 12 ∧
      t.dev.rd F.FS_STAT_INDEX = 0 ∧ t.dev.rd F.FS_STAT_RESETONLY = 1)

/-- The register port. A write the port serves takes the register's field. A write of a field outside its range is a write
error of cause 2. Before the boot has ended, a write of a register outside those open then is a write error of cause
4. A write of a read-only register and of an offset without a register changes nothing and is no error. A read gives
the register. A non-secure read in a window closed to it reads 0, and a non-secure write there is a write error of
cause 5. In reset the port is silent. (R401, R480, R481, R482, R484, R488, R489) Commands said to answer a next state:
registerWrite, registerRead. -/
def Obligations.RegisterAccess : Prop :=
  -- A field is written.
  (∀ (s : State) (n : Fin 16) (v : Word) (a : Acc) (e : PortEnv),
    s.dev.takes (0xA200 + 4 * n.val) a = true →
    exec (.registerWrite (0xA200 + 4 * n.val) v a e) s = .next (s.withDev ((s.dev.wr (F.SC_DATA_DATA.ix n) v.toNat).acked 0))) ∧
  -- Outside its range.
  (∀ (s : State) (v : Word) (a : Acc) (e : PortEnv),
    s.dev.takes 0xC100 a = true →
    5 < fld v.toNat 0 3 ∨ fld v.toNat 16 16 = 0 →
    exec (.registerWrite 0xC100 v a e) s = .next (s.withDev ((s.dev.writeError 0xC100 a (s.dev.named 0xC100 a) 2).acked 0))) ∧
  -- Any register whose write is dropped: the error record alone.
  (∀ (s : State) (o : Nat) (v : Word) (a : Acc) (e : PortEnv) (fs : List Fld),
    s.dev.takes o a = true →
    fieldsAt o = some fs →
    fs.all (fun f => f.ty == .ro) = false →
    o ≠ 8 →
    o ≠ 0x10 →
    o ≠ 0xA240 →
    o ≠ 0xC200 →
    sprRefuses { wr := true, off := o, data := v.toNat, acc := a, env := e } s.dev = false →
    ignored { off := o, v := v.toNat, inst := s.dev.named o a, acc := a, env := e } s.dev = none →
    dropCause { off := o, v := v.toNat, inst := s.dev.named o a, acc := a, env := e } fs s.dev ≠ 0 →
    exec (.registerWrite o v a e) s = .next (s.withDev ((s.dev.writeError o a (errIndex (s.dev.named o a) (selOf o)) (dropCause { off := o, v := v.toNat, inst := s.dev.named o a, acc := a, env := e } fs s.dev)).acked 0))) ∧
  -- Before the boot has ended.
  (∀ (s : State) (n : Fin 16) (v : Word) (a : Acc) (e : PortEnv),
    portRoute (0xA200 + 4 * n.val) s.dev = .refused →
    exec (.registerWrite (0xA200 + 4 * n.val) v a e) s = .next (s.withDev ((s.dev.writeError (0xA200 + 4 * n.val) a 0 4).acked 0))) ∧
  -- A read-only register.
  (∀ (s : State) (v : Word) (a : Acc) (e : PortEnv),
    s.dev.portReady = true →
    exec (.registerWrite 0xA114 v a e) s = .next (s.withDev (s.dev.acked 0))) ∧
  -- No register.
  (∀ (s : State) (o : Nat) (v : Word) (a : Acc) (e : PortEnv),
    s.dev.portReady = true →
    fieldsAt o = none →
    o ≠ 0xA240 →
    exec (.registerWrite o v a e) s = .next (s.withDev (s.dev.acked 0))) ∧
  -- A non-secure write in a closed window.
  (∀ (s : State) (n : Fin 16) (v : Word) (a : Acc) (e : PortEnv),
    s.dev.portReady = true →
    masked (0xA200 + 4 * n.val) a s.dev = true →
    exec (.registerWrite (0xA200 + 4 * n.val) v a e) s = .next (s.withDev ((s.dev.writeError (0xA200 + 4 * n.val) a 0 5).acked 0))) ∧
  -- A read.
  (∀ (s : State) (n : Fin 16) (a : Acc) (m : Mem),
    s.dev.takes (0xA200 + 4 * n.val) a = true →
    look s.dev.port.latched (a.dom.val * 65536 + (0xA200 + 4 * n.val)) = none →
    exec (.registerRead (0xA200 + 4 * n.val) a m) s = .next (s.withDev (s.dev.acked (s.dev.rd (F.SC_DATA_DATA.ix n) % 2 ^ 32)))) ∧
  -- A non-secure read in a closed window.
  (∀ (s : State) (n : Fin 16) (a : Acc) (m : Mem),
    s.dev.portReady = true →
    masked (0xA200 + 4 * n.val) a s.dev = true →
    ∃ t, exec (.registerRead (0xA200 + 4 * n.val) a m) s = .next t ∧ t.dev.port.rdata = 0 ∧ t.dev.port.ack = true ∧ t.dev.cells = s.dev.cells ∧
      t.fuse = s.fuse) ∧
  -- In reset.
  (∀ (s : State) (o : Nat) (v : Word) (a : Acc) (e : PortEnv),
    s.dev.inReset = true →
    ∃ t, exec (.registerWrite o v a e) s = .next t ∧ t.dev.port.ack = false ∧ t.dev.regs = s.dev.regs ∧ t.fuse = s.fuse)

/-- A step runs the command at the front of the queue. With a command in front, a step is exec of it on the machine with
the rest of the queue. With none waiting it is one cycle of AONCLK (the model's choice, assumption 1), in which
LG_TIME counts unless the instance waits for the time master, and no register of a ticket, queue or fuse changes. (R8,
R347) -/
def Obligations.StepRunsTheFrontCommand : Prop :=
  (∀ (c : Instr) (r : List Instr) (s : State), s.pending = c :: r → step s = exec c { s with pending := r }) ∧
  (∀ s : State, s.pending = [] → step s = .next (s.withDev (aonTick s.dev))) ∧
  (∀ s : State, s.pending = [] → s.dev.pins.porstN = true → s.dev.pins.aonLost = false → s.dev.ring.hold = 0 →
    ∃ t, step s = .next t ∧ t.dev.time = (s.dev.time + 1) % 2 ^ 64 ∧ t.dev.cells = s.dev.cells ∧ t.fuse = s.fuse ∧ t.pending = [])

/-- Every command completes and leaves the queue alone, few touch the fuses, and the commands listed have their own
effect. Whatever the command and the state, exec answers a next state in which the waiting commands are those that
waited; and the fuses are as they were unless the command is FUSEPGM, a write that may be of SC_GO, a sealed command,
or the end of a wake, which completes held writes. For each command listed, in the conditions of its clause, that next
state is the one of its own effect, with what the clause says of it. (R8, R11, R63, R106, R132, R147, R183, R210,
R252, R275, R299, R476) Commands said to answer a next state: cqEnable, cqHeadWrite, completionRecordWrite,
completionWriteResponse, patLoad, patClear, patchDrainEnd, patchReadEnd, patMinverWrite, slalomSelect, stagingReserve,
liftGrant, liftAgeExpiry, liftWakeholdExpiry, arrayTokenTimeout, liftWaitRead, stagedCodewordDispatch, hardDecodeEnd,
softDecoderGrant, softDecodeEnd, lmLineFetchReturn, lmLineWriteResponse, trackerResult, lmCtlWrite, lmCacheInvalidate,
lmSeedGo, lmSeedEnd, lmSweepGo, lmSweepUnit, lmSweepStop, lmSweepEnd, accOpen, accForce, accAbort, accSpill,
accRestore, accRelease, accTakeEnd, accEmitEnd, accMoveEnd, wrHoldrel, traverseStreamTake, bitmapReadReturn,
copyEncodeEnd, bitmapRecheckReturn, chEnumGo, recoveryPoll, recoveryTimeout, dieFence, dieAdmit, dieToclr,
rbFallbackEntry, rbFallbackQuiet, chRbExit, pzqGo, pzqSearchEnd, pzqBackoffEnd, calGo, calForce, calRetry,
calPolWrite, calPeriodExpiry, calGapTimeout, calForceTimeout, calBackoffEnd, glideTimer, phyIdleSleep, phyWakeDone,
fabricReadData, fabricWriteResponse, fabricTimeout, fpUnquar, fabricRequestGrant. -/
def Obligations.EveryCommandCompletes : Prop :=
  -- Every command.
  (∀ (s : State) (c : Instr),
    ∃ t, exec c s = .next t ∧ t.pending = s.pending ∧ (mayBurn c = false → t.fuse = s.fuse)) ∧
  -- CQ_ENABLE.
  (∀ (s : State) (j : Fin 64) (v : Word) (a : Acc),
    s.dev.takes (0xE808 + 0x10 * j.val) a = true →
    s.dev.on (F.CQ_CFG_EN.ix j) = false →
    fld v.toNat 0 1 = 1 →
    4 ≤ fld v.toNat 2 5 →
    fld v.toNat 2 5 ≤ 16 →
    (s.dev.cqs j).held = [] →
    (s.dev.cqs j).first = 0 →
    exec (.cqEnable j v a) s = .next (s.withDev ((waitRecall j ((((((({ s.dev with cq := ins s.dev.cq j { s.dev.cqs j with phase := true } } : Dev).wr (F.CQ_CFG_EN.ix j) 1).wr (F.CQ_CFG_IRQALL.ix j) (fld v.toNat 1 1)).wr
      (F.CQ_CFG_SIZE.ix j) (fld v.toNat 2 5)).wr (F.CQ_CFG_FERR.ix j) (maskOff 1 (s.dev.rd (F.CQ_CFG_FERR.ix j)) (fld v.toNat 7 1))).wr
      (F.CQ_DB_HEAD.ix j) 0).wr (F.CQ_DB_TAIL.ix j) 0)).acked 0))) ∧
  -- CQ_HEAD_WRITE.
  (∀ (s : State) (j : Fin 64) (v : Word) (a : Acc),
    s.dev.takes (0xE80C + 0x10 * j.val) a = true →
    cqHeadOk s.dev j (v.toNat % 2 ^ 16) = true →
    exec (.cqHeadWrite j v a) s = .next (s.withDev ((waitRecall j (s.dev.wr (F.CQ_DB_HEAD.ix j) v.toNat)).acked 0))) ∧
  -- COMPLETION_RECORD_WRITE.
  (∀ (s : State) (c : Nat) (x : Cell) (o : Outcome) (lat : Nat),
    s.dev.live = true →
    look s.dev.cells c = some x →
    x.started = true →
    x.out = some o →
    x.writes = 0 →
    x.rxLeft = 0 →
    x.taking = false →
    x.manifest = false →
    s.dev.on (F.CQ_CFG_EN.ix (tCq x.tkt)) = true →
    (s.dev.cqs (tCq x.tkt)).busy = none →
    (s.dev.cqs (tCq x.tkt)).held = [] →
    (s.dev.cqs (tCq x.tkt)).first = 0 →
    cqFull s.dev (tCq x.tkt) = false →
    ∃ t, exec (.completionRecordWrite (.cell c) ⟨lat, .clean⟩) s = .next t ∧ (t.dev.cqs (tCq x.tkt)).busy = some (.cell c) ∧
      (t.dev.prt (tCq x.tkt % 4)).wr.ctrl = (s.dev.prt (tCq x.tkt % 4)).wr.ctrl ++
        [{ what := .record (tCq x.tkt) (s.dev.rd (F.CQ_DB_TAIL.ix (tCq x.tkt))), addr := s.dev.rd64 (F.CQ_BASE_LO_ADDR.ix (tCq x.tkt)) (F.CQ_BASE_HI_ADDR.ix (tCq x.tkt)) + 32 * s.dev.rd (F.CQ_DB_TAIL.ix (tCq x.tkt)), len := 32, atomic := true,
           data := recordBytes x.tkt x.sq x.slot o x.retry x.susp lat (s.dev.cqs (tCq x.tkt)).phase }] ∧
      look t.dev.cells c = some { x with charged := true }) ∧
  -- COMPLETION_WRITE_RESPONSE.
  (∀ (s : State) (j : Fin 64) (k : Nat) (a : Answer) (r : List Answer) (slot : Nat) (n : Nat),
    s.dev.live = true →
    s.dev.answers = a :: r →
    a.what = .record j slot →
    a.code = 0 →
    (s.dev.cqs j).busy = some (.reject k) →
    (s.dev.cqs j).held = [] →
    k ≠ 0xFF →
    n = (s.dev.rd (F.CQ_DB_TAIL.ix j) + 1) % 2 ^ s.dev.rd (F.CQ_CFG_SIZE.ix j) →
    exec (.completionWriteResponse j) s = .next (s.withDev (latchAll (waitRecall j { (s.dev.wr (F.CQ_DB_TAIL.ix j) n) with answers := r,                                               cq := ins s.dev.cq j { s.dev.cqs j with busy := none, tries := 0, phase := if n = 0 then !(s.dev.cqs j).phase else (s.dev.cqs j).phase, reserved := (s.dev.cqs j).reserved - 1, held := [] },                                               adm := { s.dev.adm with rejects := s.dev.adm.rejects.filter fun q => q.hand.sq != k } })))) ∧
  -- PAT_LOAD.
  (∀ (s : State) (a : Acc),
    s.dev.takes 0xF000 a = true →
    s.dev.on F.PAT_STAT_BUSY (s.dev.named 0xF000 a) = false →
    s.dev.rd F.UPD_SWAP_STATE ≠ 1 →
    s.dev.rd F.UPD_SWAP_STATE ≠ 2 →
    exec (.patLoad a) s = .next (s.withDev ((((({ (s.dev.wr F.PAT_CTL_LOAD 1 (s.dev.named 0xF000 a)) with cls := ins s.dev.cls (s.dev.named 0xF000 a) { s.dev.clu (s.dev.named 0xF000 a) with pat := some { clear := false } } } : Dev).wr
      F.PAT_STAT_BUSY 1 (s.dev.named 0xF000 a)).wr F.PAT_STAT_PHASE 1 (s.dev.named 0xF000 a))).acked 0))) ∧
  -- PAT_CLEAR.
  (∀ (s : State) (a : Acc),
    s.dev.takes 0xF000 a = true →
    s.dev.on F.PAT_STAT_BUSY (s.dev.named 0xF000 a) = false →
    s.dev.rd F.UPD_SWAP_STATE ≠ 1 →
    s.dev.rd F.UPD_SWAP_STATE ≠ 2 →
    exec (.patClear a) s = .next (s.withDev ((((({ (s.dev.wr F.PAT_CTL_CLEAR 1 (s.dev.named 0xF000 a)) with cls := ins s.dev.cls (s.dev.named 0xF000 a) { s.dev.clu (s.dev.named 0xF000 a) with pat := some { clear := true } } } : Dev).wr
      F.PAT_STAT_BUSY 1 (s.dev.named 0xF000 a)).wr F.PAT_STAT_PHASE 1 (s.dev.named 0xF000 a))).acked 0))) ∧
  -- PATCH_DRAIN_END.
  (∀ (s : State) (cl : Fin 4) (p : PatLoad),
    s.dev.live = true →
    (s.dev.clu cl).pat = some p →
    p.phase = 1 →
    p.clear = true →
    clusterQuiet s.dev cl = true →
    ∃ t, exec (.patchDrainEnd cl) s = .next t ∧ t.dev.rd F.PAT_STAT_BUSY cl = 0 ∧ t.dev.rd F.PAT_STAT_ACTIVE cl = 0 ∧ t.dev.rd F.PAT_STAT_ERR cl = 0) ∧
  -- PATCH_READ_END.
  (∀ (s : State) (cl : Fin 4) (p : PatLoad),
    s.dev.live = true →
    (s.dev.clu cl).pat = some p →
    p.phase = 2 →
    p.swap = false →
    p.err = false →
    s.dev.rd F.PAT_LEN_LEN cl ≤ p.pos →
    imgCheck (some cl.val) (s.dev.rd F.PAT_LEN_LEN cl) (s.dev.rd F.PAT_MINVER_MINVER cl) (keyInForce s.dev) p.got = none →
    ∃ t, exec (.patchReadEnd cl .clean) s = .next t ∧ t.dev.rd F.PAT_STAT_ERR cl = 0 ∧ t.dev.rd F.PAT_STAT_BUSY cl = 0 ∧
      t.dev.rd F.PAT_STAT_ACTIVE cl = 1) ∧
  -- PAT_MINVER_WRITE.
  (∀ (s : State) (v : Word) (a : Acc),
    s.dev.takes 0xF018 a = true →
    s.dev.rd F.PAT_MINVER_MINVER (s.dev.named 0xF018 a) ≤ v.toNat →
    exec (.patMinverWrite v a) s = .next (s.withDev ((s.dev.wr F.PAT_MINVER_MINVER v.toNat (s.dev.named 0xF018 a)).acked 0))) ∧
  -- SLALOM_SELECT.
  (∀ (s : State) (c : Fin 32) (b : Bool) (d : Dev) (g : Dev) (f : Dev),
    s.dev.live = true →
    s.dev.on F.FS_STAT_ACTIVE = false →
    s.dev.fs.pfail = false →
    (s.dev.chn c).run = none →
    d = rateGo c (liftCycle b (beforeSelect c s.dev)) →
    d.live = true →
    d.on F.FS_STAT_ACTIVE = false →
    d.fs.pfail = false →
    (d.chn c).run = none →
    g = beforeChoice c d →
    f = starveIdle c (candidates g c) (clearIdleGroups c (candidates g c) g) →
    (f.chn c).run = none →
    (f.chn c).cal.forced = false →
    waitingClass f c = none →
    candidate f c = none →
    candidates g c ≠ [] →
    exec (.slalomSelect { ch := c, same := b } .clean .clean .clean) s = .next (s.withDev (selectFrom (fun c id d => resumeCtx c id .clean .clean d) c (candidates g c) f))) ∧
  -- STAGING_RESERVE.
  (∀ (s : State) (k : Fin 1048576) (x : Cell),
    s.dev.live = true →
    look s.dev.cells k = some x →
    tOpc x.tkt = opRead →
    x.started = false →
    x.out = none →
    x.prof = none →
    (s.dev.queue (cellKey x)).head? = some k.val →
    s.dev.adm.halted = false →
    check10 s.dev x = true →
    stagingFits s.dev (dixCh x.dix) (stagingNeed s.dev x.tkt) = true →
    exec (.stagingReserve k) s = .next (s.withDev (s.dev.setCell k { x with stg := stagingNeed s.dev x.tkt, prof := some (profile s.dev (tCprof x.tkt)) }))) ∧
  -- LIFT_GRANT.
  (∀ (s : State) (r : LReq) (ga : Nat) (gi : Nat) (wt : Nat) (e : Dev),
    s.dev.live = true →
    s.dev.on F.FS_STAT_ACTIVE = false →
    s.dev.fs.pfail = false →
    e = beforeGrant s.dev →
    pickGrant e ga gi = some r →
    r.who = .wake →
    costA e r.cost ≤ e.rd F.LIFT_BUDGET_ARRAY →
    costI e r.cost ≤ e.rd F.LIFT_BUDGET_IO →
    ∃ t, exec (.liftGrant ga gi wt .clean .clean .clean) s = .next t ∧
      t.dev.lift.toks = s.dev.lift.toks ++ [{ ch := r.ch, ctx := none, array := costA e r.cost, io := costI e r.cost, pgm := r.cost == 1 || r.cost == 2 }] ∧
      t.dev.lift.reqs = s.dev.lift.reqs.filter (fun q => !(q.ch == r.ch && isWake q)) ∧ t.dev.lift.last = r.ch) ∧
  -- LIFT_AGE_EXPIRY.
  (∀ (s : State) (c : Fin 32) (w : Bool) (q : LReq),
    s.dev.live = true →
    s.dev.lift.reqs = [q] →
    q.ch = c →
    isWake q = w →
    s.dev.lift.resv = none →
    ∃ t, exec (.liftAgeExpiry c w) s = .next t ∧ t.dev.lift = { s.dev.lift with reqs := [{ q with aged := true }], resv := some (c.val, w) } ∧
      t.dev.rd F.LIFT_FLAG_AGED = 1 ∧ t.dev.rd F.LIFT_STAT_RESV = 1) ∧
  -- LIFT_WAKEHOLD_EXPIRY.
  (∀ (s : State) (c : Fin 32) (a : List Tok) (k : Tok) (b : List Tok),
    s.dev.live = true →
    s.dev.lift.toks = a ++ k :: b →
    k.ch = c →
    k.ctx = none →
    a.all (fun j => !(j.ch == c.val && j.ctx.isNone)) = true →
    ∃ t, exec (.liftWakeholdExpiry c) s = .next t ∧ t.dev.lift = { s.dev.lift with toks := a ++ b } ∧
      t.dev.rd F.LIFT_USE_ARRAY = min (sumL (t.dev.lift.toks.map (·.array))) 4095 ∧
      t.dev.rd F.LIFT_USE_IO = min (sumL (t.dev.lift.toks.map (·.io))) 4095) ∧
  -- ARRAY_TOKEN_TIMEOUT.
  (∀ (s : State) (c : Fin 32) (id : Nat),
    s.dev.live = true →
    s.dev.ctx c id = none →
    ∃ t, exec (.arrayTokenTimeout c id) s = .next t ∧
      t.dev.lift = { s.dev.lift with toks := dropEmpty (s.dev.lift.toks.map fun k => if (k.ch == c.val && k.ctx == some id) then { k with array := 0 } else k) } ∧
      t.dev.rd F.LIFT_USE_ARRAY = min (sumL (t.dev.lift.toks.map (·.array))) 4095) ∧
  -- LIFT_WAIT_READ.
  (∀ (s : State) (a : Acc),
    s.dev.takes 0x983C a = true →
    look s.dev.port.latched (a.dom.val * 65536 + 0x983C) = none →
    exec (.liftWaitRead a) s = .next (s.withDev ((s.dev.wr F.LIFT_WAIT_MAXWAIT 0).acked ((s.dev.rd F.LIFT_WAIT_MAXWAIT * 2 ^ F.LIFT_WAIT_MAXWAIT.lo + s.dev.rd F.LIFT_WAIT_DELAYED * 2 ^ F.LIFT_WAIT_DELAYED.lo) % 2 ^ 32)))) ∧
  -- STAGED_CODEWORD_DISPATCH.
  (∀ (s : State) (cl : Fin 4) (w : Cw) (r : List Cw) (n : Nat),
    s.dev.live = true →
    (s.dev.clu cl).staged = w :: r →
    w.whole = true →
    freeDecoder s.dev cl = some n →
    (s.dev.cell w.cell).rxUe = false →
    s.dev.unswept = true →
    ∃ t, exec (.stagedCodewordDispatch cl .clean) s = .next t ∧ (t.dev.clu cl).staged = r ∧
      look (t.dev.clu cl).hdec n = some (((look (s.dev.clu cl).hdec n).getD []) ++ [w]) ∧ t.dev.rd F.HDP_STAT_QUEUED cl = min r.length 255) ∧
  -- HARD_DECODE_END.
  (∀ (s : State) (cl : Fin 4) (n : Fin 10) (f : DecodeFound) (w : Cw) (y : Cell) (x : Ctx),
    s.dev.live = true →
    s.dev.unswept = true →
    decoderHead s.dev cl n = some w →
    look s.dev.cells w.cell = some y →
    y.out = none →
    tOpc y.tkt = opRead →
    s.dev.ctx w.ch w.ctx = some x →
    x.cells = [w.cell] →
    x.work = .first →
    (y.cws.any fun p => p.2 == .pending && p.1 != w.plane * 8 + w.idx) = true →
    f.ok = true →
    f.iters ≤ (cellProf s.dev y).hiter →
    w.first = true →
    ∃ t, exec (.hardDecodeEnd cl n f .clean) s = .next t ∧ look (t.dev.cell w.cell).cws (w.plane * 8 + w.idx) = some .okFirst ∧
      (t.dev.cell w.cell).corrected = y.corrected + f.corrected ∧ (t.dev.cell w.cell).xfer = y.xfer + 1) ∧
  -- SOFT_DECODER_GRANT.
  (∀ (s : State) (cl : Nat) (c : Nat) (id : Nat) (p : Nat) (r : List (Nat × Nat × Nat × Nat)) (x : Ctx),
    s.dev.live = true →
    s.dev.unswept = true →
    s.dev.sdp.queue = (cl, c, id, p) :: r →
    s.dev.sdp.held = [] →
    0 < s.dev.rd F.SDP_CFG_CLMAX →
    s.dev.ctx c id = some x →
    ∃ t, exec (.softDecoderGrant) s = .next t ∧ t.dev.sdp.queue = r ∧ t.dev.sdp.held = [(0, (cl, c, id, p))] ∧ t.dev.rd F.SDP_STAT_BUSY = 1) ∧
  -- SOFT_DECODE_END.
  (∀ (s : State) (n : Fin 8) (f : DecodeFound) (cl : Nat) (c : Nat) (id : Nat) (p : Nat) (x : Ctx) (k : Nat) (y : Cell) (w : Nat) (w2 : Nat) (ws : List Nat),
    s.dev.live = true →
    s.dev.unswept = true →
    look s.dev.sdp.held n = some (cl, c, id, p) →
    s.dev.ctx c id = some x →
    x.st = .decoding →
    cellOfPlane s.dev x p = some k →
    look s.dev.cells k = some y →
    tOpc y.tkt = opRead →
    wantedCws y false p = w :: w2 :: ws →
    ∃ t, exec (.softDecodeEnd n f .clean) s = .next t ∧ look (t.dev.cell k).cws (p * 8 + w) = some (if f.ok = true ∧
      f.iters ≤ (cellProf s.dev y).siter then .okSoft else .uncorr) ∧ (t.dev.cell k).out = y.out ∧ t.dev.sdp = s.dev.sdp) ∧
  -- LM_LINE_FETCH_RETURN.
  (∀ (s : State) (l : Nat) (a : Answer) (r : List Answer),
    s.dev.live = true →
    s.dev.answers = a :: r →
    a.what = .mapRead l →
    a.code = 0 →
    a.ue = false →
    s.dev.lm.seeds = [] →
    s.dev.chs = [] →
    ∃ t, exec (.lmLineFetchReturn { line := l }) s = .next t ∧ cacheGet t.dev l = some (fitTo 16 0 a.bytes) ∧
      t.dev.lm.fetching = s.dev.lm.fetching.filter (· != l) ∧ t.dev.answers = r) ∧
  -- LM_LINE_WRITE_RESPONSE.
  (∀ (s : State) (l : Nat) (a : Answer) (r : List Answer) (w : LmWrite) (ws : List LmWrite),
    s.dev.live = true →
    s.dev.answers = a :: r →
    a.what = .mapWrite l →
    a.code = 0 →
    s.dev.lm.writes = w :: ws →
    w.line = l →
    w.moves = [] →
    s.dev.lm.seeds = [] →
    s.dev.chs = [] →
    ∃ t, exec (.lmLineWriteResponse { line := l }) s = .next t ∧ cacheGet t.dev l = some w.bytes ∧ t.dev.lm.writes = ws ∧ t.dev.answers = r) ∧
  -- TRACKER_RESULT.
  (∀ (s : State) (cl : Fin 4) (x : Track) (r : List Track) (b : List Byte),
    s.dev.live = true →
    s.dev.pfSeen = false →
    s.dev.on F.FS_STAT_ACTIVE = false →
    (s.dev.clu cl).trk = x :: r →
    s.dev.on F.LM_CTL_TRKEN = true →
    s.dev.on F.LM_CTL_EN = true →
    s.dev.on F.LM_DIE_TRK x.dix = true →
    lineLocked s.dev (pageLine s.dev x.dix x.blk x.page) = false →
    cacheGet s.dev (pageLine s.dev x.dix x.blk x.page) = some b →
    ∃ t, exec (.trackerResult cl .clean) s = .next t ∧ (t.dev.clu cl).trk = r ∧ t.dev.lm.stamp = s.dev.lm.stamp + 1 ∧
      cacheGet t.dev (pageLine s.dev x.dix x.blk x.page) = some b) ∧
  -- LM_CTL_WRITE.
  (∀ (s : State) (v : Word) (a : Acc),
    s.dev.takes 0xD100 a = true →
    exec (.lmCtlWrite v a) s = .next (s.withDev ((((s.dev.wr F.LM_CTL_EN (fld v.toNat 0 1)).wr F.LM_CTL_TRKEN (fld v.toNat 1 1)).wr F.LM_CTL_PREF (fld v.toNat 2 1)).acked 0))) ∧
  -- LM_CACHE_INVALIDATE.
  (∀ (s : State),
    s.dev.live = true →
    s.dev.on F.LM_CTL_EN = false →
    s.dev.on F.LM_STAT_IDLE = true →
    exec (.lmCacheInvalidate) s = .next (s.withDev ({ s.dev with lm := { s.dev.lm with cache := [] } }))) ∧
  -- LM_SEED_GO.
  (∀ (s : State) (v : Word) (a : Acc),
    s.dev.takes 0xD160 a = true →
    fld v.toNat 1 1 = 0 →
    s.dev.on F.LM_STAT_SEEDBUSY = false →
    s.dev.on F.LM_DIE_MODE (s.dev.rd F.LM_SADDR_DIX) = false →
    s.dev.lm = {} →
    ∃ t, exec (.lmSeedGo { v := v } a) s = .next t ∧ t.dev.rd F.LM_STAT_SEEDBUSY = 1 ∧ t.dev.rd F.LM_SCMD_CONF = fld v.toNat 8 4 ∧
      t.dev.lm.seeds = [(s.dev.rd F.LM_SADDR_DIX, s.dev.rd F.LM_SADDR_BLOCK, s.dev.rd F.LM_SADDR_ZONE)]) ∧
  -- LM_SEED_END.
  (∀ (s : State),
    s.dev.live = true →
    s.dev.on F.LM_STAT_SEEDBUSY = true →
    s.dev.lm.seeds = [] →
    s.dev.lm.writes = [] →
    exec (.lmSeedEnd) s = .next (s.withDev (raise 0x7E (s.dev.wr F.LM_STAT_SEEDBUSY 0)))) ∧
  -- LM_SWEEP_GO.
  (∀ (s : State) (v : Word) (a : Acc),
    s.dev.takes 0xD180 a = true →
    fld v.toNat 1 1 = 0 →
    fld v.toNat 16 8 ≠ 0 →
    s.dev.on F.LM_STAT_SWPBUSY = false →
    s.dev.rd F.LM_SWP_DIX_FIRST ≤ s.dev.rd F.LM_SWP_DIX_LAST →
    s.dev.rd F.LM_SWP_BLK_FIRST ≤ s.dev.rd F.LM_SWP_BLK_LAST →
    ∃ t, exec (.lmSweepGo v a) s = .next t ∧ t.dev.rd F.LM_STAT_SWPBUSY = 1 ∧ t.dev.rd F.LM_SWP_CTL_GO = 1 ∧
      t.dev.rd F.LM_SWP_CTL_MODE = fld v.toNat 2 1) ∧
  -- LM_SWEEP_UNIT.
  (∀ (s : State) (x : Nat) (b : Nat),
    s.dev.live = true →
    s.dev.lm.sweep = some (x, b) →
    s.dev.lm.unitBusy = false →
    s.dev.lm.stop = false →
    s.dev.lm.writes = [] →
    ∃ t, exec (.lmSweepUnit) s = .next t ∧ t.dev.rd F.LM_SWP_POS_DIX = x % 2 ^ 10 ∧ t.dev.rd F.LM_SWP_POS_BLOCK = b % 2 ^ 13 ∧
      t.dev.lm = { s.dev.lm with unitBusy := true }) ∧
  -- LM_SWEEP_STOP.
  (∀ (s : State) (v : Word) (a : Acc),
    s.dev.takes 0xD180 a = true →
    fld v.toNat 0 1 = 0 →
    fld v.toNat 2 1 = s.dev.rd F.LM_SWP_CTL_MODE →
    fld v.toNat 8 4 = s.dev.rd F.LM_SWP_CTL_CONFMAX →
    fld v.toNat 16 8 = s.dev.rd F.LM_SWP_CTL_RATE →
    fld v.toNat 16 8 ≠ 0 →
    s.dev.on F.LM_STAT_SWPBUSY = true →
    s.dev.lm.unitBusy = false →
    ∃ t, exec (.lmSweepStop v a) s = .next t ∧ t.dev.lm = { s.dev.lm with stop := true, sweep := none } ∧ t.dev.rd F.LM_SWP_CTL_STOP = 1 ∧
      t.dev.rd F.LM_STAT_SWPBUSY = 1) ∧
  -- LM_SWEEP_END.
  (∀ (s : State),
    s.dev.live = true →
    s.dev.on F.LM_STAT_SWPBUSY = true →
    s.dev.lm.sweep = none →
    exec (.lmSweepEnd) s = .next (s.withDev (produce 0x78 (raise 0x7E ((((({ s.dev with lm := { s.dev.lm with stop := false } } : Dev).wr F.LM_STAT_SWPBUSY 0).wr F.LM_STAT_SWPDONE 1).wr F.LM_SWP_CTL_STOP 0).wr F.LM_SWP_CTL_GO 0))))) ∧
  -- ACC_OPEN.
  (∀ (s : State) (a : Acc),
    s.dev.takes 0xE210 a = true →
    s.dev.on F.FS_STAT_ACTIVE = false →
    s.dev.fs.pfail = false →
    s.dev.rd F.ACC_STAT_STATE (s.dev.named 0xE210 a) = 0 →
    s.dev.on F.ACC_STAT_ABORTING (s.dev.named 0xE210 a) = false →
    regionReady s.dev 3 = true →
    ∃ t, exec (.accOpen a) s = .next t ∧ t.dev.rd F.ACC_STAT_STATE (s.dev.named 0xE210 a) = 1 ∧
      t.dev.rd F.ACC_CLAIM_LO_MASK (s.dev.named 0xE210 a) = 0 ∧ t.dev.rd F.ACC_CLAIM_HI_MASK (s.dev.named 0xE210 a) = 0) ∧
  -- ACC_FORCE.
  (∀ (s : State) (a : Acc),
    s.dev.takes 0xE210 a = true →
    s.dev.on F.FS_STAT_ACTIVE = false →
    s.dev.fs.pfail = false →
    s.dev.rd F.ACC_STAT_STATE (s.dev.named 0xE210 a) = 1 →
    s.dev.on F.ACC_STAT_ABORTING (s.dev.named 0xE210 a) = false →
    accClaim s.dev (s.dev.named 0xE210 a) = 0 →
    isSender s.dev (s.dev.named 0xE210 a) = false →
    ∃ t, exec (.accForce a) s = .next t ∧ t.dev.rd F.ACC_STAT_STATE (s.dev.named 0xE210 a) = 2 ∧ (t.dev.accu (s.dev.named 0xE210 a)).bad = false ∧
      (t.dev.accu (s.dev.named 0xE210 a)).slots = (s.dev.accu (s.dev.named 0xE210 a)).slots) ∧
  -- ACC_ABORT.
  (∀ (s : State) (a : Acc),
    s.dev.takes 0xE210 a = true →
    s.dev.on F.FS_STAT_ACTIVE = false →
    s.dev.fs.pfail = false →
    (s.dev.rd F.ACC_STAT_STATE (s.dev.named 0xE210 a) = 1 ∨ s.dev.rd F.ACC_STAT_STATE (s.dev.named 0xE210 a) = 3 ∨ s.dev.rd F.ACC_STAT_STATE (s.dev.named 0xE210 a) = 5) →
    s.dev.on F.ACC_STAT_ABORTING (s.dev.named 0xE210 a) = false →
    accClaim s.dev (s.dev.named 0xE210 a) = 0 →
    exec (.accAbort a) s = .next (s.withDev (({ ((((s.dev.wr F.ACC_STAT_STATE 0 (s.dev.named 0xE210 a)).wr F.ACC_STAT_ABORTING 0 (s.dev.named 0xE210 a)).wr F.ACC_STAT_UE 0 (s.dev.named 0xE210 a)).wr F.ACC_STAT_EMITERR 0 (s.dev.named 0xE210 a)).wr F.ACC_STAT_MOVERR 0 (s.dev.named 0xE210 a) with
      acc := putD s.dev.acc (s.dev.named 0xE210 a) { takes := (s.dev.accu (s.dev.named 0xE210 a)).takes.map fun x => { x with lost := true } } {} } : Dev).acked 0))) ∧
  -- ACC_SPILL.
  (∀ (s : State) (a : Acc),
    s.dev.takes 0xE210 a = true →
    s.dev.on F.FS_STAT_ACTIVE = false →
    s.dev.fs.pfail = false →
    s.dev.rd F.ACC_STAT_STATE (s.dev.named 0xE210 a) = 1 →
    s.dev.on F.ACC_STAT_ABORTING (s.dev.named 0xE210 a) = false →
    accClaim s.dev (s.dev.named 0xE210 a) = 0 →
    ∃ t, exec (.accSpill a) s = .next t ∧ t.dev.rd F.ACC_STAT_STATE (s.dev.named 0xE210 a) = 4 ∧ (t.dev.accu (s.dev.named 0xE210 a)).spilling = true ∧
      (t.dev.accu (s.dev.named 0xE210 a)).bad = false) ∧
  -- ACC_RESTORE.
  (∀ (s : State) (a : Acc),
    s.dev.takes 0xE210 a = true →
    s.dev.on F.FS_STAT_ACTIVE = false →
    s.dev.fs.pfail = false →
    s.dev.rd F.ACC_STAT_STATE (s.dev.named 0xE210 a) = 0 →
    s.dev.on F.ACC_STAT_ABORTING (s.dev.named 0xE210 a) = false →
    regionReady s.dev 3 = true →
    ∃ t, exec (.accRestore a) s = .next t ∧ t.dev.rd F.ACC_STAT_STATE (s.dev.named 0xE210 a) = 4 ∧
      (t.dev.accu (s.dev.named 0xE210 a)).spilling = false ∧ (t.dev.accu (s.dev.named 0xE210 a)).image = []) ∧
  -- ACC_RELEASE.
  (∀ (s : State) (a : Acc),
    s.dev.takes 0xE210 a = true →
    s.dev.on F.FS_STAT_ACTIVE = false →
    s.dev.fs.pfail = false →
    (s.dev.rd F.ACC_STAT_STATE (s.dev.named 0xE210 a) = 3 ∨ s.dev.rd F.ACC_STAT_STATE (s.dev.named 0xE210 a) = 5) →
    s.dev.on F.ACC_STAT_ABORTING (s.dev.named 0xE210 a) = false →
    exec (.accRelease a) s = .next (s.withDev (({ ((((s.dev.wr F.ACC_STAT_STATE 0 (s.dev.named 0xE210 a)).wr F.ACC_STAT_ABORTING 0 (s.dev.named 0xE210 a)).wr F.ACC_STAT_UE 0 (s.dev.named 0xE210 a)).wr F.ACC_STAT_EMITERR 0 (s.dev.named 0xE210 a)).wr F.ACC_STAT_MOVERR 0 (s.dev.named 0xE210 a) with
      acc := putD s.dev.acc (s.dev.named 0xE210 a) { takes := (s.dev.accu (s.dev.named 0xE210 a)).takes.map fun x => { x with lost := true } } {} } : Dev).acked 0))) ∧
  -- ACC_TAKE_END.
  (∀ (s : State) (n : Fin 64) (m : Fin 64) (k : Take) (r : List Take),
    s.dev.live = true →
    (s.dev.accu n).takes = k :: r →
    k.member = m →
    xchTurn s.dev 4 (takeClusters s.dev) = some (dixCl (startedDie (s.dev.cell k.cell))) →
    k.lost = false →
    bit (accClaim s.dev n) m = true →
    s.dev.on F.ACC_STAT_ABORTING n = false →
    s.dev.rd F.ACC_STAT_STATE n = 1 →
    s.dev.on F.ACC_STAT_CLOSED n = false →
    ∃ t, exec (.accTakeEnd n m {}) s = .next t ∧ bit (accClaim t.dev n) m = false ∧ bit (accTaken t.dev n) m = true ∧
      (∀ i : Fin 64, i ≠ m → bit (accClaim t.dev n) i = bit (accClaim s.dev n) i ∧ bit (accTaken t.dev n) i = bit (accTaken s.dev n) i)) ∧
  -- ACC_EMIT_END.
  (∀ (s : State) (n : Fin 64),
    s.dev.live = true →
    s.dev.rd F.ACC_STAT_STATE n = 2 →
    (s.dev.accu n).left = 0 →
    (s.dev.accu n).waitAck = false →
    (s.dev.accu n).bad = false →
    ∃ t, exec (.accEmitEnd n .clean) s = .next t ∧ t.dev.rd F.ACC_STAT_STATE n = 3 ∧ t.dev.rd F.ACC_CNT_EMIT = satAdd 16 (s.dev.rd F.ACC_CNT_EMIT) 1 ∧
      (if n.val < 32 then bit (t.dev.rd F.ACC_DONE_LO_DONE) n else bit (t.dev.rd F.ACC_DONE_HI_DONE) (n.val - 32)) = true) ∧
  -- ACC_MOVE_END.
  (∀ (s : State) (n : Fin 64),
    s.dev.live = true →
    s.dev.rd F.ACC_STAT_STATE n = 4 →
    (s.dev.accu n).left = 0 →
    (s.dev.accu n).bad = false →
    (s.dev.accu n).spilling = true →
    ∃ t, exec (.accMoveEnd n .clean) s = .next t ∧ t.dev.rd F.ACC_STAT_STATE n = 0 ∧
      t.dev.accu n = { takes := (s.dev.accu n).takes.map fun x => { x with lost := true } } ∧ t.dev.rd F.ACC_STAT_MOVERR n = 0) ∧
  -- WR_HOLDREL.
  (∀ (s : State) (v : Word) (a : Acc) (k : Fin 4),
    s.dev.takes 0x1318 a = true →
    fld v.toNat 0 4 = 2 ^ k.val →
    ∃ t, exec (.wrHoldrel v a) s = .next t ∧ t.dev.rd (F.WR_HOLD_V.ix k) (s.dev.named 0x1318 a) = 0 ∧
      bit (t.dev.rd F.WR_STAT_HELD (s.dev.named 0x1318 a)) k = false ∧ look (t.dev.chn (s.dev.named 0x1318 a)).holds k = none) ∧
  -- TRAVERSE_STREAM_TAKE.
  (∀ (s : State) (k : Fin 1048576) (x : Cell) (d : Dev) (n : Nat),
    s.dev.live = true →
    look s.dev.cells k = some x →
    tOpc x.tkt = opCopy →
    x.started = false →
    x.out = none →
    d = commitPoint 1 (dixCl x.dix) 0 s.dev →
    s.dev.adm.halted = false →
    s.dev.rd F.PM_STAT_STATE ≠ 2 →
    (s.dev.queue (cellKey x)).head? = some k.val →
    x.stream = none →
    x.tprof = none →
    d.on F.TRV_CFG_EN (dixCl x.dix) = true →
    popc 4 (d.rd F.TRV_STAT_BUSY (dixCl x.dix)) < d.rd F.TRV_CFG_STREAMS (dixCl x.dix) + 1 →
    (List.range 4).find? (fun j => !bit (d.rd F.TRV_STAT_BUSY (dixCl x.dix)) j) = some n →
    x.prof = none →
    check10 d x = true →
    (profile d (tCprof x.tkt)).raw = false →
    (profile d (tTprof x.tkt)).raw = false →
    stagingFits d (dixCh x.dix) (stagingNeed d x.tkt) = false →
    ∃ t, exec (.traverseStreamTake k) s = .next t ∧ (t.dev.cell k).stream = some n ∧ bit (t.dev.rd F.TRV_STAT_BUSY (dixCl x.dix)) n = true ∧
      t.dev.rd (F.TRV_STR_SRCDIX.ix n) (dixCl x.dix) = x.dix % 2 ^ 10) ∧
  -- BITMAP_READ_RETURN.
  (∀ (s : State) (k : Fin 1048576) (x : Cell) (a : Answer) (r : List Answer) (b : Nat),
    s.dev.live = true →
    s.dev.answers = a :: r →
    a.what = .bitmap k →
    a.code = 0 →
    look s.dev.cells k = some x →
    x.stream.isSome = true →
    x.started = false →
    x.out = none →
    b = leAt a.bytes 0 8 % 2 ^ cwTotal x.tkt →
    b ≠ 0 ∨ s.dev.on F.TRV_CFG_EMPTY (dixCl x.dix) = false →
    exec (.bitmapReadReturn k) s = .next (s.withDev (({ s.dev with answers := r, cells := ins s.dev.cells k { x with bitmap := some b } } : Dev).wr F.TRV_SKIP_CNT (s.dev.rd F.TRV_SKIP_CNT (dixCl x.dix) + (cwTotal x.tkt - popc (cwTotal x.tkt) b)) (dixCl x.dix)))) ∧
  -- COPY_ENCODE_END.
  (∀ (s : State) (k : Fin 1048576) (x : Cell) (p : Prof),
    s.dev.live = true →
    look s.dev.cells k = some x →
    x.started = true →
    x.between = true →
    x.ready = false →
    x.out = none →
    x.tprof = some p →
    encodeNext s.dev (dixCh x.tdix) = some k.val →
    dixCl x.dix = dixCl x.tdix ∨ xchTurn s.dev (dixCl x.tdix) (encodeClusters s.dev (dixCl x.tdix)) = some (dixCl x.dix) →
    s.dev.on F.TRV_CFG_RECHECK (dixCl x.dix) = false →
    dieFenced s.dev x.tdix = false →
    ∃ t, exec (.copyEncodeEnd k) s = .next t ∧ (t.dev.cell k).ready = true ∧ (t.dev.cell k).coded = copyCodes x p ∧ (t.dev.cell k).plain = []) ∧
  -- BITMAP_RECHECK_RETURN.
  (∀ (s : State) (k : Fin 1048576) (x : Cell) (p : Prof) (a : Answer) (r : List Answer) (g : List Nat),
    s.dev.live = true →
    s.dev.answers = a :: r →
    a.what = .bitmapAgain k →
    a.code = 0 →
    look s.dev.cells k = some x →
    x.recheck = true →
    x.out = none →
    x.tprof = some p →
    dieFenced s.dev x.tdix = false →
    g = (List.range (cwTotal x.tkt)).filter (fun m => bit (x.bitmap.getD 0) m && !bit (leAt a.bytes 0 8) m) →
    ∃ t, exec (.bitmapRecheckReturn k) s = .next t ∧ (t.dev.cell k).recheck = false ∧
      (t.dev.cell k).coded = g.foldl (fun c m => ins c m (List.replicate p.len 0)) x.coded ∧ (t.dev.cell k).relocated = x.relocated - g.length) ∧
  -- CH_ENUM_GO.
  (∀ (s : State) (v : Word) (a : Acc),
    s.dev.takes 0x100C a = true →
    s.dev.on F.CH_STAT_ENUMBUSY (s.dev.named 0x100C a) = false →
    chHolds s.dev (s.dev.named 0x100C a) = false →
    ((List.range 4).all fun l => !dieFenced s.dev (32 * (s.dev.named 0x100C a) + l)) = true →
    (s.dev.chs).all (fun p => p.2.ctxs.isEmpty) = true →
    ∃ t, exec (.chEnumGo v a) s = .next t ∧ t.dev.rd F.CH_STAT_ENUMBUSY (s.dev.named 0x100C a) = 1 ∧ t.dev.rd F.CH_ENUM_GO (s.dev.named 0x100C a) = 1 ∧
      t.dev.rd F.CH_STAT_RATE (s.dev.named 0x100C a) = 0) ∧
  -- RECOVERY_POLL.
  (∀ (s : State) (x : Fin 1024) (st : Nat) (ns : Nat),
    s.dev.live = true →
    rbSampled s.dev (dixCh x) = true →
    s.dev.rd F.DIE_STAT_STATE x = 2 →
    st.testBit 6 = true →
    s.dev.on F.DIE_CFG_AUTOFENCE x = false ∨ satAdd 8 (s.dev.rd F.DIE_STAT_TOCONS x) 1 < s.dev.rd F.DIE_CFG_TOLIM x →
    exec (.recoveryPoll x st ns) s = .next (s.withDev (latchAll (heldLow x (((chargeSysBus ns s.dev).wr F.DIE_STAT_STATE 1 x).wr F.DIE_STAT_TOCONS (satAdd 8 (s.dev.rd F.DIE_STAT_TOCONS x) 1) x))))) ∧
  -- RECOVERY_TIMEOUT.
  (∀ (s : State) (x : Fin 1024),
    s.dev.live = true →
    s.dev.chs = [] →
    s.dev.cells = [] →
    s.dev.rd F.DIE_STAT_STATE x = 2 →
    s.dev.lift.reqs = [] →
    s.dev.dq = [] →
    ∃ t, exec (.recoveryTimeout x) s = .next t ∧ t.dev.rd F.DIE_STAT_STATE x = 3 ∧ t.dev.rd F.DIE_STAT_FCAUSE x = 1 ∧
      bit t.dev.int.pend (0x70 + x / 256) = true) ∧
  -- DIE_FENCE.
  (∀ (s : State) (a : Acc),
    s.dev.takes 0x3004 a = true →
    s.dev.rd F.DIE_STAT_STATE (s.dev.named 0x3004 a) ≠ 3 →
    s.dev.live = true →
    s.dev.chs = [] →
    s.dev.cells = [] →
    s.dev.lift.reqs = [] →
    s.dev.dq = [] →
    ∃ t, exec (.dieFence a) s = .next t ∧ t.dev.rd F.DIE_STAT_STATE (s.dev.named 0x3004 a) = 3 ∧
      t.dev.rd F.DIE_STAT_FCAUSE (s.dev.named 0x3004 a) = 0 ∧ bit t.dev.int.pend (0x70 + (s.dev.named 0x3004 a) / 256) = true) ∧
  -- DIE_ADMIT.
  (∀ (s : State) (a : Acc),
    s.dev.takes 0x3004 a = true →
    s.dev.rd F.DIE_STAT_STATE (s.dev.named 0x3004 a) = 4 →
    exec (.dieAdmit a) s = .next (s.withDev ((s.dev.wr F.DIE_STAT_STATE 1 (s.dev.named 0x3004 a)).acked 0))) ∧
  -- DIE_TOCLR.
  (∀ (s : State) (a : Acc),
    s.dev.takes 0x3004 a = true →
    exec (.dieToclr a) s = .next (s.withDev ((s.dev.wr F.DIE_STAT_TOCONS 0 (s.dev.named 0x3004 a)).acked 0))) ∧
  -- RB_FALLBACK_ENTRY.
  (∀ (s : State) (c : Fin 32) (g : Fin 2),
    s.dev.live = true →
    rbSampled s.dev c = true →
    bit (s.dev.rd F.CH_RB_FB c) g = false →
    bit (s.dev.chn c).rb g = false →
    groupBusy s.dev c g = [] →
    exec (.rbFallbackEntry c g) s = .next (s.withDev (raise (0x74 + c / 8) ((s.dev.wr F.CH_RB_FB (setBit (s.dev.rd F.CH_RB_FB c) g) c).wr F.CH_CNT_FBENTRY (satAdd 16 (s.dev.rd F.CH_CNT_FBENTRY c) 1) c)))) ∧
  -- RB_FALLBACK_QUIET.
  (∀ (s : State) (c : Fin 32) (g : Fin 2),
    s.dev.live = true →
    rbSampled s.dev c = true →
    bit (s.dev.chn c).rb g = true →
    s.dev.on F.CH_RB_AUTOEXIT c = true →
    exec (.rbFallbackQuiet c g) s = .next (s.withDev (s.dev.wr F.CH_RB_FB (clrBit (s.dev.rd F.CH_RB_FB c) g) c))) ∧
  -- CH_RB_EXIT.
  (∀ (s : State) (v : Word) (a : Acc),
    s.dev.takes 0x1010 a = true →
    fld v.toNat 8 8 ≠ 0 →
    fld v.toNat 16 8 ≠ 0 →
    fld v.toNat 24 8 ≠ 0 →
    ∃ t, exec (.chRbExit v a) s = .next t ∧ t.dev.rd F.CH_RB_FB (s.dev.named 0x1010 a) = 0 ∧
      t.dev.rd F.CH_RB_AUTOEXIT (s.dev.named 0x1010 a) = fld v.toNat 2 1 ∧ t.dev.chs = s.dev.chs) ∧
  -- PZQ_GO.
  (∀ (s : State) (a : Acc),
    s.dev.takes 0x2300 a = true →
    s.dev.on F.PZQ_STAT_BUSY (s.dev.named 0x2300 a) = false →
    exec (.pzqGo a) s = .next (s.withDev (((((s.dev.wr F.PZQ_CTL_GO 1 (s.dev.named 0x2300 a)).wr F.PZQ_STAT_GIVEUP 0 (s.dev.named 0x2300 a)).wr F.PZQ_STAT_ABORTS 0 (s.dev.named 0x2300 a)).wr F.PZQ_STAT_BUSY 1 (s.dev.named 0x2300 a)).acked 0))) ∧
  -- PZQ_SEARCH_END.
  (∀ (s : State) (cl : Fin 4) (pu : Fin 64) (pd : Fin 64),
    s.dev.live = true →
    s.dev.on F.PZQ_STAT_BUSY cl = true →
    pu ≠ 0 →
    pu ≠ 63 →
    pd ≠ 0 →
    pd ≠ 63 →
    s.dev.chs = [] →
    ∃ t, exec (.pzqSearchEnd cl pu pd) s = .next t ∧ t.dev.rd F.PZQ_STAT_BUSY cl = 0 ∧ t.dev.rd F.PZQ_CTL_GO cl = 0 ∧ t.dev.rd F.PZQ_STAT_PU cl = pu) ∧
  -- PZQ_BACKOFF_END.
  (∀ (s : State) (cl : Fin 4),
    s.dev.live = true →
    s.dev.on F.PZQ_STAT_ABORTS cl = true →
    s.dev.on F.PZQ_STAT_BUSY cl = false →
    s.dev.on F.PZQ_STAT_GIVEUP cl = false →
    exec (.pzqBackoffEnd cl) s = .next (s.withDev (s.dev.wr F.PZQ_STAT_BUSY 1 cl))) ∧
  -- CAL_GO.
  (∀ (s : State) (a : Acc),
    s.dev.takes 0x140C a = true →
    s.dev.rd F.CAL_STAT_STATE (s.dev.named 0x140C a) = 1 →
    s.dev.lift.reqs = [] →
    ∃ t, exec (.calGo a) s = .next t ∧ t.dev.rd F.CAL_STAT_STATE (s.dev.named 0x140C a) = 2 ∧ (t.dev.chn (s.dev.named 0x140C a)).cal.step = 1 ∧
      (t.dev.chn (s.dev.named 0x140C a)).cal.trig = 3) ∧
  -- CAL_FORCE.
  (∀ (s : State) (a : Acc),
    s.dev.takes 0x140C a = true →
    s.dev.rd F.CAL_STAT_STATE (s.dev.named 0x140C a) = 1 →
    s.dev.lift.reqs = [] →
    ∃ t, exec (.calForce a) s = .next t ∧ t.dev.rd F.CAL_STAT_STATE (s.dev.named 0x140C a) = 2 ∧ (t.dev.chn (s.dev.named 0x140C a)).cal.step = 1 ∧
      (t.dev.chn (s.dev.named 0x140C a)).cal.forced = true) ∧
  -- CAL_RETRY.
  (∀ (s : State) (a : Acc),
    s.dev.takes 0x140C a = true →
    s.dev.rd F.CAL_STAT_STATE (s.dev.named 0x140C a) = 5 →
    s.dev.lift.reqs = [] →
    ∃ t, exec (.calRetry a) s = .next t ∧ t.dev.rd F.CAL_STAT_STATE (s.dev.named 0x140C a) = 2 ∧
      t.dev.rd F.CAL_STAT_ABORTS (s.dev.named 0x140C a) = 0 ∧ (t.dev.chn (s.dev.named 0x140C a)).cal.step = 1) ∧
  -- CAL_POL_WRITE.
  (∀ (s : State) (v : Word) (a : Acc) (c : Nat),
    s.dev.takes 0x1408 a = true →
    c = s.dev.named 0x1408 a →
    ∃ t, exec (.calPolWrite v a) s = .next t ∧ look t.dev.shadow (F.CAL_CFG_AUTO.key c) = some (if v.toNat % 4 = 3 then 0 else 1) ∧
      look t.dev.shadow (F.CAL_CFG_DTEMP.key c) = some (if v.toNat % 4 = 1 then 12 else if v.toNat % 4 = 2 then 4 else 8) ∧
      look t.dev.shadow (F.CAL_CFG2_PERIOD.key c) = some (if v.toNat % 4 = 2 then 10 else 0)) ∧
  -- CAL_PERIOD_EXPIRY.
  (∀ (s : State) (c : Fin 32),
    s.dev.live = true →
    s.dev.rd F.CAL_STAT_STATE c = 1 →
    s.dev.on F.CAL_CFG2_PERIOD c = true →
    s.dev.on F.CAL_CFG_AUTO c = true →
    s.dev.on F.TST_LBCTL_DEPTH c = false →
    s.dev.lift.reqs = [] →
    ∃ t, exec (.calPeriodExpiry c) s = .next t ∧ t.dev.rd F.CAL_STAT_STATE c = 2 ∧ (t.dev.chn c).cal.trig = 1 ∧ (t.dev.chn c).cal.step = 1) ∧
  -- CAL_GAP_TIMEOUT.
  (∀ (s : State) (c : Fin 32) (h : Ch),
    s.dev.live = true →
    s.dev.rd F.CAL_STAT_STATE c = 3 →
    s.dev.chn c = h →
    calCtx s.dev c = none →
    1 < h.cal.step →
    s.dev.lift.reqs = [] →
    exec (.calGapTimeout c) s = .next (s.withDev ({ s.dev with chs := ins s.dev.chs c { h with cal := { h.cal with step := 1, more := [] } } }))) ∧
  -- CAL_FORCE_TIMEOUT.
  (∀ (s : State) (c : Fin 32) (h : Ch),
    s.dev.live = true →
    s.dev.rd F.CAL_STAT_STATE c = 2 ∨ s.dev.rd F.CAL_STAT_STATE c = 3 →
    s.dev.chn c = h →
    h.cal.forced = false →
    exec (.calForceTimeout c) s = .next (s.withDev (({ s.dev with chs := ins s.dev.chs c { h with cal := { h.cal with forced := true } } } : Dev).wr F.CAL_CNT2_FORCED (satAdd 16 (s.dev.rd F.CAL_CNT2_FORCED c) 1) c))) ∧
  -- CAL_BACKOFF_END.
  (∀ (s : State) (c : Fin 32) (h : Ch),
    s.dev.live = true →
    s.dev.rd F.CAL_STAT_STATE c = 4 →
    s.dev.chn c = h →
    exec (.calBackoffEnd c) s = .next (s.withDev (({ s.dev with chs := ins s.dev.chs c { h with cal := { h.cal with step := 1 } } } : Dev).wr F.CAL_STAT_STATE 2 c))) ∧
  -- GLIDE_TIMER.
  (∀ (s : State) (c : Fin 32) (f : Fld) (g : Fld),
    s.dev.live = true →
    (s.dev.chn c).run = none →
    trimsDiffer s.dev c = true →
    phyAwake s.dev c = true →
    s.dev.on F.FS_STAT_ACTIVE = false →
    s.dev.fs.pfail = false →
    s.dev.on F.CAL_CFG_GLIDE c = true →
    (f, g, false) ∈ trims →
    ∃ t, exec (.glideTimer c) s = .next t ∧
      t.dev.rd f c = (if s.dev.rd f c < s.dev.rd g c then (s.dev.rd f c + 1) % 2 ^ f.w else if s.dev.rd g c < s.dev.rd f c then (s.dev.rd f c - 1) % 2 ^ f.w else s.dev.rd f c) ∧
      t.dev.rd g c = s.dev.rd g c ∧ t.dev.rd F.CAL_CNT2_GSTEPS c = (s.dev.rd F.CAL_CNT2_GSTEPS c + 1) % 2 ^ 16) ∧
  -- PHY_IDLE_SLEEP.
  (∀ (s : State) (c : Fin 32),
    s.dev.live = true →
    s.dev.on F.PM_CFG_PHYIDLE = true →
    phyAwake s.dev c = true →
    phyBusy s.dev c = false →
    s.dev.on F.FS_STAT_ACTIVE = false →
    ∃ t, exec (.phyIdleSleep c) s = .next t ∧ t.dev.rd F.PM_PHYSTAT_ON = clrBit (s.dev.rd F.PM_PHYSTAT_ON) c % 2 ^ 32 ∧ (t.dev.chn c).pads = padsOff ∧
      (s.dev.rd (F.TS_STATE.ix c) = 0 → t.dev.rd (F.TS_STATE.ix c) = 3)) ∧
  -- PHY_WAKE_DONE.
  (∀ (s : State) (c : Fin 32),
    s.dev.live = true →
    (s.dev.chn c).waking = true →
    s.dev.on F.FS_STAT_ACTIVE = false →
    s.dev.on F.CAL_CFG_AUTO c = false →
    ∃ t, exec (.phyWakeDone c) s = .next t ∧ t.dev.rd F.PM_PHYSTAT_ON = setBit (s.dev.rd F.PM_PHYSTAT_ON) c % 2 ^ 32 ∧ (t.dev.chn c).waking = false ∧
      (t.dev.chn c).pads = padsIdle (s.dev.on F.CH_PAD_KEEP c)) ∧
  -- FABRIC_READ_DATA.
  (∀ (s : State) (p : Fin 4) (tag : Fin 256) (b : List Byte) (r : Nat) (o : Outst),
    s.dev.live = true →
    look (s.dev.prt p).rd.out tag = some o →
    o.err = 0 →
    ∃ t, exec (.fabricReadData p tag b false { code := r }) s = .next t ∧
      look (t.dev.prt p).rd.out tag = some { o with got := (if r = 0 then o.got ++ fitTo 64 0 b else o.got), err := r } ∧
      (t.dev.prt p).wr = (s.dev.prt p).wr ∧ t.dev.regs = s.dev.regs) ∧
  -- FABRIC_WRITE_RESPONSE.
  (∀ (s : State) (p : Fin 4) (tag : Fin 256) (o : Outst) (l : Nat),
    s.dev.live = true →
    look (s.dev.prt p).wr.out tag = some o →
    o.req.what = .mapWrite l →
    ∃ t, exec (.fabricWriteResponse p tag { code := 0 }) s = .next t ∧ look (t.dev.prt p).wr.out tag = none ∧
      t.dev.answers = s.dev.answers ++ [{ what := .mapWrite l, code := 0, req := o.req }] ∧ (t.dev.prt p).rd = (s.dev.prt p).rd) ∧
  -- FABRIC_TIMEOUT.
  (∀ (s : State) (p : Fin 4) (tag : Fin 256) (o : Outst) (l : Nat),
    s.dev.live = true →
    look (s.dev.prt p).rd.out tag = some o →
    o.req.what = .mapRead l →
    ∃ t, exec (.fabricTimeout p false { tag := tag }) s = .next t ∧ look (t.dev.prt p).rd.out tag = none ∧
      (t.dev.prt p).rd.quar = (s.dev.prt p).rd.quar ++ [tag.val] ∧ t.dev.rd F.FP_QUAR_RDQ p = ((s.dev.prt p).rd.quar.length + 1) % 2 ^ 9) ∧
  -- FP_UNQUAR.
  (∀ (s : State) (a : Acc),
    s.dev.takes 0x2418 a = true →
    ∃ t, exec (.fpUnquar a) s = .next t ∧ (t.dev.prt (s.dev.named 0x2418 a)).rd.quar = [] ∧ (t.dev.prt (s.dev.named 0x2418 a)).wr.quar = [] ∧
      (t.dev.prt (s.dev.named 0x2418 a)).rd.out = (s.dev.prt (s.dev.named 0x2418 a)).rd.out) ∧
  -- FABRIC_REQUEST_GRANT.
  (∀ (s : State) (p : Fin 4) (w : Bool) (tag : Fin 256) (r : Req) (q : List Req),
    s.dev.live = true →
    p ≠ 0 ∨ w = false →
    look ((s.dev.prt p).dir w).out tag = none →
    tag.val ∉ ((s.dev.prt p).dir w).quar →
    ((s.dev.prt p).dir w).gCtrl ≠ 0 →
    ((s.dev.prt p).dir w).ctrl = r :: q →
    r.kind = .ctrl →
    0 < ((s.dev.prt p).dir w).free →
    overlaps s.dev w r = false →
    ∃ t, exec (.fabricRequestGrant p w tag) s = .next t ∧ ((t.dev.prt p).dir w).ctrl = q ∧ look ((t.dev.prt p).dir w).out tag = some { req := r } ∧
      ((t.dev.prt p).dir w).data = ((s.dev.prt p).dir w).data)

/-- No step takes back what a fuse holds. From every state, whatever a step answers as next: FUSELOCK stays blown, the
used index counts do not fall, and the repair entries burnt so far stay the first of the list. And in a state whose
used indices name keys that exist and whose repair entries fit their fuses, the step keeps it so. (R371, R416, R432,
R476) -/
def Obligations.FusesAreNeverTakenBack : Prop :=
  ∀ (s t : State), step s = .next t → s.fuse.keeps t.fuse ∧ (s.fuse.ok → t.fuse.ok)

/-- What reset leaves. At reset the block is in reset with no power-fail or fail-safe state, boot phase 0 and READY 0,
LG_TIME and RG_EPOCH 0, tenant 0 enabled and no other, no ticket, queue entry, request or Lift token, and no command
waits. That no command waits, that fuses are blank and the NOR empty is the model's choice (assumption 7). (R342,
R347, R397, R400, R445, R465) -/
def Obligations.ResetState : Prop :=
  State.reset.pending = [] ∧ State.reset.dev.inReset = true ∧ State.reset.dev.rd F.BOOT_STAT_PHASE = 0 ∧ State.reset.dev.rd F.BOOT_STAT_READY = 0 ∧
  State.reset.dev.on F.FS_STAT_ACTIVE = false ∧ State.reset.dev.fs.pfail = false ∧ State.reset.dev.time = 0 ∧ ringEpoch State.reset.dev = 0 ∧
  (∀ n : Nat, State.reset.dev.rd F.TN_CFG_EN n = if n = 0 then 1 else 0) ∧ State.reset.dev.cells = [] ∧ State.reset.dev.dq = [] ∧
  State.reset.dev.lift.toks = [] ∧ State.reset.fuse.ok ∧ Tbl.sorted State.reset.dev.regs = true ∧ State.reset.dev.nor.mem = []

/-- An offset without a register reads 0 and ignores writes. An access the port completes, at an offset that the index
does not list: a read gives 0, and a write changes nothing and counts nothing. Either way only the port's answer
changes. (R481) -/
def Obligations.UnlistedOffsets : Prop :=
  (∀ (s : State) (o : Nat) (v : Word) (a : Acc) (e : PortEnv), fieldsAt o = none → (portRoute o s.dev = .served ∨ portRoute o s.dev = .refused) →
    exec (.registerWrite o v a e) s = .next (s.withDev (s.dev.acked 0))) ∧
  (∀ (s : State) (o : Nat) (a : Acc) (m : Mem), fieldsAt o = none → (portRoute o s.dev = .served ∨ portRoute o s.dev = .refused) →
    exec (.registerRead o a m) s = .next (s.withDev (s.dev.acked 0)))

/-- The ring ID, and EN without one. RG_ID takes its value while the instance is outside the ring. With EN 0, the header
of a manifest, of a ledger export and a thermal record carry INST 0. With an ID of 0 or 0xFFFF a write of EN = 1 is
dropped as a write error, so EN stays as it was. (R440) Commands said to answer a next state: registerWrite,
rgCtlWrite. -/
def Obligations.RingIdentity : Prop :=
  -- RG_ID.
  (∀ (s : State) (v : Word) (a : Acc) (e : PortEnv),
    s.dev.takes 0xB004 a = true →
    s.dev.on F.RG_CTL_EN = false →
    exec (.registerWrite 0xB004 v a e) s = .next (s.withDev ((s.dev.wr F.RG_ID_ID (fld v.toNat 0 16)).acked 0))) ∧
  -- INST of the manifest.
  (∀ (s : State) (n : Nat),
    s.dev.on F.RG_CTL_EN = false →
    leAt (manifestHead s.dev n) 8 2 = 0) ∧
  -- INST of the ledger export.
  (∀ (s : State) (e : Export) (b : Bool),
    s.dev.on F.RG_CTL_EN = false →
    leAt (exportHead s.dev e b) 8 2 = 0) ∧
  -- INST of the thermal record.
  (∀ (s : State) (n : Nat) (v : Nat),
    s.dev.on F.RG_CTL_EN = false →
    leAt (logRecord s.dev n v) 24 2 = 0) ∧
  -- EN with no ID.
  (∀ (s : State) (v : Word) (a : Acc),
    s.dev.takes 0xB000 a = true →
    fld v.toNat 0 1 = 1 →
    s.dev.rd F.RG_ID_ID = 0 ∨ s.dev.rd F.RG_ID_ID = 0xFFFF →
    exec (.rgCtlWrite v a) s = .next (s.withDev ((s.dev.writeError 0xB000 a 0 3).acked 0))) ∧
  -- The same write as a plain register write.
  (∀ (s : State) (v : Word) (a : Acc) (e : PortEnv),
    s.dev.takes 0xB000 a = true →
    fld v.toNat 0 1 = 1 →
    s.dev.rd F.RG_ID_ID = 0 ∨ s.dev.rd F.RG_ID_ID = 0xFFFF →
    exec (.registerWrite 0xB000 v a e) s = .next (s.withDev ((s.dev.writeError 0xB000 a 0 3).acked 0)))

/-- A spore of a non-secure channel never reaches a secure consumer. At a delivery of an enabled router, SPR_SECDROP grows
by the number of spores of channels with NS = 1 in the stage whose consumer is secure in that cycle, saturating, and
SPR_FLAG.SECDROP is set when there is one. Such a spore alone in the stage is dropped: no DMA channel, interrupt, LUT
input or output pin sees it. (R333) Commands said to answer a next state: sporeDeliver. -/
def Obligations.SporeSecurity : Prop :=
  -- The count.
  (∀ (s : State),
    s.dev.live = true →
    s.dev.on F.SPR_CTL_EN = true →
    ∃ t, exec (.sporeDeliver) s = .next t ∧ t.dev.spr.stage = [] ∧
      t.dev.rd F.SPR_SECDROP_CNT = (if (s.dev.spr.stage.filter fun x => x.ns && !consumerNs s.dev x.dst).length = 0 then s.dev.rd F.SPR_SECDROP_CNT else satAdd 16 (s.dev.rd F.SPR_SECDROP_CNT) (s.dev.spr.stage.filter fun x => x.ns && !consumerNs s.dev x.dst).length) ∧
      t.dev.rd F.SPR_FLAG_SECDROP = (if (s.dev.spr.stage.filter fun x => x.ns && !consumerNs s.dev x.dst).length = 0 then s.dev.rd F.SPR_FLAG_SECDROP else 1) ∧
      t = s.withDev { s.dev with regs := t.dev.regs, dma := t.dev.dma, fab := t.dev.fab, freeCtr := t.dev.freeCtr, int := t.dev.int, pins := t.dev.pins, spr := t.dev.spr } ∧
      s.dev.onlyAt [(0x400C, 0x400C), (0x4804, 0x48FC), (0x5000, 0x5008), (0x5020, 0x5038), (0x5100, 0x51BC), (0x5200, 0x52BC), (0x5300, 0x533C), (0x6004, 0x6008), (0x6148, 0x68DC)] t.dev) ∧
  -- The drop.
  (∀ (s : State) (x : Spore),
    s.dev.live = true →
    s.dev.on F.SPR_CTL_EN = true →
    s.dev.spr.stage = [x] →
    x.ns = true →
    consumerNs s.dev x.dst = false →
    x.chan < 48 →
    x.dst < 96 →
    ∃ t, exec (.sporeDeliver) s = .next t ∧ t.dev.dma = s.dev.dma ∧ t.dev.int = s.dev.int ∧ t.dev.pins = s.dev.pins ∧
      (∀ k : Fin 16, t.dev.rd (F.SPR_LUT_STICKY.ix k) = s.dev.rd (F.SPR_LUT_STICKY.ix k)) ∧
      (∀ k : Fin 16, t.dev.rd (F.DMA_STAT_STATE.ix k) = s.dev.rd (F.DMA_STAT_STATE.ix k)) ∧ t.dev.rd F.SPR_COINC_CNT = s.dev.rd F.SPR_COINC_CNT ∧
      t = s.withDev { s.dev with regs := t.dev.regs, dma := t.dev.dma, fab := t.dev.fab, freeCtr := t.dev.freeCtr, int := t.dev.int, pins := t.dev.pins, spr := t.dev.spr } ∧
      s.dev.onlyAt [(0x400C, 0x400C), (0x4804, 0x48FC), (0x5000, 0x5008), (0x5020, 0x5038), (0x5100, 0x51BC), (0x5200, 0x52BC), (0x5300, 0x533C), (0x6004, 0x6008), (0x6148, 0x68DC)] t.dev)

/-- A target's best candidate. The best candidate of a target among the sources that no other target is presenting is
presentable, outside that list, and none of the 256 sources that is presentable and outside it has a higher PRI, or
the same PRI and a lower ID. When there is no candidate, none of the 256 sources outside the list is presentable.
(R316, R317) -/
def Obligations.BestInterruptCandidate : Prop :=
  -- A candidate.
  (∀ (s : State) (k : Fin 16) (skip : List Nat) (m : Nat) (r : Fin 256),
    bestFor s.dev k skip = some m →
    presentable s.dev k r = true →
    r.val ∉ skip →
    presentable s.dev k m = true ∧ m ∉ skip ∧ m < 256 ∧
      (s.dev.rd (F.INT_SRC_PRI.ix r) < s.dev.rd (F.INT_SRC_PRI.ix m) ∨ (s.dev.rd (F.INT_SRC_PRI.ix r) = s.dev.rd (F.INT_SRC_PRI.ix m) ∧ m ≤ r.val))) ∧
  -- No candidate.
  (∀ (s : State) (k : Fin 16) (skip : List Nat) (r : Fin 256),
    bestFor s.dev k skip = none →
    r.val ∉ skip →
    presentable s.dev k r = false)
end

