-- ==== Sys2Proof/Laws/Table.lean ====
section
/-!
SUPPORT. Laws of sparse tables: reading after writing, and the canonical form every table operation keeps.
-/

namespace Sys2Proof.Machine

@[simp] theorem look_nil {α : Type} (i : Nat) : look ([] : Tbl α) i = none := rfl

@[simp] theorem look_ins_self {α : Type} (t : Tbl α) (i : Nat) (x : α) : look (ins t i x) i = some x := by
  induction t with
  | nil => simp [ins, look]
  | cons p r ih =>
    obtain ⟨k, v⟩ := p
    unfold ins
    split
    · simp [look]
    · split
      · simp [look]
      · have : k ≠ i := by omega
        simp [look, this, ih]

theorem look_ins_ne {α : Type} (t : Tbl α) {i j : Nat} (x : α) (h : i ≠ j) : look (ins t i x) j = look t j := by
  induction t with
  | nil => simp [ins, look, h]
  | cons p r ih =>
    obtain ⟨k, v⟩ := p
    unfold ins
    split
    · simp [look, h]
    · split
      · next hk => subst hk; simp [look, h]
      · simp [look, ih]

theorem look_del_ne {α : Type} (t : Tbl α) {i j : Nat} (h : i ≠ j) : look (del t i) j = look t j := by
  induction t with
  | nil => rfl
  | cons p r ih =>
    obtain ⟨k, v⟩ := p
    unfold del
    split
    · next hk => subst hk; simp [look, h, ih]
    · simp [look, ih]

/-- Every key of a table is at least `n`. -/
def keysFrom {α : Type} (n : Nat) : Tbl α → Bool
  | [] => true
  | (k, _) :: r => n ≤ k && keysFrom (k + 1) r

theorem keysFrom_mono {α : Type} {t : Tbl α} {m n : Nat} (h : m ≤ n) (ht : keysFrom n t = true) : keysFrom m t = true := by
  cases t with
  | nil => rfl
  | cons p r =>
    obtain ⟨k, v⟩ := p
    simp only [keysFrom, Bool.and_eq_true, decide_eq_true_eq] at *
    exact ⟨by omega, ht.2⟩

theorem sorted_iff_keysFrom {α : Type} (t : Tbl α) : Tbl.sorted t = keysFrom 0 t := by
  have key : ∀ (r : Tbl α) (k : Nat) (v : α), Tbl.sorted ((k, v) :: r) = keysFrom (k + 1) r := by
    intro r
    induction r with
    | nil => intro k v; rfl
    | cons p r ih =>
      intro k v
      obtain ⟨b, y⟩ := p
      show (decide (k < b) && Tbl.sorted ((b, y) :: r)) = (decide (k + 1 ≤ b) && keysFrom (b + 1) r)
      rw [ih]; rfl
  cases t with
  | nil => rfl
  | cons p r => obtain ⟨k, v⟩ := p; simp [key, keysFrom]

theorem look_below {α : Type} {t : Tbl α} {n i : Nat} (h : keysFrom n t = true) (hi : i < n) : look t i = none := by
  induction t generalizing n with
  | nil => rfl
  | cons p r ih =>
    obtain ⟨k, v⟩ := p
    simp only [keysFrom, Bool.and_eq_true, decide_eq_true_eq] at h
    have : k ≠ i := by omega
    simp only [look, this, if_false]
    exact ih h.2 (by omega)

theorem keysFrom_ins {α : Type} {t : Tbl α} {n i : Nat} (x : α) (h : keysFrom n t = true) (hi : n ≤ i) :
    keysFrom n (ins t i x) = true := by
  induction t generalizing n with
  | nil => simp [ins, keysFrom, hi]
  | cons p r ih =>
    obtain ⟨k, v⟩ := p
    simp only [keysFrom, Bool.and_eq_true, decide_eq_true_eq] at h
    unfold ins
    split
    · simp only [keysFrom, Bool.and_eq_true, decide_eq_true_eq]; exact ⟨hi, by omega, h.2⟩
    · split
      · next hk => subst hk; simp only [keysFrom, Bool.and_eq_true, decide_eq_true_eq]; exact h
      · simp only [keysFrom, Bool.and_eq_true, decide_eq_true_eq]; exact ⟨h.1, ih h.2 (by omega)⟩

theorem keysFrom_del {α : Type} {t : Tbl α} {n : Nat} (i : Nat) (h : keysFrom n t = true) : keysFrom n (del t i) = true := by
  induction t generalizing n with
  | nil => rfl
  | cons p r ih =>
    obtain ⟨k, v⟩ := p
    simp only [keysFrom, Bool.and_eq_true, decide_eq_true_eq] at h
    unfold del
    split
    · exact ih (keysFrom_mono (by omega) h.2)
    · simp only [keysFrom, Bool.and_eq_true, decide_eq_true_eq]; exact ⟨h.1, ih h.2⟩

/-- The canonical form is kept by an insertion. -/
theorem sorted_ins {α : Type} {t : Tbl α} (i : Nat) (x : α) (h : Tbl.sorted t = true) : Tbl.sorted (ins t i x) = true := by
  rw [sorted_iff_keysFrom] at *; exact keysFrom_ins x h (Nat.zero_le i)

/-- The canonical form is kept by a removal. -/
theorem sorted_del {α : Type} {t : Tbl α} (i : Nat) (h : Tbl.sorted t = true) : Tbl.sorted (del t i) = true := by
  rw [sorted_iff_keysFrom] at *; exact keysFrom_del i h

/-- The canonical form is kept by a write of a defaulted table. -/
theorem sorted_putD {α : Type} [DecidableEq α] {t : Tbl α} (i : Nat) (x z : α) (h : Tbl.sorted t = true) :
    Tbl.sorted (putD t i x z) = true := by
  unfold putD; split
  · exact sorted_del i h
  · exact sorted_ins i x h

/-- A removed key is absent. -/
@[simp] theorem look_del_self {α : Type} (t : Tbl α) (i : Nat) : look (del t i) i = none := by
  induction t with
  | nil => rfl
  | cons p r ih =>
    obtain ⟨k, v⟩ := p
    unfold del
    split
    · exact ih
    · next hk => simp [look, hk, ih]

theorem look_putD_ne {α : Type} [DecidableEq α] (t : Tbl α) {i j : Nat} (x z : α) (h : i ≠ j) :
    look (putD t i x z) j = look t j := by
  unfold putD; split
  · exact look_del_ne t h
  · exact look_ins_ne t x h

/-- What a defaulted table reads after a write at the same key. -/
@[simp] theorem getD_putD_self {α : Type} [DecidableEq α] (t : Tbl α) (i : Nat) (x z : α) :
    (look (putD t i x z) i).getD z = x := by
  unfold putD; split
  · next hx => rw [look_del_self]; exact hx.symm
  · simp

end Sys2Proof.Machine
end

