-- ==== Sys2Proof/Laws/Ops.lean ====
section
/-!
SUPPORT. Laws of the register file and of the frame `sameBut`.
-/

namespace Sys2Proof.Machine

/-- A field reads the value just written, cut to its width. -/
@[simp] theorem Dev.rd_wr (d : Dev) (f : Fld) (v i : Nat) : (d.wr f v i).rd f i = v % 2 ^ f.w := by
  simp [Dev.rd, Dev.wr]

/-- A write of one field leaves every other as it was. -/
theorem Dev.rd_wr_ne (d : Dev) {f g : Fld} {i j : Nat} (v : Nat) (h : f.key i ≠ g.key j) :
    (d.wr f v i).rd g j = d.rd g j := by
  simp only [Dev.rd, Dev.wr]; rw [look_putD_ne _ _ _ h]

/-- A write of one field leaves every other key of the register file as it was. -/
theorem look_wr_ne (d : Dev) {f : Fld} {i k : Nat} (v : Nat) (h : f.key i ≠ k) :
    look (d.wr f v i).regs k = look d.regs k := by
  simp only [Dev.wr]; rw [look_putD_ne _ _ _ h]

theorem Dev.rd_regs (d e : Dev) (h : d.regs = e.regs) (f : Fld) (i : Nat) : d.rd f i = e.rd f i := by
  simp only [Dev.rd, h]

theorem Dev.sameBut_refl (ks : List Nat) (d : Dev) : d.sameBut ks d := ⟨rfl, fun _ _ => rfl⟩

/-- A write of a listed field stays within the frame. -/
theorem Dev.sameBut_wr {ks : List Nat} {d d' : Dev} (h : d.sameBut ks d') (f : Fld) (v i : Nat) (hk : f.key i ∈ ks) :
    d.sameBut ks (d'.wr f v i) := by
  refine ⟨h.1, fun k hn => ?_⟩
  rw [look_wr_ne, h.2 k hn]
  intro e; exact hn (e ▸ hk)

theorem Dev.sameBut_trans {ks : List Nat} {d e f : Dev} (h : d.sameBut ks e) (g : e.sameBut ks f) : d.sameBut ks f := by
  refine ⟨?_, fun k hn => by rw [g.2 k hn, h.2 k hn]⟩
  have h1 := h.1
  have g1 := g.1
  have : ({ ({ f with regs := e.regs } : Dev) with regs := d.regs } : Dev) = { e with regs := d.regs } := by rw [g1]
  exact this.trans h1

/-- A field outside the frame reads as before. -/
theorem Dev.sameBut_rd {ks : List Nat} {d d' : Dev} (h : d.sameBut ks d') (f : Fld) (i : Nat) (hk : f.key i ∉ ks) :
    d'.rd f i = d.rd f i := by
  simp only [Dev.rd]; rw [h.2 _ hk]

end Sys2Proof.Machine
end

