-- ==== Sys2Proof/Laws/State.lean ====
section
/-!
SUPPORT. What each named update of the block's state leaves in each of its fields, so that no proof unfolds a record
update. One section per update: the field it writes, then the others.
-/

namespace Sys2Proof.Machine

/-! ### `Dev.wr` writes `regs` -/

theorem Dev.wr_regs (d : Dev) (f : Fld) (v i : Nat) : (d.wr f v i).regs = putD d.regs (f.key i) (v % 2 ^ f.w) f.rst := rfl
@[simp] theorem Dev.wr_shadow (d : Dev) (f : Fld) (v i : Nat) : (d.wr f v i).shadow = d.shadow := rfl
@[simp] theorem Dev.wr_captured (d : Dev) (f : Fld) (v i : Nat) : (d.wr f v i).captured = d.captured := rfl
@[simp] theorem Dev.wr_port (d : Dev) (f : Fld) (v i : Nat) : (d.wr f v i).port = d.port := rfl
@[simp] theorem Dev.wr_pins (d : Dev) (f : Fld) (v i : Nat) : (d.wr f v i).pins = d.pins := rfl
@[simp] theorem Dev.wr_int (d : Dev) (f : Fld) (v i : Nat) : (d.wr f v i).int = d.int := rfl
@[simp] theorem Dev.wr_spr (d : Dev) (f : Fld) (v i : Nat) : (d.wr f v i).spr = d.spr := rfl
@[simp] theorem Dev.wr_led (d : Dev) (f : Fld) (v i : Nat) : (d.wr f v i).led = d.led := rfl
@[simp] theorem Dev.wr_fab (d : Dev) (f : Fld) (v i : Nat) : (d.wr f v i).fab = d.fab := rfl
@[simp] theorem Dev.wr_answers (d : Dev) (f : Fld) (v i : Nat) : (d.wr f v i).answers = d.answers := rfl
@[simp] theorem Dev.wr_adm (d : Dev) (f : Fld) (v i : Nat) : (d.wr f v i).adm = d.adm := rfl
@[simp] theorem Dev.wr_cq (d : Dev) (f : Fld) (v i : Nat) : (d.wr f v i).cq = d.cq := rfl
@[simp] theorem Dev.wr_tq (d : Dev) (f : Fld) (v i : Nat) : (d.wr f v i).tq = d.tq := rfl
@[simp] theorem Dev.wr_cells (d : Dev) (f : Fld) (v i : Nat) : (d.wr f v i).cells = d.cells := rfl
@[simp] theorem Dev.wr_dq (d : Dev) (f : Fld) (v i : Nat) : (d.wr f v i).dq = d.dq := rfl
@[simp] theorem Dev.wr_pfm (d : Dev) (f : Fld) (v i : Nat) : (d.wr f v i).pfm = d.pfm := rfl
@[simp] theorem Dev.wr_lift (d : Dev) (f : Fld) (v i : Nat) : (d.wr f v i).lift = d.lift := rfl
@[simp] theorem Dev.wr_chs (d : Dev) (f : Fld) (v i : Nat) : (d.wr f v i).chs = d.chs := rfl
@[simp] theorem Dev.wr_cls (d : Dev) (f : Fld) (v i : Nat) : (d.wr f v i).cls = d.cls := rfl
@[simp] theorem Dev.wr_sdp (d : Dev) (f : Fld) (v i : Nat) : (d.wr f v i).sdp = d.sdp := rfl
@[simp] theorem Dev.wr_dies (d : Dev) (f : Fld) (v i : Nat) : (d.wr f v i).dies = d.dies := rfl
@[simp] theorem Dev.wr_dma (d : Dev) (f : Fld) (v i : Nat) : (d.wr f v i).dma = d.dma := rfl
@[simp] theorem Dev.wr_pm (d : Dev) (f : Fld) (v i : Nat) : (d.wr f v i).pm = d.pm := rfl
@[simp] theorem Dev.wr_tst (d : Dev) (f : Fld) (v i : Nat) : (d.wr f v i).tst = d.tst := rfl
@[simp] theorem Dev.wr_fuses (d : Dev) (f : Fld) (v i : Nat) : (d.wr f v i).fuses = d.fuses := rfl
@[simp] theorem Dev.wr_acc (d : Dev) (f : Fld) (v i : Nat) : (d.wr f v i).acc = d.acc := rfl
@[simp] theorem Dev.wr_lm (d : Dev) (f : Fld) (v i : Nat) : (d.wr f v i).lm = d.lm := rfl
@[simp] theorem Dev.wr_mp (d : Dev) (f : Fld) (v i : Nat) : (d.wr f v i).mp = d.mp := rfl
@[simp] theorem Dev.wr_th (d : Dev) (f : Fld) (v i : Nat) : (d.wr f v i).th = d.th := rfl
@[simp] theorem Dev.wr_nor (d : Dev) (f : Fld) (v i : Nat) : (d.wr f v i).nor = d.nor := rfl
@[simp] theorem Dev.wr_upd (d : Dev) (f : Fld) (v i : Nat) : (d.wr f v i).upd = d.upd := rfl
@[simp] theorem Dev.wr_ring (d : Dev) (f : Fld) (v i : Nat) : (d.wr f v i).ring = d.ring := rfl
@[simp] theorem Dev.wr_fs (d : Dev) (f : Fld) (v i : Nat) : (d.wr f v i).fs = d.fs := rfl
@[simp] theorem Dev.wr_dmaLast (d : Dev) (f : Fld) (v i : Nat) : (d.wr f v i).dmaLast = d.dmaLast := rfl
@[simp] theorem Dev.wr_dmaLastHi (d : Dev) (f : Fld) (v i : Nat) : (d.wr f v i).dmaLastHi = d.dmaLastHi := rfl
@[simp] theorem Dev.wr_xch (d : Dev) (f : Fld) (v i : Nat) : (d.wr f v i).xch = d.xch := rfl
@[simp] theorem Dev.wr_cold (d : Dev) (f : Fld) (v i : Nat) : (d.wr f v i).cold = d.cold := rfl
@[simp] theorem Dev.wr_bootCh (d : Dev) (f : Fld) (v i : Nat) : (d.wr f v i).bootCh = d.bootCh := rfl
@[simp] theorem Dev.wr_freeCtr (d : Dev) (f : Fld) (v i : Nat) : (d.wr f v i).freeCtr = d.freeCtr := rfl

/-! ### `Dev.setPort` writes `fab` -/

@[simp] theorem Dev.setPort_fab (d : Dev) (p : Nat) (x : Port) : (d.setPort p x).fab = ins d.fab p x := rfl
@[simp] theorem Dev.setPort_regs (d : Dev) (p : Nat) (x : Port) : (d.setPort p x).regs = d.regs := rfl
@[simp] theorem Dev.setPort_shadow (d : Dev) (p : Nat) (x : Port) : (d.setPort p x).shadow = d.shadow := rfl
@[simp] theorem Dev.setPort_captured (d : Dev) (p : Nat) (x : Port) : (d.setPort p x).captured = d.captured := rfl
@[simp] theorem Dev.setPort_port (d : Dev) (p : Nat) (x : Port) : (d.setPort p x).port = d.port := rfl
@[simp] theorem Dev.setPort_pins (d : Dev) (p : Nat) (x : Port) : (d.setPort p x).pins = d.pins := rfl
@[simp] theorem Dev.setPort_int (d : Dev) (p : Nat) (x : Port) : (d.setPort p x).int = d.int := rfl
@[simp] theorem Dev.setPort_spr (d : Dev) (p : Nat) (x : Port) : (d.setPort p x).spr = d.spr := rfl
@[simp] theorem Dev.setPort_led (d : Dev) (p : Nat) (x : Port) : (d.setPort p x).led = d.led := rfl
@[simp] theorem Dev.setPort_answers (d : Dev) (p : Nat) (x : Port) : (d.setPort p x).answers = d.answers := rfl
@[simp] theorem Dev.setPort_adm (d : Dev) (p : Nat) (x : Port) : (d.setPort p x).adm = d.adm := rfl
@[simp] theorem Dev.setPort_cq (d : Dev) (p : Nat) (x : Port) : (d.setPort p x).cq = d.cq := rfl
@[simp] theorem Dev.setPort_tq (d : Dev) (p : Nat) (x : Port) : (d.setPort p x).tq = d.tq := rfl
@[simp] theorem Dev.setPort_cells (d : Dev) (p : Nat) (x : Port) : (d.setPort p x).cells = d.cells := rfl
@[simp] theorem Dev.setPort_dq (d : Dev) (p : Nat) (x : Port) : (d.setPort p x).dq = d.dq := rfl
@[simp] theorem Dev.setPort_pfm (d : Dev) (p : Nat) (x : Port) : (d.setPort p x).pfm = d.pfm := rfl
@[simp] theorem Dev.setPort_lift (d : Dev) (p : Nat) (x : Port) : (d.setPort p x).lift = d.lift := rfl
@[simp] theorem Dev.setPort_chs (d : Dev) (p : Nat) (x : Port) : (d.setPort p x).chs = d.chs := rfl
@[simp] theorem Dev.setPort_cls (d : Dev) (p : Nat) (x : Port) : (d.setPort p x).cls = d.cls := rfl
@[simp] theorem Dev.setPort_sdp (d : Dev) (p : Nat) (x : Port) : (d.setPort p x).sdp = d.sdp := rfl
@[simp] theorem Dev.setPort_dies (d : Dev) (p : Nat) (x : Port) : (d.setPort p x).dies = d.dies := rfl
@[simp] theorem Dev.setPort_dma (d : Dev) (p : Nat) (x : Port) : (d.setPort p x).dma = d.dma := rfl
@[simp] theorem Dev.setPort_pm (d : Dev) (p : Nat) (x : Port) : (d.setPort p x).pm = d.pm := rfl
@[simp] theorem Dev.setPort_tst (d : Dev) (p : Nat) (x : Port) : (d.setPort p x).tst = d.tst := rfl
@[simp] theorem Dev.setPort_fuses (d : Dev) (p : Nat) (x : Port) : (d.setPort p x).fuses = d.fuses := rfl
@[simp] theorem Dev.setPort_acc (d : Dev) (p : Nat) (x : Port) : (d.setPort p x).acc = d.acc := rfl
@[simp] theorem Dev.setPort_lm (d : Dev) (p : Nat) (x : Port) : (d.setPort p x).lm = d.lm := rfl
@[simp] theorem Dev.setPort_mp (d : Dev) (p : Nat) (x : Port) : (d.setPort p x).mp = d.mp := rfl
@[simp] theorem Dev.setPort_th (d : Dev) (p : Nat) (x : Port) : (d.setPort p x).th = d.th := rfl
@[simp] theorem Dev.setPort_nor (d : Dev) (p : Nat) (x : Port) : (d.setPort p x).nor = d.nor := rfl
@[simp] theorem Dev.setPort_upd (d : Dev) (p : Nat) (x : Port) : (d.setPort p x).upd = d.upd := rfl
@[simp] theorem Dev.setPort_ring (d : Dev) (p : Nat) (x : Port) : (d.setPort p x).ring = d.ring := rfl
@[simp] theorem Dev.setPort_fs (d : Dev) (p : Nat) (x : Port) : (d.setPort p x).fs = d.fs := rfl
@[simp] theorem Dev.setPort_dmaLast (d : Dev) (p : Nat) (x : Port) : (d.setPort p x).dmaLast = d.dmaLast := rfl
@[simp] theorem Dev.setPort_dmaLastHi (d : Dev) (p : Nat) (x : Port) : (d.setPort p x).dmaLastHi = d.dmaLastHi := rfl
@[simp] theorem Dev.setPort_xch (d : Dev) (p : Nat) (x : Port) : (d.setPort p x).xch = d.xch := rfl
@[simp] theorem Dev.setPort_cold (d : Dev) (p : Nat) (x : Port) : (d.setPort p x).cold = d.cold := rfl
@[simp] theorem Dev.setPort_bootCh (d : Dev) (p : Nat) (x : Port) : (d.setPort p x).bootCh = d.bootCh := rfl
@[simp] theorem Dev.setPort_freeCtr (d : Dev) (p : Nat) (x : Port) : (d.setPort p x).freeCtr = d.freeCtr := rfl

/-! ### `Dev.setCq` writes `cq` -/

@[simp] theorem Dev.setCq_cq (d : Dev) (j : Nat) (x : CqSt) : (d.setCq j x).cq = ins d.cq j x := rfl
@[simp] theorem Dev.setCq_regs (d : Dev) (j : Nat) (x : CqSt) : (d.setCq j x).regs = d.regs := rfl
@[simp] theorem Dev.setCq_shadow (d : Dev) (j : Nat) (x : CqSt) : (d.setCq j x).shadow = d.shadow := rfl
@[simp] theorem Dev.setCq_captured (d : Dev) (j : Nat) (x : CqSt) : (d.setCq j x).captured = d.captured := rfl
@[simp] theorem Dev.setCq_port (d : Dev) (j : Nat) (x : CqSt) : (d.setCq j x).port = d.port := rfl
@[simp] theorem Dev.setCq_pins (d : Dev) (j : Nat) (x : CqSt) : (d.setCq j x).pins = d.pins := rfl
@[simp] theorem Dev.setCq_int (d : Dev) (j : Nat) (x : CqSt) : (d.setCq j x).int = d.int := rfl
@[simp] theorem Dev.setCq_spr (d : Dev) (j : Nat) (x : CqSt) : (d.setCq j x).spr = d.spr := rfl
@[simp] theorem Dev.setCq_led (d : Dev) (j : Nat) (x : CqSt) : (d.setCq j x).led = d.led := rfl
@[simp] theorem Dev.setCq_fab (d : Dev) (j : Nat) (x : CqSt) : (d.setCq j x).fab = d.fab := rfl
@[simp] theorem Dev.setCq_answers (d : Dev) (j : Nat) (x : CqSt) : (d.setCq j x).answers = d.answers := rfl
@[simp] theorem Dev.setCq_adm (d : Dev) (j : Nat) (x : CqSt) : (d.setCq j x).adm = d.adm := rfl
@[simp] theorem Dev.setCq_tq (d : Dev) (j : Nat) (x : CqSt) : (d.setCq j x).tq = d.tq := rfl
@[simp] theorem Dev.setCq_cells (d : Dev) (j : Nat) (x : CqSt) : (d.setCq j x).cells = d.cells := rfl
@[simp] theorem Dev.setCq_dq (d : Dev) (j : Nat) (x : CqSt) : (d.setCq j x).dq = d.dq := rfl
@[simp] theorem Dev.setCq_pfm (d : Dev) (j : Nat) (x : CqSt) : (d.setCq j x).pfm = d.pfm := rfl
@[simp] theorem Dev.setCq_lift (d : Dev) (j : Nat) (x : CqSt) : (d.setCq j x).lift = d.lift := rfl
@[simp] theorem Dev.setCq_chs (d : Dev) (j : Nat) (x : CqSt) : (d.setCq j x).chs = d.chs := rfl
@[simp] theorem Dev.setCq_cls (d : Dev) (j : Nat) (x : CqSt) : (d.setCq j x).cls = d.cls := rfl
@[simp] theorem Dev.setCq_sdp (d : Dev) (j : Nat) (x : CqSt) : (d.setCq j x).sdp = d.sdp := rfl
@[simp] theorem Dev.setCq_dies (d : Dev) (j : Nat) (x : CqSt) : (d.setCq j x).dies = d.dies := rfl
@[simp] theorem Dev.setCq_dma (d : Dev) (j : Nat) (x : CqSt) : (d.setCq j x).dma = d.dma := rfl
@[simp] theorem Dev.setCq_pm (d : Dev) (j : Nat) (x : CqSt) : (d.setCq j x).pm = d.pm := rfl
@[simp] theorem Dev.setCq_tst (d : Dev) (j : Nat) (x : CqSt) : (d.setCq j x).tst = d.tst := rfl
@[simp] theorem Dev.setCq_fuses (d : Dev) (j : Nat) (x : CqSt) : (d.setCq j x).fuses = d.fuses := rfl
@[simp] theorem Dev.setCq_acc (d : Dev) (j : Nat) (x : CqSt) : (d.setCq j x).acc = d.acc := rfl
@[simp] theorem Dev.setCq_lm (d : Dev) (j : Nat) (x : CqSt) : (d.setCq j x).lm = d.lm := rfl
@[simp] theorem Dev.setCq_mp (d : Dev) (j : Nat) (x : CqSt) : (d.setCq j x).mp = d.mp := rfl
@[simp] theorem Dev.setCq_th (d : Dev) (j : Nat) (x : CqSt) : (d.setCq j x).th = d.th := rfl
@[simp] theorem Dev.setCq_nor (d : Dev) (j : Nat) (x : CqSt) : (d.setCq j x).nor = d.nor := rfl
@[simp] theorem Dev.setCq_upd (d : Dev) (j : Nat) (x : CqSt) : (d.setCq j x).upd = d.upd := rfl
@[simp] theorem Dev.setCq_ring (d : Dev) (j : Nat) (x : CqSt) : (d.setCq j x).ring = d.ring := rfl
@[simp] theorem Dev.setCq_fs (d : Dev) (j : Nat) (x : CqSt) : (d.setCq j x).fs = d.fs := rfl
@[simp] theorem Dev.setCq_dmaLast (d : Dev) (j : Nat) (x : CqSt) : (d.setCq j x).dmaLast = d.dmaLast := rfl
@[simp] theorem Dev.setCq_dmaLastHi (d : Dev) (j : Nat) (x : CqSt) : (d.setCq j x).dmaLastHi = d.dmaLastHi := rfl
@[simp] theorem Dev.setCq_xch (d : Dev) (j : Nat) (x : CqSt) : (d.setCq j x).xch = d.xch := rfl
@[simp] theorem Dev.setCq_cold (d : Dev) (j : Nat) (x : CqSt) : (d.setCq j x).cold = d.cold := rfl
@[simp] theorem Dev.setCq_bootCh (d : Dev) (j : Nat) (x : CqSt) : (d.setCq j x).bootCh = d.bootCh := rfl
@[simp] theorem Dev.setCq_freeCtr (d : Dev) (j : Nat) (x : CqSt) : (d.setCq j x).freeCtr = d.freeCtr := rfl

/-! ### `Dev.setSq` writes `adm` -/

@[simp] theorem Dev.setSq_adm (d : Dev) (k : Nat) (x : SqSt) : (d.setSq k x).adm = { d.adm with sq := ins d.adm.sq k x } := rfl
@[simp] theorem Dev.setSq_regs (d : Dev) (k : Nat) (x : SqSt) : (d.setSq k x).regs = d.regs := rfl
@[simp] theorem Dev.setSq_shadow (d : Dev) (k : Nat) (x : SqSt) : (d.setSq k x).shadow = d.shadow := rfl
@[simp] theorem Dev.setSq_captured (d : Dev) (k : Nat) (x : SqSt) : (d.setSq k x).captured = d.captured := rfl
@[simp] theorem Dev.setSq_port (d : Dev) (k : Nat) (x : SqSt) : (d.setSq k x).port = d.port := rfl
@[simp] theorem Dev.setSq_pins (d : Dev) (k : Nat) (x : SqSt) : (d.setSq k x).pins = d.pins := rfl
@[simp] theorem Dev.setSq_int (d : Dev) (k : Nat) (x : SqSt) : (d.setSq k x).int = d.int := rfl
@[simp] theorem Dev.setSq_spr (d : Dev) (k : Nat) (x : SqSt) : (d.setSq k x).spr = d.spr := rfl
@[simp] theorem Dev.setSq_led (d : Dev) (k : Nat) (x : SqSt) : (d.setSq k x).led = d.led := rfl
@[simp] theorem Dev.setSq_fab (d : Dev) (k : Nat) (x : SqSt) : (d.setSq k x).fab = d.fab := rfl
@[simp] theorem Dev.setSq_answers (d : Dev) (k : Nat) (x : SqSt) : (d.setSq k x).answers = d.answers := rfl
@[simp] theorem Dev.setSq_cq (d : Dev) (k : Nat) (x : SqSt) : (d.setSq k x).cq = d.cq := rfl
@[simp] theorem Dev.setSq_tq (d : Dev) (k : Nat) (x : SqSt) : (d.setSq k x).tq = d.tq := rfl
@[simp] theorem Dev.setSq_cells (d : Dev) (k : Nat) (x : SqSt) : (d.setSq k x).cells = d.cells := rfl
@[simp] theorem Dev.setSq_dq (d : Dev) (k : Nat) (x : SqSt) : (d.setSq k x).dq = d.dq := rfl
@[simp] theorem Dev.setSq_pfm (d : Dev) (k : Nat) (x : SqSt) : (d.setSq k x).pfm = d.pfm := rfl
@[simp] theorem Dev.setSq_lift (d : Dev) (k : Nat) (x : SqSt) : (d.setSq k x).lift = d.lift := rfl
@[simp] theorem Dev.setSq_chs (d : Dev) (k : Nat) (x : SqSt) : (d.setSq k x).chs = d.chs := rfl
@[simp] theorem Dev.setSq_cls (d : Dev) (k : Nat) (x : SqSt) : (d.setSq k x).cls = d.cls := rfl
@[simp] theorem Dev.setSq_sdp (d : Dev) (k : Nat) (x : SqSt) : (d.setSq k x).sdp = d.sdp := rfl
@[simp] theorem Dev.setSq_dies (d : Dev) (k : Nat) (x : SqSt) : (d.setSq k x).dies = d.dies := rfl
@[simp] theorem Dev.setSq_dma (d : Dev) (k : Nat) (x : SqSt) : (d.setSq k x).dma = d.dma := rfl
@[simp] theorem Dev.setSq_pm (d : Dev) (k : Nat) (x : SqSt) : (d.setSq k x).pm = d.pm := rfl
@[simp] theorem Dev.setSq_tst (d : Dev) (k : Nat) (x : SqSt) : (d.setSq k x).tst = d.tst := rfl
@[simp] theorem Dev.setSq_fuses (d : Dev) (k : Nat) (x : SqSt) : (d.setSq k x).fuses = d.fuses := rfl
@[simp] theorem Dev.setSq_acc (d : Dev) (k : Nat) (x : SqSt) : (d.setSq k x).acc = d.acc := rfl
@[simp] theorem Dev.setSq_lm (d : Dev) (k : Nat) (x : SqSt) : (d.setSq k x).lm = d.lm := rfl
@[simp] theorem Dev.setSq_mp (d : Dev) (k : Nat) (x : SqSt) : (d.setSq k x).mp = d.mp := rfl
@[simp] theorem Dev.setSq_th (d : Dev) (k : Nat) (x : SqSt) : (d.setSq k x).th = d.th := rfl
@[simp] theorem Dev.setSq_nor (d : Dev) (k : Nat) (x : SqSt) : (d.setSq k x).nor = d.nor := rfl
@[simp] theorem Dev.setSq_upd (d : Dev) (k : Nat) (x : SqSt) : (d.setSq k x).upd = d.upd := rfl
@[simp] theorem Dev.setSq_ring (d : Dev) (k : Nat) (x : SqSt) : (d.setSq k x).ring = d.ring := rfl
@[simp] theorem Dev.setSq_fs (d : Dev) (k : Nat) (x : SqSt) : (d.setSq k x).fs = d.fs := rfl
@[simp] theorem Dev.setSq_dmaLast (d : Dev) (k : Nat) (x : SqSt) : (d.setSq k x).dmaLast = d.dmaLast := rfl
@[simp] theorem Dev.setSq_dmaLastHi (d : Dev) (k : Nat) (x : SqSt) : (d.setSq k x).dmaLastHi = d.dmaLastHi := rfl
@[simp] theorem Dev.setSq_xch (d : Dev) (k : Nat) (x : SqSt) : (d.setSq k x).xch = d.xch := rfl
@[simp] theorem Dev.setSq_cold (d : Dev) (k : Nat) (x : SqSt) : (d.setSq k x).cold = d.cold := rfl
@[simp] theorem Dev.setSq_bootCh (d : Dev) (k : Nat) (x : SqSt) : (d.setSq k x).bootCh = d.bootCh := rfl
@[simp] theorem Dev.setSq_freeCtr (d : Dev) (k : Nat) (x : SqSt) : (d.setSq k x).freeCtr = d.freeCtr := rfl

/-! ### `Dev.setCell` writes `cells` -/

@[simp] theorem Dev.setCell_cells (d : Dev) (c : Nat) (x : Cell) : (d.setCell c x).cells = ins d.cells c x := rfl
@[simp] theorem Dev.setCell_regs (d : Dev) (c : Nat) (x : Cell) : (d.setCell c x).regs = d.regs := rfl
@[simp] theorem Dev.setCell_shadow (d : Dev) (c : Nat) (x : Cell) : (d.setCell c x).shadow = d.shadow := rfl
@[simp] theorem Dev.setCell_captured (d : Dev) (c : Nat) (x : Cell) : (d.setCell c x).captured = d.captured := rfl
@[simp] theorem Dev.setCell_port (d : Dev) (c : Nat) (x : Cell) : (d.setCell c x).port = d.port := rfl
@[simp] theorem Dev.setCell_pins (d : Dev) (c : Nat) (x : Cell) : (d.setCell c x).pins = d.pins := rfl
@[simp] theorem Dev.setCell_int (d : Dev) (c : Nat) (x : Cell) : (d.setCell c x).int = d.int := rfl
@[simp] theorem Dev.setCell_spr (d : Dev) (c : Nat) (x : Cell) : (d.setCell c x).spr = d.spr := rfl
@[simp] theorem Dev.setCell_led (d : Dev) (c : Nat) (x : Cell) : (d.setCell c x).led = d.led := rfl
@[simp] theorem Dev.setCell_fab (d : Dev) (c : Nat) (x : Cell) : (d.setCell c x).fab = d.fab := rfl
@[simp] theorem Dev.setCell_answers (d : Dev) (c : Nat) (x : Cell) : (d.setCell c x).answers = d.answers := rfl
@[simp] theorem Dev.setCell_adm (d : Dev) (c : Nat) (x : Cell) : (d.setCell c x).adm = d.adm := rfl
@[simp] theorem Dev.setCell_cq (d : Dev) (c : Nat) (x : Cell) : (d.setCell c x).cq = d.cq := rfl
@[simp] theorem Dev.setCell_tq (d : Dev) (c : Nat) (x : Cell) : (d.setCell c x).tq = d.tq := rfl
@[simp] theorem Dev.setCell_dq (d : Dev) (c : Nat) (x : Cell) : (d.setCell c x).dq = d.dq := rfl
@[simp] theorem Dev.setCell_pfm (d : Dev) (c : Nat) (x : Cell) : (d.setCell c x).pfm = d.pfm := rfl
@[simp] theorem Dev.setCell_lift (d : Dev) (c : Nat) (x : Cell) : (d.setCell c x).lift = d.lift := rfl
@[simp] theorem Dev.setCell_chs (d : Dev) (c : Nat) (x : Cell) : (d.setCell c x).chs = d.chs := rfl
@[simp] theorem Dev.setCell_cls (d : Dev) (c : Nat) (x : Cell) : (d.setCell c x).cls = d.cls := rfl
@[simp] theorem Dev.setCell_sdp (d : Dev) (c : Nat) (x : Cell) : (d.setCell c x).sdp = d.sdp := rfl
@[simp] theorem Dev.setCell_dies (d : Dev) (c : Nat) (x : Cell) : (d.setCell c x).dies = d.dies := rfl
@[simp] theorem Dev.setCell_dma (d : Dev) (c : Nat) (x : Cell) : (d.setCell c x).dma = d.dma := rfl
@[simp] theorem Dev.setCell_pm (d : Dev) (c : Nat) (x : Cell) : (d.setCell c x).pm = d.pm := rfl
@[simp] theorem Dev.setCell_tst (d : Dev) (c : Nat) (x : Cell) : (d.setCell c x).tst = d.tst := rfl
@[simp] theorem Dev.setCell_fuses (d : Dev) (c : Nat) (x : Cell) : (d.setCell c x).fuses = d.fuses := rfl
@[simp] theorem Dev.setCell_acc (d : Dev) (c : Nat) (x : Cell) : (d.setCell c x).acc = d.acc := rfl
@[simp] theorem Dev.setCell_lm (d : Dev) (c : Nat) (x : Cell) : (d.setCell c x).lm = d.lm := rfl
@[simp] theorem Dev.setCell_mp (d : Dev) (c : Nat) (x : Cell) : (d.setCell c x).mp = d.mp := rfl
@[simp] theorem Dev.setCell_th (d : Dev) (c : Nat) (x : Cell) : (d.setCell c x).th = d.th := rfl
@[simp] theorem Dev.setCell_nor (d : Dev) (c : Nat) (x : Cell) : (d.setCell c x).nor = d.nor := rfl
@[simp] theorem Dev.setCell_upd (d : Dev) (c : Nat) (x : Cell) : (d.setCell c x).upd = d.upd := rfl
@[simp] theorem Dev.setCell_ring (d : Dev) (c : Nat) (x : Cell) : (d.setCell c x).ring = d.ring := rfl
@[simp] theorem Dev.setCell_fs (d : Dev) (c : Nat) (x : Cell) : (d.setCell c x).fs = d.fs := rfl
@[simp] theorem Dev.setCell_dmaLast (d : Dev) (c : Nat) (x : Cell) : (d.setCell c x).dmaLast = d.dmaLast := rfl
@[simp] theorem Dev.setCell_dmaLastHi (d : Dev) (c : Nat) (x : Cell) : (d.setCell c x).dmaLastHi = d.dmaLastHi := rfl
@[simp] theorem Dev.setCell_xch (d : Dev) (c : Nat) (x : Cell) : (d.setCell c x).xch = d.xch := rfl
@[simp] theorem Dev.setCell_cold (d : Dev) (c : Nat) (x : Cell) : (d.setCell c x).cold = d.cold := rfl
@[simp] theorem Dev.setCell_bootCh (d : Dev) (c : Nat) (x : Cell) : (d.setCell c x).bootCh = d.bootCh := rfl
@[simp] theorem Dev.setCell_freeCtr (d : Dev) (c : Nat) (x : Cell) : (d.setCell c x).freeCtr = d.freeCtr := rfl

/-! ### `Dev.setCh` writes `chs` -/

@[simp] theorem Dev.setCh_chs (d : Dev) (c : Nat) (x : Ch) : (d.setCh c x).chs = ins d.chs c x := rfl
@[simp] theorem Dev.setCh_regs (d : Dev) (c : Nat) (x : Ch) : (d.setCh c x).regs = d.regs := rfl
@[simp] theorem Dev.setCh_shadow (d : Dev) (c : Nat) (x : Ch) : (d.setCh c x).shadow = d.shadow := rfl
@[simp] theorem Dev.setCh_captured (d : Dev) (c : Nat) (x : Ch) : (d.setCh c x).captured = d.captured := rfl
@[simp] theorem Dev.setCh_port (d : Dev) (c : Nat) (x : Ch) : (d.setCh c x).port = d.port := rfl
@[simp] theorem Dev.setCh_pins (d : Dev) (c : Nat) (x : Ch) : (d.setCh c x).pins = d.pins := rfl
@[simp] theorem Dev.setCh_int (d : Dev) (c : Nat) (x : Ch) : (d.setCh c x).int = d.int := rfl
@[simp] theorem Dev.setCh_spr (d : Dev) (c : Nat) (x : Ch) : (d.setCh c x).spr = d.spr := rfl
@[simp] theorem Dev.setCh_led (d : Dev) (c : Nat) (x : Ch) : (d.setCh c x).led = d.led := rfl
@[simp] theorem Dev.setCh_fab (d : Dev) (c : Nat) (x : Ch) : (d.setCh c x).fab = d.fab := rfl
@[simp] theorem Dev.setCh_answers (d : Dev) (c : Nat) (x : Ch) : (d.setCh c x).answers = d.answers := rfl
@[simp] theorem Dev.setCh_adm (d : Dev) (c : Nat) (x : Ch) : (d.setCh c x).adm = d.adm := rfl
@[simp] theorem Dev.setCh_cq (d : Dev) (c : Nat) (x : Ch) : (d.setCh c x).cq = d.cq := rfl
@[simp] theorem Dev.setCh_tq (d : Dev) (c : Nat) (x : Ch) : (d.setCh c x).tq = d.tq := rfl
@[simp] theorem Dev.setCh_cells (d : Dev) (c : Nat) (x : Ch) : (d.setCh c x).cells = d.cells := rfl
@[simp] theorem Dev.setCh_dq (d : Dev) (c : Nat) (x : Ch) : (d.setCh c x).dq = d.dq := rfl
@[simp] theorem Dev.setCh_pfm (d : Dev) (c : Nat) (x : Ch) : (d.setCh c x).pfm = d.pfm := rfl
@[simp] theorem Dev.setCh_lift (d : Dev) (c : Nat) (x : Ch) : (d.setCh c x).lift = d.lift := rfl
@[simp] theorem Dev.setCh_cls (d : Dev) (c : Nat) (x : Ch) : (d.setCh c x).cls = d.cls := rfl
@[simp] theorem Dev.setCh_sdp (d : Dev) (c : Nat) (x : Ch) : (d.setCh c x).sdp = d.sdp := rfl
@[simp] theorem Dev.setCh_dies (d : Dev) (c : Nat) (x : Ch) : (d.setCh c x).dies = d.dies := rfl
@[simp] theorem Dev.setCh_dma (d : Dev) (c : Nat) (x : Ch) : (d.setCh c x).dma = d.dma := rfl
@[simp] theorem Dev.setCh_pm (d : Dev) (c : Nat) (x : Ch) : (d.setCh c x).pm = d.pm := rfl
@[simp] theorem Dev.setCh_tst (d : Dev) (c : Nat) (x : Ch) : (d.setCh c x).tst = d.tst := rfl
@[simp] theorem Dev.setCh_fuses (d : Dev) (c : Nat) (x : Ch) : (d.setCh c x).fuses = d.fuses := rfl
@[simp] theorem Dev.setCh_acc (d : Dev) (c : Nat) (x : Ch) : (d.setCh c x).acc = d.acc := rfl
@[simp] theorem Dev.setCh_lm (d : Dev) (c : Nat) (x : Ch) : (d.setCh c x).lm = d.lm := rfl
@[simp] theorem Dev.setCh_mp (d : Dev) (c : Nat) (x : Ch) : (d.setCh c x).mp = d.mp := rfl
@[simp] theorem Dev.setCh_th (d : Dev) (c : Nat) (x : Ch) : (d.setCh c x).th = d.th := rfl
@[simp] theorem Dev.setCh_nor (d : Dev) (c : Nat) (x : Ch) : (d.setCh c x).nor = d.nor := rfl
@[simp] theorem Dev.setCh_upd (d : Dev) (c : Nat) (x : Ch) : (d.setCh c x).upd = d.upd := rfl
@[simp] theorem Dev.setCh_ring (d : Dev) (c : Nat) (x : Ch) : (d.setCh c x).ring = d.ring := rfl
@[simp] theorem Dev.setCh_fs (d : Dev) (c : Nat) (x : Ch) : (d.setCh c x).fs = d.fs := rfl
@[simp] theorem Dev.setCh_dmaLast (d : Dev) (c : Nat) (x : Ch) : (d.setCh c x).dmaLast = d.dmaLast := rfl
@[simp] theorem Dev.setCh_dmaLastHi (d : Dev) (c : Nat) (x : Ch) : (d.setCh c x).dmaLastHi = d.dmaLastHi := rfl
@[simp] theorem Dev.setCh_xch (d : Dev) (c : Nat) (x : Ch) : (d.setCh c x).xch = d.xch := rfl
@[simp] theorem Dev.setCh_cold (d : Dev) (c : Nat) (x : Ch) : (d.setCh c x).cold = d.cold := rfl
@[simp] theorem Dev.setCh_bootCh (d : Dev) (c : Nat) (x : Ch) : (d.setCh c x).bootCh = d.bootCh := rfl
@[simp] theorem Dev.setCh_freeCtr (d : Dev) (c : Nat) (x : Ch) : (d.setCh c x).freeCtr = d.freeCtr := rfl

/-! ### `Dev.setClu` writes `cls` -/

@[simp] theorem Dev.setClu_cls (d : Dev) (n : Nat) (x : Cl) : (d.setClu n x).cls = ins d.cls n x := rfl
@[simp] theorem Dev.setClu_regs (d : Dev) (n : Nat) (x : Cl) : (d.setClu n x).regs = d.regs := rfl
@[simp] theorem Dev.setClu_shadow (d : Dev) (n : Nat) (x : Cl) : (d.setClu n x).shadow = d.shadow := rfl
@[simp] theorem Dev.setClu_captured (d : Dev) (n : Nat) (x : Cl) : (d.setClu n x).captured = d.captured := rfl
@[simp] theorem Dev.setClu_port (d : Dev) (n : Nat) (x : Cl) : (d.setClu n x).port = d.port := rfl
@[simp] theorem Dev.setClu_pins (d : Dev) (n : Nat) (x : Cl) : (d.setClu n x).pins = d.pins := rfl
@[simp] theorem Dev.setClu_int (d : Dev) (n : Nat) (x : Cl) : (d.setClu n x).int = d.int := rfl
@[simp] theorem Dev.setClu_spr (d : Dev) (n : Nat) (x : Cl) : (d.setClu n x).spr = d.spr := rfl
@[simp] theorem Dev.setClu_led (d : Dev) (n : Nat) (x : Cl) : (d.setClu n x).led = d.led := rfl
@[simp] theorem Dev.setClu_fab (d : Dev) (n : Nat) (x : Cl) : (d.setClu n x).fab = d.fab := rfl
@[simp] theorem Dev.setClu_answers (d : Dev) (n : Nat) (x : Cl) : (d.setClu n x).answers = d.answers := rfl
@[simp] theorem Dev.setClu_adm (d : Dev) (n : Nat) (x : Cl) : (d.setClu n x).adm = d.adm := rfl
@[simp] theorem Dev.setClu_cq (d : Dev) (n : Nat) (x : Cl) : (d.setClu n x).cq = d.cq := rfl
@[simp] theorem Dev.setClu_tq (d : Dev) (n : Nat) (x : Cl) : (d.setClu n x).tq = d.tq := rfl
@[simp] theorem Dev.setClu_cells (d : Dev) (n : Nat) (x : Cl) : (d.setClu n x).cells = d.cells := rfl
@[simp] theorem Dev.setClu_dq (d : Dev) (n : Nat) (x : Cl) : (d.setClu n x).dq = d.dq := rfl
@[simp] theorem Dev.setClu_pfm (d : Dev) (n : Nat) (x : Cl) : (d.setClu n x).pfm = d.pfm := rfl
@[simp] theorem Dev.setClu_lift (d : Dev) (n : Nat) (x : Cl) : (d.setClu n x).lift = d.lift := rfl
@[simp] theorem Dev.setClu_chs (d : Dev) (n : Nat) (x : Cl) : (d.setClu n x).chs = d.chs := rfl
@[simp] theorem Dev.setClu_sdp (d : Dev) (n : Nat) (x : Cl) : (d.setClu n x).sdp = d.sdp := rfl
@[simp] theorem Dev.setClu_dies (d : Dev) (n : Nat) (x : Cl) : (d.setClu n x).dies = d.dies := rfl
@[simp] theorem Dev.setClu_dma (d : Dev) (n : Nat) (x : Cl) : (d.setClu n x).dma = d.dma := rfl
@[simp] theorem Dev.setClu_pm (d : Dev) (n : Nat) (x : Cl) : (d.setClu n x).pm = d.pm := rfl
@[simp] theorem Dev.setClu_tst (d : Dev) (n : Nat) (x : Cl) : (d.setClu n x).tst = d.tst := rfl
@[simp] theorem Dev.setClu_fuses (d : Dev) (n : Nat) (x : Cl) : (d.setClu n x).fuses = d.fuses := rfl
@[simp] theorem Dev.setClu_acc (d : Dev) (n : Nat) (x : Cl) : (d.setClu n x).acc = d.acc := rfl
@[simp] theorem Dev.setClu_lm (d : Dev) (n : Nat) (x : Cl) : (d.setClu n x).lm = d.lm := rfl
@[simp] theorem Dev.setClu_mp (d : Dev) (n : Nat) (x : Cl) : (d.setClu n x).mp = d.mp := rfl
@[simp] theorem Dev.setClu_th (d : Dev) (n : Nat) (x : Cl) : (d.setClu n x).th = d.th := rfl
@[simp] theorem Dev.setClu_nor (d : Dev) (n : Nat) (x : Cl) : (d.setClu n x).nor = d.nor := rfl
@[simp] theorem Dev.setClu_upd (d : Dev) (n : Nat) (x : Cl) : (d.setClu n x).upd = d.upd := rfl
@[simp] theorem Dev.setClu_ring (d : Dev) (n : Nat) (x : Cl) : (d.setClu n x).ring = d.ring := rfl
@[simp] theorem Dev.setClu_fs (d : Dev) (n : Nat) (x : Cl) : (d.setClu n x).fs = d.fs := rfl
@[simp] theorem Dev.setClu_dmaLast (d : Dev) (n : Nat) (x : Cl) : (d.setClu n x).dmaLast = d.dmaLast := rfl
@[simp] theorem Dev.setClu_dmaLastHi (d : Dev) (n : Nat) (x : Cl) : (d.setClu n x).dmaLastHi = d.dmaLastHi := rfl
@[simp] theorem Dev.setClu_xch (d : Dev) (n : Nat) (x : Cl) : (d.setClu n x).xch = d.xch := rfl
@[simp] theorem Dev.setClu_cold (d : Dev) (n : Nat) (x : Cl) : (d.setClu n x).cold = d.cold := rfl
@[simp] theorem Dev.setClu_bootCh (d : Dev) (n : Nat) (x : Cl) : (d.setClu n x).bootCh = d.bootCh := rfl
@[simp] theorem Dev.setClu_freeCtr (d : Dev) (n : Nat) (x : Cl) : (d.setClu n x).freeCtr = d.freeCtr := rfl

/-! ### `Dev.setDie` writes `dies` -/

@[simp] theorem Dev.setDie_dies (d : Dev) (n : Nat) (x : Die) : (d.setDie n x).dies = ins d.dies n x := rfl
@[simp] theorem Dev.setDie_regs (d : Dev) (n : Nat) (x : Die) : (d.setDie n x).regs = d.regs := rfl
@[simp] theorem Dev.setDie_shadow (d : Dev) (n : Nat) (x : Die) : (d.setDie n x).shadow = d.shadow := rfl
@[simp] theorem Dev.setDie_captured (d : Dev) (n : Nat) (x : Die) : (d.setDie n x).captured = d.captured := rfl
@[simp] theorem Dev.setDie_port (d : Dev) (n : Nat) (x : Die) : (d.setDie n x).port = d.port := rfl
@[simp] theorem Dev.setDie_pins (d : Dev) (n : Nat) (x : Die) : (d.setDie n x).pins = d.pins := rfl
@[simp] theorem Dev.setDie_int (d : Dev) (n : Nat) (x : Die) : (d.setDie n x).int = d.int := rfl
@[simp] theorem Dev.setDie_spr (d : Dev) (n : Nat) (x : Die) : (d.setDie n x).spr = d.spr := rfl
@[simp] theorem Dev.setDie_led (d : Dev) (n : Nat) (x : Die) : (d.setDie n x).led = d.led := rfl
@[simp] theorem Dev.setDie_fab (d : Dev) (n : Nat) (x : Die) : (d.setDie n x).fab = d.fab := rfl
@[simp] theorem Dev.setDie_answers (d : Dev) (n : Nat) (x : Die) : (d.setDie n x).answers = d.answers := rfl
@[simp] theorem Dev.setDie_adm (d : Dev) (n : Nat) (x : Die) : (d.setDie n x).adm = d.adm := rfl
@[simp] theorem Dev.setDie_cq (d : Dev) (n : Nat) (x : Die) : (d.setDie n x).cq = d.cq := rfl
@[simp] theorem Dev.setDie_tq (d : Dev) (n : Nat) (x : Die) : (d.setDie n x).tq = d.tq := rfl
@[simp] theorem Dev.setDie_cells (d : Dev) (n : Nat) (x : Die) : (d.setDie n x).cells = d.cells := rfl
@[simp] theorem Dev.setDie_dq (d : Dev) (n : Nat) (x : Die) : (d.setDie n x).dq = d.dq := rfl
@[simp] theorem Dev.setDie_pfm (d : Dev) (n : Nat) (x : Die) : (d.setDie n x).pfm = d.pfm := rfl
@[simp] theorem Dev.setDie_lift (d : Dev) (n : Nat) (x : Die) : (d.setDie n x).lift = d.lift := rfl
@[simp] theorem Dev.setDie_chs (d : Dev) (n : Nat) (x : Die) : (d.setDie n x).chs = d.chs := rfl
@[simp] theorem Dev.setDie_cls (d : Dev) (n : Nat) (x : Die) : (d.setDie n x).cls = d.cls := rfl
@[simp] theorem Dev.setDie_sdp (d : Dev) (n : Nat) (x : Die) : (d.setDie n x).sdp = d.sdp := rfl
@[simp] theorem Dev.setDie_dma (d : Dev) (n : Nat) (x : Die) : (d.setDie n x).dma = d.dma := rfl
@[simp] theorem Dev.setDie_pm (d : Dev) (n : Nat) (x : Die) : (d.setDie n x).pm = d.pm := rfl
@[simp] theorem Dev.setDie_tst (d : Dev) (n : Nat) (x : Die) : (d.setDie n x).tst = d.tst := rfl
@[simp] theorem Dev.setDie_fuses (d : Dev) (n : Nat) (x : Die) : (d.setDie n x).fuses = d.fuses := rfl
@[simp] theorem Dev.setDie_acc (d : Dev) (n : Nat) (x : Die) : (d.setDie n x).acc = d.acc := rfl
@[simp] theorem Dev.setDie_lm (d : Dev) (n : Nat) (x : Die) : (d.setDie n x).lm = d.lm := rfl
@[simp] theorem Dev.setDie_mp (d : Dev) (n : Nat) (x : Die) : (d.setDie n x).mp = d.mp := rfl
@[simp] theorem Dev.setDie_th (d : Dev) (n : Nat) (x : Die) : (d.setDie n x).th = d.th := rfl
@[simp] theorem Dev.setDie_nor (d : Dev) (n : Nat) (x : Die) : (d.setDie n x).nor = d.nor := rfl
@[simp] theorem Dev.setDie_upd (d : Dev) (n : Nat) (x : Die) : (d.setDie n x).upd = d.upd := rfl
@[simp] theorem Dev.setDie_ring (d : Dev) (n : Nat) (x : Die) : (d.setDie n x).ring = d.ring := rfl
@[simp] theorem Dev.setDie_fs (d : Dev) (n : Nat) (x : Die) : (d.setDie n x).fs = d.fs := rfl
@[simp] theorem Dev.setDie_dmaLast (d : Dev) (n : Nat) (x : Die) : (d.setDie n x).dmaLast = d.dmaLast := rfl
@[simp] theorem Dev.setDie_dmaLastHi (d : Dev) (n : Nat) (x : Die) : (d.setDie n x).dmaLastHi = d.dmaLastHi := rfl
@[simp] theorem Dev.setDie_xch (d : Dev) (n : Nat) (x : Die) : (d.setDie n x).xch = d.xch := rfl
@[simp] theorem Dev.setDie_cold (d : Dev) (n : Nat) (x : Die) : (d.setDie n x).cold = d.cold := rfl
@[simp] theorem Dev.setDie_bootCh (d : Dev) (n : Nat) (x : Die) : (d.setDie n x).bootCh = d.bootCh := rfl
@[simp] theorem Dev.setDie_freeCtr (d : Dev) (n : Nat) (x : Die) : (d.setDie n x).freeCtr = d.freeCtr := rfl

/-! ### `Dev.setDch` writes `dma` -/

@[simp] theorem Dev.setDch_dma (d : Dev) (c : Nat) (x : DmaCh) : (d.setDch c x).dma = ins d.dma c x := rfl
@[simp] theorem Dev.setDch_regs (d : Dev) (c : Nat) (x : DmaCh) : (d.setDch c x).regs = d.regs := rfl
@[simp] theorem Dev.setDch_shadow (d : Dev) (c : Nat) (x : DmaCh) : (d.setDch c x).shadow = d.shadow := rfl
@[simp] theorem Dev.setDch_captured (d : Dev) (c : Nat) (x : DmaCh) : (d.setDch c x).captured = d.captured := rfl
@[simp] theorem Dev.setDch_port (d : Dev) (c : Nat) (x : DmaCh) : (d.setDch c x).port = d.port := rfl
@[simp] theorem Dev.setDch_pins (d : Dev) (c : Nat) (x : DmaCh) : (d.setDch c x).pins = d.pins := rfl
@[simp] theorem Dev.setDch_int (d : Dev) (c : Nat) (x : DmaCh) : (d.setDch c x).int = d.int := rfl
@[simp] theorem Dev.setDch_spr (d : Dev) (c : Nat) (x : DmaCh) : (d.setDch c x).spr = d.spr := rfl
@[simp] theorem Dev.setDch_led (d : Dev) (c : Nat) (x : DmaCh) : (d.setDch c x).led = d.led := rfl
@[simp] theorem Dev.setDch_fab (d : Dev) (c : Nat) (x : DmaCh) : (d.setDch c x).fab = d.fab := rfl
@[simp] theorem Dev.setDch_answers (d : Dev) (c : Nat) (x : DmaCh) : (d.setDch c x).answers = d.answers := rfl
@[simp] theorem Dev.setDch_adm (d : Dev) (c : Nat) (x : DmaCh) : (d.setDch c x).adm = d.adm := rfl
@[simp] theorem Dev.setDch_cq (d : Dev) (c : Nat) (x : DmaCh) : (d.setDch c x).cq = d.cq := rfl
@[simp] theorem Dev.setDch_tq (d : Dev) (c : Nat) (x : DmaCh) : (d.setDch c x).tq = d.tq := rfl
@[simp] theorem Dev.setDch_cells (d : Dev) (c : Nat) (x : DmaCh) : (d.setDch c x).cells = d.cells := rfl
@[simp] theorem Dev.setDch_dq (d : Dev) (c : Nat) (x : DmaCh) : (d.setDch c x).dq = d.dq := rfl
@[simp] theorem Dev.setDch_pfm (d : Dev) (c : Nat) (x : DmaCh) : (d.setDch c x).pfm = d.pfm := rfl
@[simp] theorem Dev.setDch_lift (d : Dev) (c : Nat) (x : DmaCh) : (d.setDch c x).lift = d.lift := rfl
@[simp] theorem Dev.setDch_chs (d : Dev) (c : Nat) (x : DmaCh) : (d.setDch c x).chs = d.chs := rfl
@[simp] theorem Dev.setDch_cls (d : Dev) (c : Nat) (x : DmaCh) : (d.setDch c x).cls = d.cls := rfl
@[simp] theorem Dev.setDch_sdp (d : Dev) (c : Nat) (x : DmaCh) : (d.setDch c x).sdp = d.sdp := rfl
@[simp] theorem Dev.setDch_dies (d : Dev) (c : Nat) (x : DmaCh) : (d.setDch c x).dies = d.dies := rfl
@[simp] theorem Dev.setDch_pm (d : Dev) (c : Nat) (x : DmaCh) : (d.setDch c x).pm = d.pm := rfl
@[simp] theorem Dev.setDch_tst (d : Dev) (c : Nat) (x : DmaCh) : (d.setDch c x).tst = d.tst := rfl
@[simp] theorem Dev.setDch_fuses (d : Dev) (c : Nat) (x : DmaCh) : (d.setDch c x).fuses = d.fuses := rfl
@[simp] theorem Dev.setDch_acc (d : Dev) (c : Nat) (x : DmaCh) : (d.setDch c x).acc = d.acc := rfl
@[simp] theorem Dev.setDch_lm (d : Dev) (c : Nat) (x : DmaCh) : (d.setDch c x).lm = d.lm := rfl
@[simp] theorem Dev.setDch_mp (d : Dev) (c : Nat) (x : DmaCh) : (d.setDch c x).mp = d.mp := rfl
@[simp] theorem Dev.setDch_th (d : Dev) (c : Nat) (x : DmaCh) : (d.setDch c x).th = d.th := rfl
@[simp] theorem Dev.setDch_nor (d : Dev) (c : Nat) (x : DmaCh) : (d.setDch c x).nor = d.nor := rfl
@[simp] theorem Dev.setDch_upd (d : Dev) (c : Nat) (x : DmaCh) : (d.setDch c x).upd = d.upd := rfl
@[simp] theorem Dev.setDch_ring (d : Dev) (c : Nat) (x : DmaCh) : (d.setDch c x).ring = d.ring := rfl
@[simp] theorem Dev.setDch_fs (d : Dev) (c : Nat) (x : DmaCh) : (d.setDch c x).fs = d.fs := rfl
@[simp] theorem Dev.setDch_dmaLast (d : Dev) (c : Nat) (x : DmaCh) : (d.setDch c x).dmaLast = d.dmaLast := rfl
@[simp] theorem Dev.setDch_dmaLastHi (d : Dev) (c : Nat) (x : DmaCh) : (d.setDch c x).dmaLastHi = d.dmaLastHi := rfl
@[simp] theorem Dev.setDch_xch (d : Dev) (c : Nat) (x : DmaCh) : (d.setDch c x).xch = d.xch := rfl
@[simp] theorem Dev.setDch_cold (d : Dev) (c : Nat) (x : DmaCh) : (d.setDch c x).cold = d.cold := rfl
@[simp] theorem Dev.setDch_bootCh (d : Dev) (c : Nat) (x : DmaCh) : (d.setDch c x).bootCh = d.bootCh := rfl
@[simp] theorem Dev.setDch_freeCtr (d : Dev) (c : Nat) (x : DmaCh) : (d.setDch c x).freeCtr = d.freeCtr := rfl

/-! ### `Dev.setAcc` writes `acc` -/

@[simp] theorem Dev.setAcc_acc (d : Dev) (n : Nat) (x : AccSt) : (d.setAcc n x).acc = ins d.acc n x := rfl
@[simp] theorem Dev.setAcc_regs (d : Dev) (n : Nat) (x : AccSt) : (d.setAcc n x).regs = d.regs := rfl
@[simp] theorem Dev.setAcc_shadow (d : Dev) (n : Nat) (x : AccSt) : (d.setAcc n x).shadow = d.shadow := rfl
@[simp] theorem Dev.setAcc_captured (d : Dev) (n : Nat) (x : AccSt) : (d.setAcc n x).captured = d.captured := rfl
@[simp] theorem Dev.setAcc_port (d : Dev) (n : Nat) (x : AccSt) : (d.setAcc n x).port = d.port := rfl
@[simp] theorem Dev.setAcc_pins (d : Dev) (n : Nat) (x : AccSt) : (d.setAcc n x).pins = d.pins := rfl
@[simp] theorem Dev.setAcc_int (d : Dev) (n : Nat) (x : AccSt) : (d.setAcc n x).int = d.int := rfl
@[simp] theorem Dev.setAcc_spr (d : Dev) (n : Nat) (x : AccSt) : (d.setAcc n x).spr = d.spr := rfl
@[simp] theorem Dev.setAcc_led (d : Dev) (n : Nat) (x : AccSt) : (d.setAcc n x).led = d.led := rfl
@[simp] theorem Dev.setAcc_fab (d : Dev) (n : Nat) (x : AccSt) : (d.setAcc n x).fab = d.fab := rfl
@[simp] theorem Dev.setAcc_answers (d : Dev) (n : Nat) (x : AccSt) : (d.setAcc n x).answers = d.answers := rfl
@[simp] theorem Dev.setAcc_adm (d : Dev) (n : Nat) (x : AccSt) : (d.setAcc n x).adm = d.adm := rfl
@[simp] theorem Dev.setAcc_cq (d : Dev) (n : Nat) (x : AccSt) : (d.setAcc n x).cq = d.cq := rfl
@[simp] theorem Dev.setAcc_tq (d : Dev) (n : Nat) (x : AccSt) : (d.setAcc n x).tq = d.tq := rfl
@[simp] theorem Dev.setAcc_cells (d : Dev) (n : Nat) (x : AccSt) : (d.setAcc n x).cells = d.cells := rfl
@[simp] theorem Dev.setAcc_dq (d : Dev) (n : Nat) (x : AccSt) : (d.setAcc n x).dq = d.dq := rfl
@[simp] theorem Dev.setAcc_pfm (d : Dev) (n : Nat) (x : AccSt) : (d.setAcc n x).pfm = d.pfm := rfl
@[simp] theorem Dev.setAcc_lift (d : Dev) (n : Nat) (x : AccSt) : (d.setAcc n x).lift = d.lift := rfl
@[simp] theorem Dev.setAcc_chs (d : Dev) (n : Nat) (x : AccSt) : (d.setAcc n x).chs = d.chs := rfl
@[simp] theorem Dev.setAcc_cls (d : Dev) (n : Nat) (x : AccSt) : (d.setAcc n x).cls = d.cls := rfl
@[simp] theorem Dev.setAcc_sdp (d : Dev) (n : Nat) (x : AccSt) : (d.setAcc n x).sdp = d.sdp := rfl
@[simp] theorem Dev.setAcc_dies (d : Dev) (n : Nat) (x : AccSt) : (d.setAcc n x).dies = d.dies := rfl
@[simp] theorem Dev.setAcc_dma (d : Dev) (n : Nat) (x : AccSt) : (d.setAcc n x).dma = d.dma := rfl
@[simp] theorem Dev.setAcc_pm (d : Dev) (n : Nat) (x : AccSt) : (d.setAcc n x).pm = d.pm := rfl
@[simp] theorem Dev.setAcc_tst (d : Dev) (n : Nat) (x : AccSt) : (d.setAcc n x).tst = d.tst := rfl
@[simp] theorem Dev.setAcc_fuses (d : Dev) (n : Nat) (x : AccSt) : (d.setAcc n x).fuses = d.fuses := rfl
@[simp] theorem Dev.setAcc_lm (d : Dev) (n : Nat) (x : AccSt) : (d.setAcc n x).lm = d.lm := rfl
@[simp] theorem Dev.setAcc_mp (d : Dev) (n : Nat) (x : AccSt) : (d.setAcc n x).mp = d.mp := rfl
@[simp] theorem Dev.setAcc_th (d : Dev) (n : Nat) (x : AccSt) : (d.setAcc n x).th = d.th := rfl
@[simp] theorem Dev.setAcc_nor (d : Dev) (n : Nat) (x : AccSt) : (d.setAcc n x).nor = d.nor := rfl
@[simp] theorem Dev.setAcc_upd (d : Dev) (n : Nat) (x : AccSt) : (d.setAcc n x).upd = d.upd := rfl
@[simp] theorem Dev.setAcc_ring (d : Dev) (n : Nat) (x : AccSt) : (d.setAcc n x).ring = d.ring := rfl
@[simp] theorem Dev.setAcc_fs (d : Dev) (n : Nat) (x : AccSt) : (d.setAcc n x).fs = d.fs := rfl
@[simp] theorem Dev.setAcc_dmaLast (d : Dev) (n : Nat) (x : AccSt) : (d.setAcc n x).dmaLast = d.dmaLast := rfl
@[simp] theorem Dev.setAcc_dmaLastHi (d : Dev) (n : Nat) (x : AccSt) : (d.setAcc n x).dmaLastHi = d.dmaLastHi := rfl
@[simp] theorem Dev.setAcc_xch (d : Dev) (n : Nat) (x : AccSt) : (d.setAcc n x).xch = d.xch := rfl
@[simp] theorem Dev.setAcc_cold (d : Dev) (n : Nat) (x : AccSt) : (d.setAcc n x).cold = d.cold := rfl
@[simp] theorem Dev.setAcc_bootCh (d : Dev) (n : Nat) (x : AccSt) : (d.setAcc n x).bootCh = d.bootCh := rfl
@[simp] theorem Dev.setAcc_freeCtr (d : Dev) (n : Nat) (x : AccSt) : (d.setAcc n x).freeCtr = d.freeCtr := rfl

/-! ### `Dev.setSens` writes `th` -/

@[simp] theorem Dev.setSens_th (d : Dev) (n : Nat) (x : SensSt) : (d.setSens n x).th = { d.th with sens := ins d.th.sens n x } := rfl
@[simp] theorem Dev.setSens_regs (d : Dev) (n : Nat) (x : SensSt) : (d.setSens n x).regs = d.regs := rfl
@[simp] theorem Dev.setSens_shadow (d : Dev) (n : Nat) (x : SensSt) : (d.setSens n x).shadow = d.shadow := rfl
@[simp] theorem Dev.setSens_captured (d : Dev) (n : Nat) (x : SensSt) : (d.setSens n x).captured = d.captured := rfl
@[simp] theorem Dev.setSens_port (d : Dev) (n : Nat) (x : SensSt) : (d.setSens n x).port = d.port := rfl
@[simp] theorem Dev.setSens_pins (d : Dev) (n : Nat) (x : SensSt) : (d.setSens n x).pins = d.pins := rfl
@[simp] theorem Dev.setSens_int (d : Dev) (n : Nat) (x : SensSt) : (d.setSens n x).int = d.int := rfl
@[simp] theorem Dev.setSens_spr (d : Dev) (n : Nat) (x : SensSt) : (d.setSens n x).spr = d.spr := rfl
@[simp] theorem Dev.setSens_led (d : Dev) (n : Nat) (x : SensSt) : (d.setSens n x).led = d.led := rfl
@[simp] theorem Dev.setSens_fab (d : Dev) (n : Nat) (x : SensSt) : (d.setSens n x).fab = d.fab := rfl
@[simp] theorem Dev.setSens_answers (d : Dev) (n : Nat) (x : SensSt) : (d.setSens n x).answers = d.answers := rfl
@[simp] theorem Dev.setSens_adm (d : Dev) (n : Nat) (x : SensSt) : (d.setSens n x).adm = d.adm := rfl
@[simp] theorem Dev.setSens_cq (d : Dev) (n : Nat) (x : SensSt) : (d.setSens n x).cq = d.cq := rfl
@[simp] theorem Dev.setSens_tq (d : Dev) (n : Nat) (x : SensSt) : (d.setSens n x).tq = d.tq := rfl
@[simp] theorem Dev.setSens_cells (d : Dev) (n : Nat) (x : SensSt) : (d.setSens n x).cells = d.cells := rfl
@[simp] theorem Dev.setSens_dq (d : Dev) (n : Nat) (x : SensSt) : (d.setSens n x).dq = d.dq := rfl
@[simp] theorem Dev.setSens_pfm (d : Dev) (n : Nat) (x : SensSt) : (d.setSens n x).pfm = d.pfm := rfl
@[simp] theorem Dev.setSens_lift (d : Dev) (n : Nat) (x : SensSt) : (d.setSens n x).lift = d.lift := rfl
@[simp] theorem Dev.setSens_chs (d : Dev) (n : Nat) (x : SensSt) : (d.setSens n x).chs = d.chs := rfl
@[simp] theorem Dev.setSens_cls (d : Dev) (n : Nat) (x : SensSt) : (d.setSens n x).cls = d.cls := rfl
@[simp] theorem Dev.setSens_sdp (d : Dev) (n : Nat) (x : SensSt) : (d.setSens n x).sdp = d.sdp := rfl
@[simp] theorem Dev.setSens_dies (d : Dev) (n : Nat) (x : SensSt) : (d.setSens n x).dies = d.dies := rfl
@[simp] theorem Dev.setSens_dma (d : Dev) (n : Nat) (x : SensSt) : (d.setSens n x).dma = d.dma := rfl
@[simp] theorem Dev.setSens_pm (d : Dev) (n : Nat) (x : SensSt) : (d.setSens n x).pm = d.pm := rfl
@[simp] theorem Dev.setSens_tst (d : Dev) (n : Nat) (x : SensSt) : (d.setSens n x).tst = d.tst := rfl
@[simp] theorem Dev.setSens_fuses (d : Dev) (n : Nat) (x : SensSt) : (d.setSens n x).fuses = d.fuses := rfl
@[simp] theorem Dev.setSens_acc (d : Dev) (n : Nat) (x : SensSt) : (d.setSens n x).acc = d.acc := rfl
@[simp] theorem Dev.setSens_lm (d : Dev) (n : Nat) (x : SensSt) : (d.setSens n x).lm = d.lm := rfl
@[simp] theorem Dev.setSens_mp (d : Dev) (n : Nat) (x : SensSt) : (d.setSens n x).mp = d.mp := rfl
@[simp] theorem Dev.setSens_nor (d : Dev) (n : Nat) (x : SensSt) : (d.setSens n x).nor = d.nor := rfl
@[simp] theorem Dev.setSens_upd (d : Dev) (n : Nat) (x : SensSt) : (d.setSens n x).upd = d.upd := rfl
@[simp] theorem Dev.setSens_ring (d : Dev) (n : Nat) (x : SensSt) : (d.setSens n x).ring = d.ring := rfl
@[simp] theorem Dev.setSens_fs (d : Dev) (n : Nat) (x : SensSt) : (d.setSens n x).fs = d.fs := rfl
@[simp] theorem Dev.setSens_dmaLast (d : Dev) (n : Nat) (x : SensSt) : (d.setSens n x).dmaLast = d.dmaLast := rfl
@[simp] theorem Dev.setSens_dmaLastHi (d : Dev) (n : Nat) (x : SensSt) : (d.setSens n x).dmaLastHi = d.dmaLastHi := rfl
@[simp] theorem Dev.setSens_xch (d : Dev) (n : Nat) (x : SensSt) : (d.setSens n x).xch = d.xch := rfl
@[simp] theorem Dev.setSens_cold (d : Dev) (n : Nat) (x : SensSt) : (d.setSens n x).cold = d.cold := rfl
@[simp] theorem Dev.setSens_bootCh (d : Dev) (n : Nat) (x : SensSt) : (d.setSens n x).bootCh = d.bootCh := rfl
@[simp] theorem Dev.setSens_freeCtr (d : Dev) (n : Nat) (x : SensSt) : (d.setSens n x).freeCtr = d.freeCtr := rfl

/-! ### `Dev.acked` writes `port` -/

@[simp] theorem Dev.acked_port (d : Dev) (v : Nat) : (d.acked v).port = { d.port with rdata := v, ack := true } := rfl
@[simp] theorem Dev.acked_regs (d : Dev) (v : Nat) : (d.acked v).regs = d.regs := rfl
@[simp] theorem Dev.acked_shadow (d : Dev) (v : Nat) : (d.acked v).shadow = d.shadow := rfl
@[simp] theorem Dev.acked_captured (d : Dev) (v : Nat) : (d.acked v).captured = d.captured := rfl
@[simp] theorem Dev.acked_pins (d : Dev) (v : Nat) : (d.acked v).pins = d.pins := rfl
@[simp] theorem Dev.acked_int (d : Dev) (v : Nat) : (d.acked v).int = d.int := rfl
@[simp] theorem Dev.acked_spr (d : Dev) (v : Nat) : (d.acked v).spr = d.spr := rfl
@[simp] theorem Dev.acked_led (d : Dev) (v : Nat) : (d.acked v).led = d.led := rfl
@[simp] theorem Dev.acked_fab (d : Dev) (v : Nat) : (d.acked v).fab = d.fab := rfl
@[simp] theorem Dev.acked_answers (d : Dev) (v : Nat) : (d.acked v).answers = d.answers := rfl
@[simp] theorem Dev.acked_adm (d : Dev) (v : Nat) : (d.acked v).adm = d.adm := rfl
@[simp] theorem Dev.acked_cq (d : Dev) (v : Nat) : (d.acked v).cq = d.cq := rfl
@[simp] theorem Dev.acked_tq (d : Dev) (v : Nat) : (d.acked v).tq = d.tq := rfl
@[simp] theorem Dev.acked_cells (d : Dev) (v : Nat) : (d.acked v).cells = d.cells := rfl
@[simp] theorem Dev.acked_dq (d : Dev) (v : Nat) : (d.acked v).dq = d.dq := rfl
@[simp] theorem Dev.acked_pfm (d : Dev) (v : Nat) : (d.acked v).pfm = d.pfm := rfl
@[simp] theorem Dev.acked_lift (d : Dev) (v : Nat) : (d.acked v).lift = d.lift := rfl
@[simp] theorem Dev.acked_chs (d : Dev) (v : Nat) : (d.acked v).chs = d.chs := rfl
@[simp] theorem Dev.acked_cls (d : Dev) (v : Nat) : (d.acked v).cls = d.cls := rfl
@[simp] theorem Dev.acked_sdp (d : Dev) (v : Nat) : (d.acked v).sdp = d.sdp := rfl
@[simp] theorem Dev.acked_dies (d : Dev) (v : Nat) : (d.acked v).dies = d.dies := rfl
@[simp] theorem Dev.acked_dma (d : Dev) (v : Nat) : (d.acked v).dma = d.dma := rfl
@[simp] theorem Dev.acked_pm (d : Dev) (v : Nat) : (d.acked v).pm = d.pm := rfl
@[simp] theorem Dev.acked_tst (d : Dev) (v : Nat) : (d.acked v).tst = d.tst := rfl
@[simp] theorem Dev.acked_fuses (d : Dev) (v : Nat) : (d.acked v).fuses = d.fuses := rfl
@[simp] theorem Dev.acked_acc (d : Dev) (v : Nat) : (d.acked v).acc = d.acc := rfl
@[simp] theorem Dev.acked_lm (d : Dev) (v : Nat) : (d.acked v).lm = d.lm := rfl
@[simp] theorem Dev.acked_mp (d : Dev) (v : Nat) : (d.acked v).mp = d.mp := rfl
@[simp] theorem Dev.acked_th (d : Dev) (v : Nat) : (d.acked v).th = d.th := rfl
@[simp] theorem Dev.acked_nor (d : Dev) (v : Nat) : (d.acked v).nor = d.nor := rfl
@[simp] theorem Dev.acked_upd (d : Dev) (v : Nat) : (d.acked v).upd = d.upd := rfl
@[simp] theorem Dev.acked_ring (d : Dev) (v : Nat) : (d.acked v).ring = d.ring := rfl
@[simp] theorem Dev.acked_fs (d : Dev) (v : Nat) : (d.acked v).fs = d.fs := rfl
@[simp] theorem Dev.acked_dmaLast (d : Dev) (v : Nat) : (d.acked v).dmaLast = d.dmaLast := rfl
@[simp] theorem Dev.acked_dmaLastHi (d : Dev) (v : Nat) : (d.acked v).dmaLastHi = d.dmaLastHi := rfl
@[simp] theorem Dev.acked_xch (d : Dev) (v : Nat) : (d.acked v).xch = d.xch := rfl
@[simp] theorem Dev.acked_cold (d : Dev) (v : Nat) : (d.acked v).cold = d.cold := rfl
@[simp] theorem Dev.acked_bootCh (d : Dev) (v : Nat) : (d.acked v).bootCh = d.bootCh := rfl
@[simp] theorem Dev.acked_freeCtr (d : Dev) (v : Nat) : (d.acked v).freeCtr = d.freeCtr := rfl

/-! ### What the accessors read after an update -/

@[simp] theorem Dev.prt_setPort (d : Dev) (p : Nat) (x : Port) : (d.setPort p x).prt p = x := by
  simp [Dev.prt, Dev.setPort]
theorem Dev.prt_setPort_ne (d : Dev) {p q : Nat} (x : _) (h : p ≠ q) : (d.setPort p x).prt q = d.prt q := by
  simp [Dev.prt, Dev.setPort, look_ins_ne _ _ h]
@[simp] theorem Dev.rd_setPort (d : Dev) (p : Nat) (x : Port) (f : Fld) (i : Nat) : (d.setPort p x).rd f i = d.rd f i := rfl
@[simp] theorem Dev.cqs_setCq (d : Dev) (p : Nat) (x : CqSt) : (d.setCq p x).cqs p = x := by
  simp [Dev.cqs, Dev.setCq]
theorem Dev.cqs_setCq_ne (d : Dev) {p q : Nat} (x : _) (h : p ≠ q) : (d.setCq p x).cqs q = d.cqs q := by
  simp [Dev.cqs, Dev.setCq, look_ins_ne _ _ h]
@[simp] theorem Dev.rd_setCq (d : Dev) (p : Nat) (x : CqSt) (f : Fld) (i : Nat) : (d.setCq p x).rd f i = d.rd f i := rfl
@[simp] theorem Dev.sqs_setSq (d : Dev) (p : Nat) (x : SqSt) : (d.setSq p x).sqs p = x := by
  simp [Dev.sqs, Dev.setSq]
theorem Dev.sqs_setSq_ne (d : Dev) {p q : Nat} (x : _) (h : p ≠ q) : (d.setSq p x).sqs q = d.sqs q := by
  simp [Dev.sqs, Dev.setSq, look_ins_ne _ _ h]
@[simp] theorem Dev.rd_setSq (d : Dev) (p : Nat) (x : SqSt) (f : Fld) (i : Nat) : (d.setSq p x).rd f i = d.rd f i := rfl
@[simp] theorem Dev.cell_setCell (d : Dev) (p : Nat) (x : Cell) : (d.setCell p x).cell p = x := by
  simp [Dev.cell, Dev.setCell]
theorem Dev.cell_setCell_ne (d : Dev) {p q : Nat} (x : _) (h : p ≠ q) : (d.setCell p x).cell q = d.cell q := by
  simp [Dev.cell, Dev.setCell, look_ins_ne _ _ h]
@[simp] theorem Dev.rd_setCell (d : Dev) (p : Nat) (x : Cell) (f : Fld) (i : Nat) : (d.setCell p x).rd f i = d.rd f i := rfl
@[simp] theorem Dev.chn_setCh (d : Dev) (p : Nat) (x : Ch) : (d.setCh p x).chn p = x := by
  simp [Dev.chn, Dev.setCh]
theorem Dev.chn_setCh_ne (d : Dev) {p q : Nat} (x : _) (h : p ≠ q) : (d.setCh p x).chn q = d.chn q := by
  simp [Dev.chn, Dev.setCh, look_ins_ne _ _ h]
@[simp] theorem Dev.rd_setCh (d : Dev) (p : Nat) (x : Ch) (f : Fld) (i : Nat) : (d.setCh p x).rd f i = d.rd f i := rfl
@[simp] theorem Dev.clu_setClu (d : Dev) (p : Nat) (x : Cl) : (d.setClu p x).clu p = x := by
  simp [Dev.clu, Dev.setClu]
theorem Dev.clu_setClu_ne (d : Dev) {p q : Nat} (x : _) (h : p ≠ q) : (d.setClu p x).clu q = d.clu q := by
  simp [Dev.clu, Dev.setClu, look_ins_ne _ _ h]
@[simp] theorem Dev.rd_setClu (d : Dev) (p : Nat) (x : Cl) (f : Fld) (i : Nat) : (d.setClu p x).rd f i = d.rd f i := rfl
@[simp] theorem Dev.die_setDie (d : Dev) (p : Nat) (x : Die) : (d.setDie p x).die p = x := by
  simp [Dev.die, Dev.setDie]
theorem Dev.die_setDie_ne (d : Dev) {p q : Nat} (x : _) (h : p ≠ q) : (d.setDie p x).die q = d.die q := by
  simp [Dev.die, Dev.setDie, look_ins_ne _ _ h]
@[simp] theorem Dev.rd_setDie (d : Dev) (p : Nat) (x : Die) (f : Fld) (i : Nat) : (d.setDie p x).rd f i = d.rd f i := rfl
@[simp] theorem Dev.dch_setDch (d : Dev) (p : Nat) (x : DmaCh) : (d.setDch p x).dch p = x := by
  simp [Dev.dch, Dev.setDch]
theorem Dev.dch_setDch_ne (d : Dev) {p q : Nat} (x : _) (h : p ≠ q) : (d.setDch p x).dch q = d.dch q := by
  simp [Dev.dch, Dev.setDch, look_ins_ne _ _ h]
@[simp] theorem Dev.rd_setDch (d : Dev) (p : Nat) (x : DmaCh) (f : Fld) (i : Nat) : (d.setDch p x).rd f i = d.rd f i := rfl
@[simp] theorem Dev.accu_setAcc (d : Dev) (p : Nat) (x : AccSt) : (d.setAcc p x).accu p = x := by
  simp [Dev.accu, Dev.setAcc]
theorem Dev.accu_setAcc_ne (d : Dev) {p q : Nat} (x : _) (h : p ≠ q) : (d.setAcc p x).accu q = d.accu q := by
  simp [Dev.accu, Dev.setAcc, look_ins_ne _ _ h]
@[simp] theorem Dev.rd_setAcc (d : Dev) (p : Nat) (x : AccSt) (f : Fld) (i : Nat) : (d.setAcc p x).rd f i = d.rd f i := rfl
@[simp] theorem Dev.sens_setSens (d : Dev) (p : Nat) (x : SensSt) : (d.setSens p x).sens p = x := by
  simp [Dev.sens, Dev.setSens]
theorem Dev.sens_setSens_ne (d : Dev) {p q : Nat} (x : _) (h : p ≠ q) : (d.setSens p x).sens q = d.sens q := by
  simp [Dev.sens, Dev.setSens, look_ins_ne _ _ h]
@[simp] theorem Dev.rd_setSens (d : Dev) (p : Nat) (x : SensSt) (f : Fld) (i : Nat) : (d.setSens p x).rd f i = d.rd f i := rfl
@[simp] theorem Dev.rd_acked (d : Dev) (v : Nat) (f : Fld) (i : Nat) : (d.acked v).rd f i = d.rd f i := rfl
@[simp] theorem Dev.prt_wr (d : Dev) (f : Fld) (v i p : Nat) : (d.wr f v i).prt p = d.prt p := rfl
@[simp] theorem Dev.cqs_wr (d : Dev) (f : Fld) (v i p : Nat) : (d.wr f v i).cqs p = d.cqs p := rfl
@[simp] theorem Dev.sqs_wr (d : Dev) (f : Fld) (v i p : Nat) : (d.wr f v i).sqs p = d.sqs p := rfl
@[simp] theorem Dev.cell_wr (d : Dev) (f : Fld) (v i p : Nat) : (d.wr f v i).cell p = d.cell p := rfl
@[simp] theorem Dev.chn_wr (d : Dev) (f : Fld) (v i p : Nat) : (d.wr f v i).chn p = d.chn p := rfl
@[simp] theorem Dev.clu_wr (d : Dev) (f : Fld) (v i p : Nat) : (d.wr f v i).clu p = d.clu p := rfl
@[simp] theorem Dev.die_wr (d : Dev) (f : Fld) (v i p : Nat) : (d.wr f v i).die p = d.die p := rfl
@[simp] theorem Dev.dch_wr (d : Dev) (f : Fld) (v i p : Nat) : (d.wr f v i).dch p = d.dch p := rfl
@[simp] theorem Dev.accu_wr (d : Dev) (f : Fld) (v i p : Nat) : (d.wr f v i).accu p = d.accu p := rfl
@[simp] theorem Dev.sens_wr (d : Dev) (f : Fld) (v i p : Nat) : (d.wr f v i).sens p = d.sens p := rfl

/-! ### The machine -/

@[simp] theorem State.withDev_dev (s : State) (d : Dev) : (s.withDev d).dev = d := rfl
@[simp] theorem State.withDev_fuse (s : State) (d : Dev) : (s.withDev d).fuse = s.fuse := rfl
@[simp] theorem State.withDev_pending (s : State) (d : Dev) : (s.withDev d).pending = s.pending := rfl
@[simp] theorem State.withDev_self (s : State) : s.withDev s.dev = s := rfl
@[simp] theorem State.withDev_withDev (s : State) (d e : Dev) : (s.withDev d).withDev e = s.withDev e := rfl
theorem State.upd_eq (s : State) (f : Fuses → Dev → Dev) : s.upd f = s.withDev (f s.fuse s.dev) := rfl
@[simp] theorem State.upd_dev (s : State) (f : Fuses → Dev → Dev) : (s.upd f).dev = f s.fuse s.dev := rfl
@[simp] theorem State.upd_fuse (s : State) (f : Fuses → Dev → Dev) : (s.upd f).fuse = s.fuse := rfl
@[simp] theorem State.upd_pending (s : State) (f : Fuses → Dev → Dev) : (s.upd f).pending = s.pending := rfl
@[simp] theorem State.updF_dev (s : State) (f : Fuses → Dev → Fuses × Dev) : (s.updF f).dev = (f s.fuse s.dev).2 := rfl
@[simp] theorem State.updF_fuse (s : State) (f : Fuses → Dev → Fuses × Dev) : (s.updF f).fuse = (f s.fuse s.dev).1 := rfl
@[simp] theorem State.updF_pending (s : State) (f : Fuses → Dev → Fuses × Dev) : (s.updF f).pending = s.pending := rfl

end Sys2Proof.Machine
end

