-- ==== Sys2Proof/Laws/Effects.lean ====
section
/-!
SUPPORT. What the shared operations can do, once each: effects of the CCLK domain, effects in turn, the frame `onlyAt`,
spores, interrupt events, safety links, fabric requests, counters and free values.
-/

namespace Sys2Proof.Machine

/-! ### Effects of the CCLK domain and effects in turn -/

theorem whenLive_live {d : Dev} (f : Dev → Dev) (h : d.live = true) : whenLive f d = f d := by simp [whenLive, h]

theorem whenLive_dead {d : Dev} (f : Dev → Dev) (h : d.live = false) : whenLive f d = d := by simp [whenLive, h]

/-- A relation that each effect keeps is kept by the effects in turn. -/
theorem Dev.each_rel {α : Type} (R : Dev → Dev → Prop) (refl : ∀ d, R d d) (trans : ∀ a b c, R a b → R b c → R a c)
    (f : α → Dev → Dev) (xs : List α) (h : ∀ x ∈ xs, ∀ d, R d (f x d)) (d : Dev) : R d (Dev.each xs f d) := by
  induction xs generalizing d with
  | nil => exact refl d
  | cons x r ih =>
    exact trans _ _ _ (h x List.mem_cons_self d) (ih (fun y hy => h y (List.mem_cons_of_mem _ hy)) _)

/-- A property that each effect keeps is kept by the effects in turn. -/
theorem Dev.each_inv {α : Type} (P : Dev → Prop) (f : α → Dev → Dev) (xs : List α) (h : ∀ x ∈ xs, ∀ d, P d → P (f x d))
    {d : Dev} (hd : P d) : P (Dev.each xs f d) := by
  induction xs generalizing d with
  | nil => exact hd
  | cons x r ih => exact ih (fun y hy => h y (List.mem_cons_of_mem _ hy)) (h x List.mem_cons_self _ hd)

@[simp] theorem Dev.each_nil {α : Type} (f : α → Dev → Dev) (d : Dev) : Dev.each [] f d = d := rfl

@[simp] theorem Dev.each_cons {α : Type} (f : α → Dev → Dev) (x : α) (xs : List α) (d : Dev) :
    Dev.each (x :: xs) f d = Dev.each xs f (f x d) := rfl

/-! ### The frame `onlyAt` -/

theorem Dev.onlyAt_refl (rs : List (Nat × Nat)) (d : Dev) : d.onlyAt rs d := fun _ _ => rfl

theorem Dev.onlyAt_trans {rs : List (Nat × Nat)} {d e f : Dev} (h : d.onlyAt rs e) (g : e.onlyAt rs f) : d.onlyAt rs f :=
  fun k hk => (g k hk).trans (h k hk)

/-- A block with the same register file differs in no register. -/
theorem Dev.onlyAt_regs (rs : List (Nat × Nat)) {d e : Dev} (h : e.regs = d.regs) : d.onlyAt rs e := fun _ _ => by rw [h]

/-- A write of a field inside the frame's offsets stays within it. -/
theorem Dev.onlyAt_wr {rs : List (Nat × Nat)} {d e : Dev} (h : d.onlyAt rs e) (f : Fld) (v i : Nat)
    (hr : ∃ r ∈ rs, r.1 ≤ keyOff (f.key i) ∧ keyOff (f.key i) ≤ r.2) : d.onlyAt rs (e.wr f v i) := by
  intro k hk
  rw [look_wr_ne, h k hk]
  rintro rfl
  obtain ⟨r, hm, hb⟩ := hr
  exact hk r hm hb

/-- The register file keeps its keys rising. -/
theorem Dev.wr_sorted {d : Dev} (h : Tbl.sorted d.regs = true) (f : Fld) (v i : Nat) :
    Tbl.sorted (d.wr f v i).regs = true := sorted_putD _ _ _ h

/-! ### Counters -/

/-- A saturating sum stays inside its width (R491). -/
theorem satAdd_lt (w a n : Nat) : satAdd w a n < 2 ^ w := by
  have : 0 < 2 ^ w := Nat.two_pow_pos w
  unfold satAdd; split <;> omega

/-- A saturating counter never falls (R491). -/
theorem satAdd_ge (w a n : Nat) (h : a < 2 ^ w) : a ≤ satAdd w a n := by unfold satAdd; split <;> omega

@[simp] theorem Dev.rd_inc (d : Dev) (f : Fld) (i n : Nat) : (d.inc f i n).rd f i = satAdd f.w (d.rd f i) n := by
  simp [Dev.inc, Nat.mod_eq_of_lt (satAdd_lt _ _ _)]

@[simp] theorem Dev.rd_put (d : Dev) (f : Fld) (b : Bool) (i : Nat) (h : 0 < f.w) : (d.put f b i).rd f i = b2n b := by
  have : 2 ≤ 2 ^ f.w := by
    calc 2 = 2 ^ 1 := rfl
    _ ≤ 2 ^ f.w := Nat.pow_le_pow_right (by omega) h
  rw [Dev.put, Dev.rd_wr, Nat.mod_eq_of_lt]
  cases b <;> simp [b2n] <;> omega

/-! ### Free values -/

/-- Taking a free value changes the block only in the model's own counter. -/
@[simp] theorem Dev.fresh_dev (d : Dev) : d.fresh.2 = { d with freeCtr := d.freeCtr + 1 } := rfl

@[simp] theorem Dev.fresh_value (d : Dev) : d.fresh.1 = Config.freeValue d.freeCtr := rfl

/-! ### Spores, interrupts, safety links, requests -/

/-- Producing a spore puts spores into the router's register stage and does nothing else (R327). -/
theorem produce_only (p : Nat) (d : Dev) : ∃ st, produce p d = { d with spr := { d.spr with stage := d.spr.stage ++ st } } := by
  unfold produce
  split
  · exact ⟨[], by simp⟩
  · refine Dev.each_rel (fun a b => ∃ st, b = { a with spr := { a.spr with stage := a.spr.stage ++ st } }) (fun a => ⟨[], by simp⟩)
      ?_ _ _ ?_ d
    · rintro a b c ⟨x, rfl⟩ ⟨y, rfl⟩; exact ⟨x ++ y, by simp⟩
    · intro c _ a
      dsimp only
      split
      · exact ⟨_, rfl⟩
      · exact ⟨[], by simp⟩

@[simp] theorem produce_regs (p : Nat) (d : Dev) : (produce p d).regs = d.regs := by
  obtain ⟨st, h⟩ := produce_only p d; rw [h]

/-- An event counted by its moderation group changes only that group's status (R323). -/
theorem modEvent_only (s : Nat) (d : Dev) : { modEvent s d with regs := d.regs } = d := by
  unfold modEvent
  split
  · rfl
  · split
    · dsimp only
      split <;> rfl
    · rfl

/-- A source event reaches the interrupt controller and its counters, and nothing else of the block (R315, R326). -/
theorem raise_only (s : Nat) (d : Dev) : { raise s d with regs := d.regs, int := d.int } = d := by
  unfold raise
  split
  · rfl
  · split
    · unfold latchEdge
      dsimp only
      split
      · have h := modEvent_only s (d.incW F.INT_MERGE_CNT)
        have := congrArg (fun e : Dev => ({ e with regs := d.regs, int := d.int } : Dev)) h
        exact this
      · have h := modEvent_only s { d with int := { d.int with pend := setBit d.int.pend s } }
        have := congrArg (fun e : Dev => ({ e with regs := d.regs, int := d.int } : Dev)) h
        exact this
    · rfl

/-- An event no chapter assigns an edge source to is no event (R314). -/
theorem raise_level {s : Nat} (d : Dev) (h : isEdge s = false) : raise s d = d := by simp [raise, h]

/-- A safety-link event sets the link's bit of SPR_SAFEST and may raise SAFE_OUT, and does nothing else (R330). -/
theorem safeLink_only (i : Nat) (d : Dev) :
    ∃ o, safeLink i d = { d.wr F.SPR_SAFEST_ST (setBit (d.rd F.SPR_SAFEST_ST) i) with pins := { d.pins with safeOut := o } } := by
  unfold safeLink
  dsimp only
  split
  · exact ⟨_, rfl⟩
  · exact ⟨d.pins.safeOut, rfl⟩

/-- A fabric request waits at its port's arbiter, and nothing else changes (R299). -/
theorem request_only (p : Nat) (write : Bool) (r : Req) (d : Dev) :
    request p write r d = d.setPort p ((d.prt p).setDir write (((d.prt p).dir write).push r)) := rfl

@[simp] theorem request_regs (p : Nat) (write : Bool) (r : Req) (d : Dev) : (request p write r d).regs = d.regs := rfl

end Sys2Proof.Machine
end

