-- ==== Sys2Proof/Laws/Memory.lean ====
section
/-!
SUPPORT. Laws of the configuration NOR's contents: every operation on them keeps the canonical form, a byte reads what a
program left, and every other address reads as before.
-/

namespace Sys2Proof.Machine

theorem mem_del {α : Type} {t : Tbl α} {i : Nat} {p : Nat × α} (h : p ∈ del t i) : p ∈ t := by
  induction t with
  | nil => exact h
  | cons q r ih =>
    obtain ⟨k, v⟩ := q
    unfold del at h
    split at h
    · exact List.mem_cons_of_mem _ (ih h)
    · rcases List.mem_cons.mp h with h | h
      · exact h ▸ List.mem_cons_self
      · exact List.mem_cons_of_mem _ (ih h)

theorem mem_ins {α : Type} {t : Tbl α} {i : Nat} {x : α} {p : Nat × α} (h : p ∈ ins t i x) : p = (i, x) ∨ p ∈ t := by
  induction t with
  | nil => exact .inl (by simpa [ins] using h)
  | cons q r ih =>
    obtain ⟨k, v⟩ := q
    unfold ins at h
    split at h
    · exact List.mem_cons.mp h
    · split at h
      · rcases List.mem_cons.mp h with h | h
        · exact .inl h
        · exact .inr (List.mem_cons_of_mem _ h)
      · rcases List.mem_cons.mp h with h | h
        · exact .inr (h ▸ List.mem_cons_self)
        · exact (ih h).imp id (List.mem_cons_of_mem _)

theorem keysFrom_filter {α : Type} {t : Tbl α} {n : Nat} (p : Nat × α → Bool) (h : keysFrom n t = true) :
    keysFrom n (t.filter p) = true := by
  induction t generalizing n with
  | nil => rfl
  | cons q r ih =>
    obtain ⟨k, v⟩ := q
    simp only [keysFrom, Bool.and_eq_true, decide_eq_true_eq] at h
    simp only [List.filter]
    split
    · simp only [keysFrom, Bool.and_eq_true, decide_eq_true_eq]; exact ⟨h.1, ih h.2⟩
    · exact ih (keysFrom_mono (by omega) h.2)

/-- The canonical form in two parts. -/
theorem Memory.wf_iff (m : Tbl Byte) : Memory.wf m = true ↔ Tbl.sorted m = true ∧ ∀ p ∈ m, p.2 ≠ 0xFF := by
  simp [Memory.wf]

/-- A write of a byte keeps the canonical form. -/
theorem Memory.wf_putD {m : Tbl Byte} (a : Nat) (b : Byte) (h : Memory.wf m = true) :
    Memory.wf (putD m a b 0xFF) = true := by
  rw [Memory.wf_iff] at *
  refine ⟨sorted_putD a b 0xFF h.1, fun p hp => ?_⟩
  unfold putD at hp
  split at hp
  · exact h.2 p (mem_del hp)
  · next hb =>
    rcases mem_ins hp with rfl | hp
    · exact hb
    · exact h.2 p hp

/-- A one-byte program keeps the canonical form. -/
theorem norPut_wf (a : Nat) (b : Byte) {d : Dev} (h : Memory.wf d.nor.mem = true) : Memory.wf (norPut a b d).nor.mem = true :=
  Memory.wf_putD _ _ h

/-- A program keeps the canonical form. -/
theorem norProgram_wf (a : Nat) (bs : List Byte) {d : Dev} (h : Memory.wf d.nor.mem = true) :
    Memory.wf (norProgram a bs d).nor.mem = true := by
  induction bs generalizing a d with
  | nil => exact h
  | cons b r ih => exact ih _ (norPut_wf a b h)

/-- An erase keeps the canonical form. -/
theorem norErase_wf (a : Nat) {d : Dev} (h : Memory.wf d.nor.mem = true) : Memory.wf (norErase a d).nor.mem = true := by
  rw [Memory.wf_iff] at *
  refine ⟨?_, fun p hp => h.2 p (List.mem_filter.mp hp).1⟩
  have := h.1
  rw [sorted_iff_keysFrom] at *
  exact keysFrom_filter _ this

/-- The NOR of the machine after reset lists nothing. -/
theorem reset_nor_wf : Memory.wf State.reset.dev.nor.mem = true := rfl

/-- A programmed byte reads as the AND of what stood there and the byte given. -/
@[simp] theorem norByte_norPut (a : Nat) (b : Byte) (d : Dev) : norByte (norPut a b d) a = norByte d a &&& b := by
  simp [norByte, norPut]

/-- A one-byte program leaves every other address as it was. -/
theorem norByte_norPut_ne {a c : Nat} (b : Byte) (d : Dev) (h : a ≠ c) : norByte (norPut a b d) c = norByte d c := by
  simp only [norByte, norPut]; rw [look_putD_ne _ _ _ h]

/-- A program leaves every address outside its bytes as it was. -/
theorem norByte_norProgram_ne (a : Nat) (bs : List Byte) (d : Dev) {c : Nat} (h : c < a ∨ a + bs.length ≤ c) :
    norByte (norProgram a bs d) c = norByte d c := by
  induction bs generalizing a d with
  | nil => rfl
  | cons b r ih =>
    simp only [List.length_cons] at h
    rw [norProgram, ih _ _ (by omega), norByte_norPut_ne _ _ (by omega)]

theorem look_filter {t : Tbl Byte} (p : Nat → Bool) (c : Nat) :
    look (t.filter fun q => p q.1) c = if p c then look t c else none := by
  induction t with
  | nil => simp [look]
  | cons q r ih =>
    obtain ⟨k, v⟩ := q
    by_cases hk : k = c
    · subst hk
      by_cases hp : p k = true
      · simp [List.filter, hp, look]
      · simp only [List.filter, hp]; rw [ih]; simp [hp]
    · by_cases hp : p k = true
      · simp only [List.filter, hp, look, hk, if_false]; exact ih
      · simp only [List.filter, hp, look, hk, if_false]; exact ih

/-- After an erase a byte of the sector reads 0xFF, and every other as before. -/
theorem norByte_norErase (a c : Nat) (d : Dev) :
    norByte (norErase a d) c = if c / 4096 = a / 4096 then 0xFF else norByte d c := by
  simp only [norByte, norErase]
  rw [look_filter (fun x => x / 4096 != a / 4096) c]
  by_cases h : c / 4096 = a / 4096 <;> simp [h]

/-- A program touches nothing of the block but the NOR's contents. -/
theorem norProgram_only (a : Nat) (bs : List Byte) (d : Dev) :
    norProgram a bs d = { d with nor := { d.nor with mem := (norProgram a bs d).nor.mem } } := by
  induction bs generalizing a d with
  | nil => rfl
  | cons b r ih => rw [norProgram, ih]; rfl

end Sys2Proof.Machine
end

