-- ==== Sys2Proof/Laws/Port.lean ====
section
/-!
SUPPORT. Laws of the register port: what a served, accepted write of one register instance does, once for all registers.
-/

namespace Sys2Proof.Machine

theorem Dev.portReady_route {d : Dev} (h : d.portReady = true) (o : Nat) : portRoute o d = .served := by
  simp only [Dev.portReady, Bool.and_eq_true, Bool.not_eq_true', decide_eq_true_eq, beq_iff_eq] at h
  obtain ⟨⟨⟨⟨⟨h1, h2⟩, h3⟩, h4⟩, h5⟩, h6⟩ := h
  have h5' : ¬ 3 ≤ d.rd F.PM_STAT_STATE := by omega
  simp [portRoute, h1, h2, h3, h4, h5', h6]

theorem portDone_eq (v : Nat) (d : Dev) : portDone v d = d.acked (v % 2 ^ 32) := rfl

/-- A write the port serves and completes. -/
theorem regWrite_ready {d : Dev} (h : d.portReady = true) (o v : Nat) (a : Acc) (e : PortEnv) (fu : Fuses)
    (ho : o ≠ 0xA240) :
    regWrite o v a e fu d = (servedWrite { wr := true, off := o, data := v, acc := a, env := e } fu d).acked 0 := by
  have hr := Dev.portReady_route h o
  have ho' : (o == 0xA240) = false := by simp [ho]
  simp [regWrite, portWrite, portAccess, hr, accessNow, writeNow, ho', portDone_eq]

/-- The instance of the register that the access names, with no broadcast (R485). -/
theorem servedWrite_one (x : Access) (fu : Fuses) (d : Dev) {fs : List Fld} (hf : fieldsAt x.off = some fs)
    (hro : fs.all (fun f => f.ty == .ro) = false) (hm : masked x.off x.acc d = false) (h8 : x.off ≠ 8)
    (hs : sprRefuses x d = false) (hb : selBcast d x.acc.dom.val (selOf x.off) = false) (hc : x.off ≠ 0xC200)
    (hk : x.off ≠ 0x10) :
    servedWrite x fu d =
      (let i := selIndex d x.acc.dom.val (selOf x.off)
       let r := writeInst { off := x.off, v := x.data, inst := i, acc := x.acc, env := x.env } fs fu d
       if r.1 = 0 then r.2 else writeErr x (errIndex i (selOf x.off)) r.1 false r.2) := by
  have h8' : (x.off == 8) = false := by simp [h8]
  simp only [servedWrite, hf, hro, hm, h8', hs, hb, writeEach, Bool.false_and, Bool.or_false, Bool.false_eq_true, if_false]
  by_cases h : (writeInst { off := x.off, v := x.data, inst := selIndex d x.acc.dom.val (selOf x.off), acc := x.acc, env := x.env } fs fu d).1 = 0
  · simp [h, linkErrWrite, hc]
  · simp [h, commitDropped, hk]

/-- Only routing-channel, LUT and three router registers are refused under R332. -/
theorem sprRefuses_outside (x : Access) (d : Dev) (h : x.off < 0x500C ∨ 0x5340 ≤ x.off) : sprRefuses x d = false := by
  have h1 : ¬ (x.off = 0x500C ∨ x.off = 0x5014 ∨ x.off = 0x5040) := by omega
  have h2 : ¬ (0x5100 ≤ x.off ∧ x.off < 0x51C0) := by omega
  have h3 : ¬ (0x5300 ≤ x.off ∧ x.off < 0x5340) := by omega
  simp only [sprRefuses, h1, h2, h3, if_false, ite_self]

/-- An accepted write of a register with no shadowed field and outside the special cases: its fields, then its action. -/
theorem writeInst_ok (w : Wr) (fs : List Fld) (fu : Fuses) (d : Dev) (hi : ignored w d = none) (hd : dropCause w fs d = 0)
    (ht : w.off ≠ 0x700C ∧ w.off ≠ 0x7010) (hp : w.off ≠ 0x1408 ∧ w.off ≠ 0x9104)
    (hr : fs.any (fun f => f.ty == .rwc) = false) :
    writeInst w fs fu d = (0, regAction w fu d (Dev.each fs (takeField w) d)) := by
  simp [writeInst, hi, hd, timeHalf, ht.1, ht.2, policyAction, hp.1, hp.2, hr]

/-- A dropped write changes nothing in the instance. -/
theorem writeInst_drop (w : Wr) (fs : List Fld) (fu : Fuses) (d : Dev) (hi : ignored w d = none) (hd : dropCause w fs d ≠ 0) :
    writeInst w fs fu d = (dropCause w fs d, d) := by
  unfold writeInst
  rw [hi]
  split
  · next h => cases h
  · split
    · next h => exact absurd h hd
    · rfl

/-- The shape of an accepted register write: its fields in turn, then its action, and the port's acknowledgement. -/
theorem regWrite_takes {d : Dev} {o : Nat} {a : Acc} (h : d.takes o a = true) (v : Nat) (e : PortEnv) (fu : Fuses) {fs : List Fld}
    (hf : fieldsAt o = some fs) (hro : fs.all (fun f => f.ty == .ro) = false) (ho : o ≠ 8 ∧ o ≠ 0xA240 ∧ o ≠ 0xC200 ∧ o ≠ 0x10)
    (hs : sprRefuses { wr := true, off := o, data := v, acc := a, env := e } d = false)
    (hi : ignored { off := o, v := v, inst := d.named o a, acc := a, env := e } d = none)
    (hd : dropCause { off := o, v := v, inst := d.named o a, acc := a, env := e } fs d = 0)
    (ht : o ≠ 0x700C ∧ o ≠ 0x7010) (hp : o ≠ 0x1408 ∧ o ≠ 0x9104) (hr : fs.any (fun f => f.ty == .rwc) = false) :
    regWrite o v a e fu d =
      (regAction { off := o, v := v, inst := d.named o a, acc := a, env := e } fu d
        (Dev.each fs (takeField { off := o, v := v, inst := d.named o a, acc := a, env := e }) d)).acked 0 := by
  simp only [Dev.takes, Bool.and_eq_true, Bool.not_eq_true'] at h
  obtain ⟨⟨h1, h2⟩, h3⟩ := h
  rw [regWrite_ready h1 _ _ _ _ _ ho.2.1, servedWrite_one _ _ _ hf hro h2 ho.1 hs h3 ho.2.2.1 ho.2.2.2]
  simp only [Dev.named] at hi hd ⊢
  rw [writeInst_ok _ _ _ _ hi hd ht hp hr]
  simp

/-- The shape of a dropped register write: the error record, and the port's acknowledgement (R488). -/
theorem regWrite_dropped {d : Dev} {o : Nat} {a : Acc} (h : d.takes o a = true) (v : Nat) (e : PortEnv) (fu : Fuses) {fs : List Fld}
    (hf : fieldsAt o = some fs) (hro : fs.all (fun f => f.ty == .ro) = false) (ho : o ≠ 8 ∧ o ≠ 0xA240 ∧ o ≠ 0xC200 ∧ o ≠ 0x10)
    (hs : sprRefuses { wr := true, off := o, data := v, acc := a, env := e } d = false)
    (hi : ignored { off := o, v := v, inst := d.named o a, acc := a, env := e } d = none)
    (hd : dropCause { off := o, v := v, inst := d.named o a, acc := a, env := e } fs d ≠ 0) :
    regWrite o v a e fu d =
      (writeErr { wr := true, off := o, data := v, acc := a, env := e } (errIndex (d.named o a) (selOf o))
        (dropCause { off := o, v := v, inst := d.named o a, acc := a, env := e } fs d) false d).acked 0 := by
  simp only [Dev.takes, Bool.and_eq_true, Bool.not_eq_true'] at h
  obtain ⟨⟨h1, h2⟩, h3⟩ := h
  rw [regWrite_ready h1 _ _ _ _ _ ho.2.1, servedWrite_one _ _ _ hf hro h2 ho.1 hs h3 ho.2.2.1 ho.2.2.2]
  simp only [Dev.named] at hi hd ⊢
  rw [writeInst_drop _ _ _ _ hi hd]
  simp [hd]

end Sys2Proof.Machine
end

