-- ==== Sys2Proof/Machine/Outputs.lean ====
section
/-!
DEFINITION. The outputs that the state gives and no register or pin of `Pins` holds: each is a view of the state (R290, R297,
R318, R325, R391, R437).
-/

namespace Sys2Proof.Machine

/-- VEC_REQ[t] (R318). -/
def vecReq (d : Dev) (t : Nat) : Bool := (look d.int.pres t).isSome

/-- VEC_ADDR[t] (R318, R319): the address a presentation began with, or the vector of the spurious ID. -/
def vecAddr (d : Dev) (t : Nat) : Nat :=
  match look d.int.pres t with
  | some (_, a) => a
  | none => (d.rd64 (F.INT_VBASE_LO_ADDR.ix t) (F.INT_VBASE_HI_ADDR.ix t) + 0x1FF8) % 2 ^ 64

/-- TGT_WAKE[t], the wake latch (R325). -/
def tgtWake (d : Dev) (t : Nat) : Bool := bit d.int.wake t

/-- PM_CCLK_REQ (R391): low only in Nap and Hibernate; it rises as a wake begins. -/
def pmCclkReq (d : Dev) : Bool := d.rd F.PM_STAT_STATE != 3

/-- PM_STATE[1:0] (R391). While ENTERING it is that of Awake or Doze, and while WAKING that of the state being left
(DEDUCED, assumption 106). -/
def pmState (d : Dev) : Nat :=
  if 3 ≤ d.rd F.PM_STAT_STATE then (if d.pm.hib then 3 else 2)
  else if d.rd F.PM_PHYSTAT_ON = 0 then 1 else 0

/-- FPn_RDAT_READY and FPn_WRSP_READY (R290, R297, R34): high while the CORE domain is out of reset and has power. -/
def fpReady (d : Dev) : Bool := !d.inReset && !d.pm.hib

/-! ### The ring link (R437, R439) -/

/-- A 32-byte flit: byte i on bits [8i+7:8i]. -/
def flitData (b : List Byte) : BitVec 256 := BitVec.ofNat 256 (leAt b 0 32)

/-- The flits of a frame with a frame check, in order: SOF and DATA of each. A row that receives a frame stands for the
transfer of all of them (assumption 128). -/
def Frame.flits (f : Frame) (fcrc : Nat) : List (Bool × BitVec 256) :=
  let b := f.header ++ leBytes 4 fcrc ++ f.payload
  (List.range (f.payload.length / 32 + 1)).map fun i => (i == 0, flitData ((b.drop (32 * i)).take 32))

/-- The flits that a row receiving a frame takes from RL_RX_DATA and RL_RX_SOF under RL_RX_VALID. -/
def rxFlits (f : Frame) (fcrc : Nat) : List (Bool × BitVec 256) := f.flits fcrc

/-- The flit on RL_TX_DATA and RL_TX_SOF: the first of the frame held until RL_TX_READY (R437). -/
def txFlit (d : Dev) : Option (Bool × BitVec 256) := d.ring.tx.bind fun f => (f.flits f.crc).head?

def rlTxValid (d : Dev) : Bool := (txFlit d).isSome
def rlTxSof (d : Dev) : Bool := ((txFlit d).map (·.1)).getD false
def rlTxData (d : Dev) : BitVec 256 := ((txFlit d).map (·.2)).getD 0

/-- RL_RX_READY and RL_ACTIVE (R437, R438). -/
def rlActive (d : Dev) : Bool := d.ring.active

end Sys2Proof.Machine
end

