-- ==== Sys2Proof/WellFormed.lean ====
section
/-!
DEFINITION. Which operands a command can really carry: the widths and lengths the rules give for what arrives at the
block's ports.
-/

namespace Sys2Proof

open Sys2Proof.Machine

/-- A register is an aligned 32-bit word in a 64 KiB space (R480). -/
def offOk (off : Nat) : Bool := off < 0x10000 && off % 4 == 0

/-- Word, syndrome: an SRAM region has at most 524,288 words, a syndrome is 8 bits (R27, R359). -/
def memOk : Mem → Bool
  | .clean => true
  | .word w => w < 524288
  | .corrected w y | .repaired w y | .uncorr w y => w < 524288 && y < 256

/-- A written word: its index, its byte enables and its 64 bits (R27, R363). -/
def wrOk (x : MemWr) : Bool := x.word < 524288 && x.ben < 256 && x.val < 2 ^ 64 && memOk x.old

/-- The readings of what waited for a map line (R180). -/
def readsOk (x : MapReads) : Bool := x.seed.all memOk && x.run.all memOk && x.word.all memOk

/-- A reading and the words written beside it. -/
def useOk (x : MemUse) : Bool := memOk x.m && x.ws.all wrOk

/-- The fields of a frame have the widths of R439, and its payload a whole number of 32-byte units. -/
def frameOk (f : Frame) (fcrc : Nat) : Bool :=
  f.dst < 2 ^ 16 && f.src < 2 ^ 16 && f.hops < 256 && f.flags < 256 && f.epoch < 2 ^ 64 && f.seq < 2 ^ 32 && f.arg < 2 ^ 64 &&
  f.payload.length % 32 == 0 && f.payload.length ≤ 4096 && fcrc < 2 ^ 32

/-- A completion record belongs to a cell of the pool, or to a ring's or the direct path's rejected ticket (R50, R53). -/
def recOk : Rec → Bool
  | .cell c => c < 1048576
  | .reject sq => sq < 64 || sq == 0xFF

/-- A fuse item has the length of its fuses (R416, R432). -/
def fuseOk : Fuse → Bool
  | .hkey i v | .digest i v => i < 4 && v.length == 32
  | .uid v => v.length == 16
  | .trim _ _ => true
  | .repair m _ _ => m < 282
  | .lock => true

/-- RRESP and BRESP have 2 bits (R293). -/
def respOk (r : Nat) : Bool := r < 4

/-- A boot brings the codes of four impedance searches, two slots' patch loads, and an event in one of the phases 1 to 6, of
sensors that exist with 10-bit temperatures (R270, R376, R400, R402). -/
def bootOk (e : BootEnv) : Bool :=
  e.loads.length ≤ 8 && e.loads.all memOk && e.pzq.length ≤ 4 && e.pzq.all (fun p => p.1 < 64 && p.2 < 64) &&
  match e.stop with
  | none => true
  | some (n, .powerFail) => 1 ≤ n && n ≤ 6
  | some (n, .readings rs) => 1 ≤ n && n ≤ 6 && rs.all fun r => r.1 < 40 && r.2.2 < 1024

/-- Well-formed commands: operands whose type does not say their range. -/
def WellFormed (i : Instr) : Bool :=
  match i with
  | .registerWrite off _ _ e => offOk off && memOk e.mem && e.lines.all memOk && e.ack < 65536
  | .registerRead off _ m => offOk off && memOk m
  | .observe off lo _ => offOk off && lo < 32
  | .deposit off lo _ _ => offOk off && lo < 32
  | .ticketAdmit m8 m10 => memOk m8 && useOk m10
  | .tqPop _ _ m | .restartGapEnd _ m | .patchReadEnd _ m | .stagedCodewordDispatch _ m | .hardDecodeEnd _ _ _ m
  | .softDecodeEnd _ _ m | .trackerResult _ m | .accEmitEnd _ m | .accMoveEnd _ m | .dmaBurstIssue m => memOk m
  | .rbNRise _ _ b | .echoBusyEnded _ b => memOk b.m
  | .scrubRead _ m diff _ => memOk m && diff < 2 ^ 64
  | .lmLineFetchReturn l | .lmLineWriteResponse l => readsOk l.m
  | .lmSeedGo v _ => v.m.all memOk
  | .fabricTimeout _ _ t => readsOk t.m
  | .accTakeEnd _ _ m => useOk m
  | .slalomSelect _ m fm tm => memOk m && memOk fm && memOk tm
  | .liftGrant _ _ _ m fm lm => memOk m && memOk fm && memOk lm
  | .nanowordEnd _ n => memOk n.fetch && memOk n.staging && memOk n.local_ && n.writes.all wrOk
  | .completionRecordWrite r l => recOk r && memOk l.m
  | .fabricReadData _ _ bytes _ r => bytes.length ≤ 64 && respOk r.code && readsOk r.m && r.ws.all wrOk
  | .fabricWriteResponse _ _ r => respOk r.code && readsOk r.m && r.ws.isEmpty
  | .intPresent ack | .intGctlWrite _ _ ack => ack < 65536
  | .sensorReading rs => rs.all fun r => r.temp < 1024
  | .waitrdyRetest _ status _ b => status < 256 && memOk b.m
  | .recoveryPoll _ status _ => status < 256
  | .heartbeatRx f fcrc _ | .epochRx f fcrc | .joinRx f fcrc | .driftRx f fcrc | .fragackRx f fcrc => frameOk f fcrc
  | .fragRx f i => frameOk f i.fcrc && memOk i.m && i.ws.all wrOk
  | .resetReleased e | .bootPfailWaitEnd e => bootOk e
  | .mbist res => res.length == 12 && res.all fun r => r.2.length ≤ 16
  | .fusepgm items => items.all fuseOk
  | _ => true

end Sys2Proof
end

