-- ==== Sys2Proof/Tests/Slice0.lean ====
section
/-!
SUPPORT. Tests: worked examples of the spec, public vectors of the algorithms it names, the checks of WellFormed, small
commands, and for every obligation with hypotheses a state and operands that meet them.
-/

open Sys2Proof Sys2Proof.Machine

namespace Sys2Proof.Tests

set_option Elab.async false

/-- Register fields set to values, for witnesses: field, instance, value. -/
def wSet (xs : List (Fld × Nat × Nat)) (d : Dev) : Dev := xs.foldl (fun d x => d.wr x.1 x.2.2 x.2.1) d
/-- A block that has booted. -/
def wDev : Dev := wSet [(F.BOOT_STAT_PHASE, 0, 7), (F.BOOT_STAT_READY, 0, 1), (F.MP_STAT_READY, 0, 0xFFF)] {}
def wReady : State := { dev := wDev }
/-- It with register fields set. -/
def wWith (xs : List (Fld × Nat × Nat)) : State := { dev := wSet xs wDev }
/-- A patch image of no words, version 77, for every cluster, signed with the key `wKey`. -/
def wImage : List Byte :=
  leBytes 4 0x53515031 ++ leBytes 2 0x4832 ++ leBytes 1 0xB1 ++ leBytes 1 0xF ++ leBytes 4 77 ++ leBytes 20 0 ++
    (leBytes 32 56515219790691171413109057904011688695424810155802929973526481321309856242040).reverse ++
    (leBytes 32 87903554505037913180693033429404614779047480256600024645722752688515597372286).reverse
/-- The public key of that signature: x then y. -/
def wKey : List Byte :=
  (leBytes 32 44982497423667811631315358339396948271648200186014370980795923294619635363162).reverse ++
    (leBytes 32 83151880114668648504124503503094632899414797532860457212123740437967675354082).reverse
/-- It with register fields set and a sealed command in the buffer, under a blank HMAC key: the command, counter 1 and the
arguments from byte 16 on. -/
def wSealed (cmd : Nat) (args : List Byte) (xs : List (Fld × Nat × Nat)) : State :=
  let b := leBytes 2 cmd ++ leBytes 6 0 ++ leBytes 8 1 ++ fitTo 32 0 args
  let fu : Fuses := { hkeys := [(0, []), (2, [])] }
  let b := b ++ (hmac [] (b ++ fu.uid)).take 16
  { wWith (xs ++ (List.range 16).map fun i => (F.SC_DATA_DATA.ix i, 0, leAt b (4 * i) 4)) with fuse := fu }

/-! ### Worked examples of the spec -/

/-- spec/00_scope.md: DIX 171 is on channel 5 of cluster 0, in the first ready group. -/
theorem test_dix_example : dixCh 171 = 5 ∧ dixCl 171 = 0 ∧ rbGroup 171 = 0 := by decide +kernel

/-- spec/02, after R43: the bytes of the example READ. -/
theorem test_ticket_example :
    let t : List Byte := [0x91, 0x13, 0x04, 0x05, 0xAB, 0x00, 0x2A, 0x00, 0xB0, 0x04, 0x2C, 0x01, 0x00, 0x04, 0x00, 0x00] ++ leBytes 8 0x123400000 ++ leBytes 40 0
    tOpc t = 1 ∧ tClass t = 1 ∧ tIrq t = true ∧ tLmap t = true ∧ tCprof t = 3 ∧ tCq t = 5 ∧ tDix t = 171 ∧ tTenant t = 42 ∧
      tDbuf t = 0x123400000 := by decide +kernel

/-- spec/02, after R48: 7 tickets are pending on ring 12. -/
theorem test_pending_example :
    sqPending (wWith [(F.SQ_CFG_SIZE.ix 12, 0, 10), (F.SQ_DB_HEAD.ix 12, 0, 1020), (F.SQ_DB_TAIL.ix 12, 0, 3)]).dev 12 = 7 := by decide +kernel

/-- spec/06: page 300 is of zone 1 and slots L1 and L5; the entry of block 1,200 has index 5,608,129. -/
theorem test_lichen_index_example :
    zoneOf {} false 300 = 1 ∧ slotLevels (levelMask {} false 300) = [1, 5] ∧ 16 * recLine false 171 1200 1 + 8 = 8 * 5608129 := by decide +kernel

/-- spec/06: its record gives B = (−2, −6). -/
theorem test_lichen_offsets_example :
    (offsetBytes {} 171 300 (leBytes 8 0 ++ leBytes 8 0x32F8F9FAFBFCFDFE)).take 2 = [0xFE, 0xFA] := by decide +kernel

/-- spec/06: after the ladder L1 moves to −10 and L5 to −14, and the record becomes 0x00F8_F9F2_FBFC_FDF6. -/
theorem test_pull_example :
    let r : Track := { dix := 171, blk := 1200, page := 300, offs := [0xF6, 0xEE], n1 := 0, n0 := 0, first := false, cell := 0, tlm := false }
    let line := leBytes 8 0 ++ leBytes 8 0x32F8F9FAFBFCFDFE
    let a := trackLevels {} false 1 line r (slotLevels (levelMask {} false 300)).zipIdx { slot := { dix := 171, blk := 1200, zone := 1 } }
    a.new = [(1, -10, true), (5, -14, true)] ∧ newLine false 1 line a.new 0 0 = leBytes 8 0 ++ leBytes 8 0x00F8F9F2FBFCFDF6 := by decide +kernel

/-- spec/06: 18 codewords of 70 and 40 corrected bits cross the threshold; with MSTEP 2, L1 moves up from −10 to −8 and L5
down from −14 to −16. -/
theorem test_move_example :
    let r : Track := { dix := 171, blk := 1200, page := 300, offs := [0xF6, 0xF2], n1 := 70, n0 := 40, first := true, cell := 0, tlm := false }
    let line := leBytes 8 0 ++ leBytes 8 0x00F8F9F2FBFCFDF6
    let sl : LmSlot := { dix := 171, blk := 1200, zone := 1, bias := [(1, 510), (5, -510)] }
    (trackLevels {} false 1 line r (slotLevels (levelMask {} false 300)).zipIdx { slot := sl }).new = [(1, -8, false), (5, -16, false)] := by decide +kernel

/-- spec/03, after R86: 64 ticks of TDIV 2 at 4,800 MT/s last 106.7 ns, and a DIN of 18,048 bytes with a 16-tick preamble
3.81 µs. -/
theorem test_cycle_time_example :
    unitsNs 48 (nanoUnits 2 0 0 (1 * 2 ^ 8 + 63)) = 106 ∧ unitsNs 48 (nanoUnits 2 18048 0 (4 * 2 ^ 8 + 15)) = 3813 := by decide +kernel

/-- spec/12: cell 4 in FF mode with TRUTH 0x88 fires with both inputs set, not with one. -/
theorem test_lut_example :
    let d := (wWith [(F.SPR_LUT_FF.ix 4, 0, 1), (F.SPR_LUT_TRUTH.ix 4, 0, 0x88)]).dev
    lutF (d.wr (F.SPR_LUT_STICKY.ix 4) 3) 0 4 = true ∧ lutF (d.wr (F.SPR_LUT_STICKY.ix 4) 1) 0 4 = false := by decide +kernel

/-- spec/12: the acceptance of source 5 puts group 3 in HOLDOFF with REMAIN 50. -/
theorem test_moderation_example :
    let d := claimSource 2 5 (wWith [(F.INT_SRC_MOD.ix 5, 0, 1), (F.INT_SRC_GRP.ix 5, 0, 3), (F.MOD_CFG_HOLD.ix 3, 0, 50), (F.MOD_CFG_CNT.ix 3, 0, 16)]).dev
    d.rd (F.MOD_STAT_HOLDOFF.ix 3) = 1 ∧ d.rd (F.MOD_STAT_REMAIN.ix 3) = 50 ∧ intActive d 5 = true := by decide +kernel

/-! ### Public vectors -/

/-- CRC-32C of "123456789" (the check value of the polynomial R15 names). -/
theorem test_crc32c : crc32c ((List.range 9).map fun i => BitVec.ofNat 8 (0x31 + i)) = 0xE3069283 := by decide +kernel

/-- SHA-256 of "abc" (FIPS 180-4). -/
theorem test_sha256 : (sha256 [0x61, 0x62, 0x63]).take 8 = [0xBA, 0x78, 0x16, 0xBF, 0x8F, 0x01, 0xCF, 0xEA] := by decide +kernel

/-- HMAC-SHA-256, test case 1 of RFC 4231. -/
theorem test_hmac : (hmac (List.replicate 20 0x0B) [0x48, 0x69, 0x20, 0x54, 0x68, 0x65, 0x72, 0x65]).take 4 = [0xB0, 0x34, 0x4C, 0x61] := by
  decide +kernel

/-! ### The step, the queue and the table -/

/-- No word of the table spells a command (its rows have no fields). -/
theorem test_no_word : decodeTableWord 32 0x1234 = none := rfl

/-- With no command waiting the machine after reset stays as it is: PORST_N is low. -/
theorem test_idle_in_reset : step State.reset = .next State.reset := rfl

/-- With no command waiting LG_TIME counts. -/
theorem test_idle_ticks : (match step wReady with | .next t => t.dev.time | _ => 0) = 1 := by decide +kernel

/-- A step takes the command at the front. -/
theorem test_front : (match step { wReady with pending := [.aonclkWatch, .fuserd] } with | .next t => t.pending | _ => []) = [.fuserd] := by decide +kernel

/-- The port is silent in reset (R480). -/
theorem test_reset_silent : (match exec (.registerRead 0 {} .clean) State.reset with | .next t => t.dev.port.ack | _ => true) = false := by decide +kernel

/-- ID_CODE reads before the boot has ended (R401): its reset value. -/
theorem test_id_code :
    (match exec (.registerRead 0 {} .clean) { wReady with dev := {} } with | .next t => t.dev.port.rdata | _ => 0) =
      (F.ID_CODE_HWTYPE.rst * 2 ^ F.ID_CODE_HWTYPE.lo + F.ID_CODE_STEP.rst * 2 ^ F.ID_CODE_STEP.lo + F.ID_CODE_FAMILY.rst * 2 ^ F.ID_CODE_FAMILY.lo) := by
  decide +kernel

/-! ### WellFormed refuses -/

theorem test_wf_offset : WellFormed (.registerWrite 0x10002 5 {} {}) = false ∧ WellFormed (.registerRead 2 {} .clean) = false := by decide +kernel
theorem test_wf_mem : WellFormed (.ticketAdmit (.uncorr 524288 0) {}) = false ∧ WellFormed (.dmaBurstIssue (.corrected 0 256)) = false ∧
    WellFormed (.tqPop 0 {} (.repaired 0 256)) = false ∧ WellFormed (.slalomSelect { ch := 0 } .clean .clean (.uncorr 0 256)) = false ∧
    WellFormed (.liftGrant 0 0 0 .clean .clean (.uncorr 0 256)) = false ∧ WellFormed (.nanowordEnd 0 { local_ := .uncorr 0 256 }) = false := by decide +kernel
theorem test_wf_write : WellFormed (.ticketAdmit .clean { ws := [{ word := 524288 }] }) = false ∧
    WellFormed (.accTakeEnd 0 0 { ws := [{ word := 0, ben := 256 }] }) = false := by decide +kernel
theorem test_wf_observe : WellFormed (.observe 0 32 0) = false ∧ WellFormed (.deposit 3 0 0 0) = false := by decide +kernel
theorem test_wf_record : WellFormed (.completionRecordWrite (.reject 64) ⟨0, .clean⟩) = false ∧ WellFormed (.completionRecordWrite (.cell 1048576) ⟨0, .clean⟩) = false := by decide +kernel
theorem test_wf_beat : WellFormed (.fabricReadData 0 0 (List.replicate 65 0) true { code := 0 }) = false ∧ WellFormed (.fabricWriteResponse 0 0 { code := 4 }) = false := by decide +kernel
theorem test_wf_ack : WellFormed (.intPresent 65536) = false ∧ WellFormed (.intGctlWrite 0 {} 65536) = false := by decide +kernel
theorem test_wf_reading : WellFormed (.sensorReading [{ sensor := 0, cnt := 0, temp := 1024 }]) = false := by decide +kernel
theorem test_wf_status : WellFormed (.waitrdyRetest 0 256 0 ⟨0, .clean⟩) = false ∧ WellFormed (.recoveryPoll 0 256 0) = false := by decide +kernel
theorem test_wf_frame : WellFormed (.joinRx { dst := 65536, src := 1, ty := 3 } 0) = false ∧
    WellFormed (.fragRx { dst := 1, src := 1, ty := 5, payload := [0] } ⟨0, .clean, []⟩) = false := by decide +kernel
theorem test_wf_boot : WellFormed (.resetReleased { loads := List.replicate 9 .clean }) = false ∧
    WellFormed (.bootPfailWaitEnd { loads := [.uncorr 0 256] }) = false ∧ WellFormed (.resetReleased { stop := some (7, .powerFail) }) = false ∧
    WellFormed (.resetReleased { pzq := [(64, 0)] }) = false := by decide +kernel
theorem test_wf_mbist : WellFormed (.mbist [(true, [])]) = false := by decide +kernel
theorem test_wf_fuse : WellFormed (.fusepgm [.hkey 4 []]) = false ∧ WellFormed (.fusepgm [.repair 282 0 0]) = false := by decide +kernel
theorem test_wf_accepts : WellFormed (.registerWrite 0xA200 5 {} {}) = true ∧ WellFormed (.fusepgm [.repair 281 0 0, .lock]) = true := by decide +kernel

/-! ### Witnesses -/

/-- Each clause of `Obligations.SubmissionRingRegisters` has a state and operands that meet its hypotheses. -/
theorem witness_submission_ring_registers :
    (∃ (s : State) (k : Fin 64) (v : Word) (a : Acc),
      s.dev.takes (0xE40C + 0x10 * k.val) a = true ∧ s.dev.on (F.SQ_CFG_EN.ix k) = true ∧ v.toNat % 2 ^ 16 < 2 ^ s.dev.rd (F.SQ_CFG_SIZE.ix k)) ∧
    (∃ (s : State) (k : Fin 64) (v : Word) (a : Acc),
      s.dev.takes (0xE40C + 0x10 * k.val) a = true ∧ s.dev.on (F.SQ_CFG_EN.ix k) = true ∧ 2 ^ s.dev.rd (F.SQ_CFG_SIZE.ix k) ≤ v.toNat % 2 ^ 16) ∧
    (∃ (s : State) (k : Fin 64) (a : Acc),
      s.dev.takes (0xE40C + 0x10 * k.val) a = true ∧ s.dev.on (F.SQ_CFG_EN.ix k) = false) ∧
    (∃ (s : State) (k : Fin 64) (v : Word) (a : Acc),
      s.dev.takes (0xE408 + 0x10 * k.val) a = true ∧ s.dev.on (F.SQ_CFG_EN.ix k) = false ∧ fld v.toNat 0 1 = 1 ∧ 4 ≤ fld v.toNat 2 5 ∧ fld v.toNat 2 5 ≤ 16) :=
  ⟨⟨wWith [(F.SQ_CFG_EN.ix 3, 0, 1), (F.SQ_CFG_SIZE.ix 3, 0, 5)], 3, 20, {}, by decide +kernel⟩,
    ⟨wWith [(F.SQ_CFG_EN.ix 3, 0, 1), (F.SQ_CFG_SIZE.ix 3, 0, 5)], 3, 32, {}, by decide +kernel⟩,
    ⟨wReady, 63, {}, by decide +kernel⟩,
    ⟨wReady, 63, 0x21517, {}, by decide +kernel⟩⟩

/-- Each clause of `Obligations.TicketFetchAndDirectPath` has a state and operands that meet its hypotheses. -/
theorem witness_ticket_fetch_and_direct_path :
    (∃ (s : State) (k : Nat) (w : Nat) (n : Nat),
      s.dev.live = true ∧ s.dev.on F.ADM_CTL_EN = true ∧ s.dev.adm.halted = false ∧ s.dev.rd F.PM_STAT_STATE ≠ 2 ∧ s.dev.adm.sweep = none ∧
      admStalled s.dev = false ∧ nextRing s.dev = some k ∧ (s.dev.sqs k).left = 0 ∧
      w = (if s.dev.rd (F.SQ_CFG_WEIGHT.ix k) = 0 then 16 else s.dev.rd (F.SQ_CFG_WEIGHT.ix k)) ∧
      n = min (min 8 w) (min (sqPending s.dev k) (min (sqSize s.dev k - s.dev.rd (F.SQ_DB_HEAD.ix k)) (64 - s.dev.rd (F.SQ_DB_HEAD.ix k) % 64)))) ∧
    (∃ (s : State) (a : Acc),
      s.dev.takes 0xE080 a = true ∧ s.dev.on F.TKT_STAT_BUSY = false ∧ s.dev.adm.halted = false ∧ s.dev.rd F.PM_STAT_STATE ≠ 2) ∧
    (∃ (s : State) (a : Acc),
      s.dev.takes 0xE080 a = true ∧ s.dev.on F.TKT_STAT_BUSY = true) ∧
    (∃ (s : State) (v : Word) (a : Acc),
      s.dev.takes 0xE000 a = true ∧ fld v.toNat 1 1 = s.dev.rd F.ADM_CTL_PFMEN) ∧
    (∃ (s : State) (hi : Bool) (a : Acc),
      s.dev.takes (if hi then 0xE014 else 0xE010) a = true ∧ s.dev.on F.ADM_CTL_EN = false ∧ s.dev.rd F.THL_FREE_FREE = 0x100000) ∧
    (∃ (s : State) (hi : Bool) (v : Word) (a : Acc),
      s.dev.takes (if hi then 0xE014 else 0xE010) a = true ∧ s.dev.on F.ADM_CTL_EN = true ∧
      (if hi then v.toNat ≠ s.dev.rd F.THL_BASE_HI_ADDR else fld v.toNat 16 16 ≠ s.dev.rd F.THL_BASE_LO_ADDR)) :=
  ⟨⟨wWith [(F.ADM_CTL_EN, 0, 1), (F.SQ_CFG_EN.ix 3, 0, 1), (F.SQ_CFG_WEIGHT.ix 3, 0, 4), (F.SQ_CFG_SIZE.ix 3, 0, 5), (F.SQ_DB_TAIL.ix 3, 0, 20), (F.SQ_DB_HEAD.ix 3, 0, 7)], 3, 4, 4, by decide +kernel⟩,
    ⟨wReady, {}, by decide +kernel⟩,
    ⟨wWith [(F.TKT_STAT_BUSY, 0, 1)], {}, by decide +kernel⟩,
    ⟨wReady, 1, {}, by decide +kernel⟩,
    ⟨wWith [(F.THL_FREE_FREE, 0, 0x100000)], true, {}, by decide +kernel⟩,
    ⟨wWith [(F.ADM_CTL_EN, 0, 1)], true, 0x12340000, {}, by decide +kernel⟩⟩

/-- Each clause of `Obligations.TicketAdmission` has a state and operands that meet its hypotheses. -/
theorem witness_ticket_admission :
    (∃ (s : State) (d : Dev) (h : Hand) (r : List Hand) (st : Nat) (det : Nat),
      s.dev.live = true ∧ d = latchAll (beforeAdmit s.dev) ∧ admReady d = true ∧ s.dev.adm.sweep = none ∧ s.dev.adm.direct = none ∧ s.dev.adm.hand = h :: r ∧
      h.sq ≠ 0xFF ∧ h.ue = false ∧ s.dev.adm.rejects = [] ∧ admitCheck d h = some (st, det) ∧ (¬ (st = 0x60 ∧ (det = 0x0B ∨ det = 0x0C)))) ∧
    (∃ (s : State) (d : Dev) (h : Hand) (r : List Hand) (c : Nat) (n : Nat) (b : Bool) (f : List (Nat × Nat × Bool)),
      s.dev.live = true ∧ d = latchAll (beforeAdmit s.dev) ∧ admReady d = true ∧ s.dev.adm.sweep = none ∧ s.dev.adm.direct = none ∧ s.dev.adm.hand = h :: r ∧
      h.sq ≠ 0xFF ∧ h.ue = false ∧ s.dev.adm.rejects = [] ∧ admitCheck d h = none ∧ mayTakeCell d h = true ∧ s.dev.adm.free = (c, n, b) :: f ∧
      tStr h.bytes = false ∧ tLmap h.bytes = false) :=
  ⟨⟨{ wWith [(F.CQ_CFG_EN.ix 2, 0, 1)] with dev.adm.hand := [{ sq := 3, slot := 5, bytes := leBytes 1 0x01 ++ leBytes 1 0 ++ leBytes 1 1 ++ leBytes 1 2 ++ List.replicate 44 0 ++ leBytes 8 9 ++ leBytes 8 0 }] }, latchAll (beforeAdmit ({ wWith [(F.CQ_CFG_EN.ix 2, 0, 1)] with dev.adm.hand := [{ sq := 3, slot := 5, bytes := leBytes 1 0x01 ++ leBytes 1 0 ++ leBytes 1 1 ++ leBytes 1 2 ++ List.replicate 44 0 ++ leBytes 8 9 ++ leBytes 8 0 }] } : State).dev), { sq := 3, slot := 5, bytes := leBytes 1 0x01 ++ leBytes 1 0 ++ leBytes 1 1 ++ leBytes 1 2 ++ List.replicate 44 0 ++ leBytes 8 9 ++ leBytes 8 0 }, [], 0x60, 3, by decide +kernel⟩,
    ⟨{ wWith [(F.CQ_CFG_EN.ix 2, 0, 1), (F.LOT_EN.ix 5, 0, 1), (F.LOT_CLASSES.ix 5, 0, 15), (F.DIE_STAT_STATE, 0, 1), (F.DIE_GEOM0_PPB, 0, 256), (F.DIE_GEOM1_PGLEN, 0, 18432), (F.TN_CFG_EN, 0, 1), (F.CH_STAT_IF, 0, 1), (F.THL_FREE_FREE, 0, 0x100000), (F.ADM_CTL_EN, 0, 1)] with dev.adm.hand := [{ sq := 3, slot := 5, bytes := leBytes 1 0x05 ++ leBytes 1 0 ++ leBytes 1 1 ++ leBytes 1 2 ++ List.replicate 44 0 ++ leBytes 8 9 ++ leBytes 8 0 }] }, latchAll (beforeAdmit ({ wWith [(F.CQ_CFG_EN.ix 2, 0, 1), (F.LOT_EN.ix 5, 0, 1), (F.LOT_CLASSES.ix 5, 0, 15), (F.DIE_STAT_STATE, 0, 1), (F.DIE_GEOM0_PPB, 0, 256), (F.DIE_GEOM1_PGLEN, 0, 18432), (F.TN_CFG_EN, 0, 1), (F.CH_STAT_IF, 0, 1), (F.THL_FREE_FREE, 0, 0x100000), (F.ADM_CTL_EN, 0, 1)] with dev.adm.hand := [{ sq := 3, slot := 5, bytes := leBytes 1 0x05 ++ leBytes 1 0 ++ leBytes 1 1 ++ leBytes 1 2 ++ List.replicate 44 0 ++ leBytes 8 9 ++ leBytes 8 0 }] } : State).dev), { sq := 3, slot := 5, bytes := leBytes 1 0x05 ++ leBytes 1 0 ++ leBytes 1 1 ++ leBytes 1 2 ++ List.replicate 44 0 ++ leBytes 8 9 ++ leBytes 8 0 }, [], 0, 1048576, false, [], by decide +kernel⟩⟩

/-- Each clause of `Obligations.CellTrafficAndSweep` has a state and operands that meet its hypotheses. -/
theorem witness_cell_traffic_and_sweep :
    (∃ (s : State) (c : Fin 1048576) (x : Cell) (a : Answer) (r : List Answer),
      s.dev.live = true ∧ s.dev.answers = a :: r ∧ a.what = .cellWrite c ∧ a.code = 0 ∧ look s.dev.cells c = some x ∧ x.fresh = true ∧
      (x.started = true ∨ x.out = none)) ∧
    (∃ (s : State) (c : Fin 1048576) (x : Cell) (a : Answer) (r : List Answer) (d : Dev),
      s.dev.live = true ∧ s.dev.answers = a :: r ∧ a.what = .cellWrite c ∧ a.code = 0 ∧ look s.dev.cells c = some x ∧ x.fresh = true ∧ x.started = false ∧
      x.out.isSome = true ∧ d = { s.dev with answers := r, cells := ins s.dev.cells c { x with fresh := false } } ∧ otherCells d < 1024) ∧
    (∃ (s : State) (c : Fin 1048576) (x : Cell) (a : Answer) (r : List Answer),
      s.dev.live = true ∧ s.dev.answers = a :: r ∧ a.what = .cellFetch c false ∧ a.code = 0 ∧ a.ue = false ∧ look s.dev.cells c = some x ∧
      x.fetching = true ∧ x.out = none ∧ cellCheck a.bytes 1 = true) ∧
    (∃ (s : State) (c : Fin 1048576) (x : Cell) (a : Answer) (r : List Answer),
      s.dev.live = true ∧ s.dev.answers = a :: r ∧ a.what = .cellFetch c false ∧ a.code = 0 ∧ a.ue = false ∧ look s.dev.cells c = some x ∧
      x.fetching = true ∧ x.out = none ∧ cellCheck a.bytes 1 = false) ∧
    (∃ (s : State) (v : Word) (a : Acc) (e : Dev),
      s.dev.takes 0xE024 a = true ∧ s.dev.adm.sweep = none ∧ s.dev.cells = [] ∧
      (e = (let d := s.dev.wr F.THL_SWEEP_REBUILD (fld v.toNat 1 1); if fld v.toNat 1 1 = 1 ∨ s.dev.on F.ADM_STAT_FLBROKEN = true then ({ d with adm := { d.adm with free := [] } } : Dev).wr F.THL_FREE_FREE 0 else d))) ∧
    (∃ (s : State) (w : Sweep),
      s.dev.live = true ∧ s.dev.adm.sweep = some w ∧ w.reading = false ∧ 1048576 ≤ w.next) :=
  ⟨⟨{ wReady with dev.answers := [{ what := .cellWrite 7, code := 0, req := { what := .cellWrite 7, addr := 0, len := 64 } }], dev.cells := [(7, { tkt := leBytes 1 0x05 ++ leBytes 1 0 ++ leBytes 1 1 ++ leBytes 1 2 ++ List.replicate 44 0 ++ leBytes 8 9 ++ leBytes 8 0 })] }, 7, { tkt := leBytes 1 0x05 ++ leBytes 1 0 ++ leBytes 1 1 ++ leBytes 1 2 ++ List.replicate 44 0 ++ leBytes 8 9 ++ leBytes 8 0 }, { what := .cellWrite 7, code := 0, req := { what := .cellWrite 7, addr := 0, len := 64 } }, [], by decide +kernel⟩,
    ⟨{ wReady with dev.answers := [{ what := .cellWrite 7, code := 0, req := { what := .cellWrite 7, addr := 0, len := 64 } }], dev.cells := [(7, { tkt := leBytes 1 0x05 ++ leBytes 1 0 ++ leBytes 1 1 ++ leBytes 1 2 ++ List.replicate 44 0 ++ leBytes 8 9 ++ leBytes 8 0, out := some { status := 0x50 } })] }, 7, { tkt := leBytes 1 0x05 ++ leBytes 1 0 ++ leBytes 1 1 ++ leBytes 1 2 ++ List.replicate 44 0 ++ leBytes 8 9 ++ leBytes 8 0, out := some { status := 0x50 } }, { what := .cellWrite 7, code := 0, req := { what := .cellWrite 7, addr := 0, len := 64 } }, [], { ({ wReady with dev.answers := [{ what := .cellWrite 7, code := 0, req := { what := .cellWrite 7, addr := 0, len := 64 } }], dev.cells := [(7, { tkt := leBytes 1 0x05 ++ leBytes 1 0 ++ leBytes 1 1 ++ leBytes 1 2 ++ List.replicate 44 0 ++ leBytes 8 9 ++ leBytes 8 0, out := some { status := 0x50 } })] } : State).dev with answers := ([] : List Answer), cells := ins ({ wReady with dev.answers := [{ what := .cellWrite 7, code := 0, req := { what := .cellWrite 7, addr := 0, len := 64 } }], dev.cells := [(7, { tkt := leBytes 1 0x05 ++ leBytes 1 0 ++ leBytes 1 1 ++ leBytes 1 2 ++ List.replicate 44 0 ++ leBytes 8 9 ++ leBytes 8 0, out := some { status := 0x50 } })] } : State).dev.cells (7 : Fin 1048576) { ({ tkt := leBytes 1 0x05 ++ leBytes 1 0 ++ leBytes 1 1 ++ leBytes 1 2 ++ List.replicate 44 0 ++ leBytes 8 9 ++ leBytes 8 0, out := some { status := 0x50 } } : Cell) with fresh := false } }, by decide +kernel⟩,
    ⟨{ wReady with dev.answers := [{ what := .cellFetch 7 false, code := 0, bytes := cellBytes { tkt := leBytes 1 0x05 ++ leBytes 1 0 ++ leBytes 1 1 ++ leBytes 1 2 ++ List.replicate 44 0 ++ leBytes 8 9 ++ leBytes 8 0 } 0xFFFFF 1, req := { what := .cellFetch 7 false, addr := 0, len := 64 } }], dev.cells := [(7, { tkt := leBytes 1 0x05 ++ leBytes 1 0 ++ leBytes 1 1 ++ leBytes 1 2 ++ List.replicate 44 0 ++ leBytes 8 9 ++ leBytes 8 0, fetching := true, cached := false })] }, 7, { tkt := leBytes 1 0x05 ++ leBytes 1 0 ++ leBytes 1 1 ++ leBytes 1 2 ++ List.replicate 44 0 ++ leBytes 8 9 ++ leBytes 8 0, fetching := true, cached := false }, { what := .cellFetch 7 false, code := 0, bytes := cellBytes { tkt := leBytes 1 0x05 ++ leBytes 1 0 ++ leBytes 1 1 ++ leBytes 1 2 ++ List.replicate 44 0 ++ leBytes 8 9 ++ leBytes 8 0 } 0xFFFFF 1, req := { what := .cellFetch 7 false, addr := 0, len := 64 } }, [], by decide +kernel⟩,
    ⟨{ wReady with dev.answers := [{ what := .cellFetch 7 false, code := 0, bytes := [], req := { what := .cellFetch 7 false, addr := 0, len := 64 } }], dev.cells := [(7, { tkt := leBytes 1 0x05 ++ leBytes 1 0 ++ leBytes 1 1 ++ leBytes 1 2 ++ List.replicate 44 0 ++ leBytes 8 9 ++ leBytes 8 0, fetching := true, cached := false })] }, 7, { tkt := leBytes 1 0x05 ++ leBytes 1 0 ++ leBytes 1 1 ++ leBytes 1 2 ++ List.replicate 44 0 ++ leBytes 8 9 ++ leBytes 8 0, fetching := true, cached := false }, { what := .cellFetch 7 false, code := 0, bytes := [], req := { what := .cellFetch 7 false, addr := 0, len := 64 } }, [], by decide +kernel⟩,
    ⟨wReady, 0x2, {}, (let d := (wReady : State).dev.wr F.THL_SWEEP_REBUILD (fld (0x2 : Word).toNat 1 1); if fld (0x2 : Word).toNat 1 1 = 1 ∨ (wReady : State).dev.on F.ADM_STAT_FLBROKEN = true then ({ d with adm := { d.adm with free := [] } } : Dev).wr F.THL_FREE_FREE 0 else d), by decide +kernel⟩,
    ⟨{ wReady with dev.adm.sweep := some { next := 1048576, rebuild := true } }, { next := 1048576, rebuild := true }, by decide +kernel⟩⟩

/-- Each clause of `Obligations.CompletionRings` has a state and operands that meet its hypotheses. -/
theorem witness_completion_rings :
    (∃ (s : State) (j : Fin 64) (v : Word) (a : Acc),
      s.dev.takes (0xE808 + 0x10 * j.val) a = true ∧ s.dev.on (F.CQ_CFG_EN.ix j) = false ∧ fld v.toNat 0 1 = 1 ∧ 4 ≤ fld v.toNat 2 5 ∧ fld v.toNat 2 5 ≤ 16 ∧
      (s.dev.cqs j).held = [] ∧ (s.dev.cqs j).first = 0) ∧
    (∃ (s : State) (j : Fin 64) (v : Word) (a : Acc),
      s.dev.takes (0xE80C + 0x10 * j.val) a = true ∧ cqHeadOk s.dev j (v.toNat % 2 ^ 16) = true) ∧
    (∃ (s : State) (j : Fin 64) (v : Word) (a : Acc),
      s.dev.takes (0xE80C + 0x10 * j.val) a = true ∧ cqHeadOk s.dev j (v.toNat % 2 ^ 16) = false) ∧
    (∃ (s : State) (c : Nat) (x : Cell) (o : Outcome),
      s.dev.live = true ∧ look s.dev.cells c = some x ∧ x.started = true ∧ x.out = some o ∧ x.writes = 0 ∧ x.rxLeft = 0 ∧ x.taking = false ∧
      x.manifest = false ∧ s.dev.on (F.CQ_CFG_EN.ix (tCq x.tkt)) = true ∧ (s.dev.cqs (tCq x.tkt)).busy = none ∧ (s.dev.cqs (tCq x.tkt)).held = [] ∧
      (s.dev.cqs (tCq x.tkt)).first = 0 ∧ cqFull s.dev (tCq x.tkt) = false) ∧
    (∃ (s : State) (j : Fin 64) (k : Nat) (a : Answer) (r : List Answer) (slot : Nat) (n : Nat),
      s.dev.live = true ∧ s.dev.answers = a :: r ∧ a.what = .record j slot ∧ a.code = 0 ∧ (s.dev.cqs j).busy = some (.reject k) ∧ (s.dev.cqs j).held = [] ∧
      k ≠ 0xFF ∧ n = (s.dev.rd (F.CQ_DB_TAIL.ix j) + 1) % 2 ^ s.dev.rd (F.CQ_CFG_SIZE.ix j)) ∧
    (∃ (s : State) (j : Fin 64) (k : Nat) (a : Answer) (r : List Answer) (slot : Nat),
      s.dev.live = true ∧ s.dev.answers = a :: r ∧ a.what = .record j slot ∧ a.code ≠ 0 ∧ a.req.tries = 4 ∧ (s.dev.cqs j).busy = some (.reject k) ∧
      (s.dev.cqs j).held = []) :=
  ⟨⟨wReady, 9, 0x17, {}, by decide +kernel⟩,
    ⟨wWith [(F.CQ_CFG_EN.ix 9, 0, 1), (F.CQ_DB_TAIL.ix 9, 0, 13), (F.CQ_DB_HEAD.ix 9, 0, 10)], 9, 12, {}, by decide +kernel⟩,
    ⟨wWith [(F.CQ_CFG_EN.ix 9, 0, 1), (F.CQ_DB_TAIL.ix 9, 0, 13), (F.CQ_DB_HEAD.ix 9, 0, 10)], 9, 14, {}, by decide +kernel⟩,
    ⟨{ wWith [(F.CQ_CFG_EN.ix 2, 0, 1)] with dev.cells := [(7, { tkt := leBytes 1 0x05 ++ leBytes 1 0 ++ leBytes 1 1 ++ leBytes 1 2 ++ List.replicate 44 0 ++ leBytes 8 9 ++ leBytes 8 0, started := true, st := 4, out := some { status := 0 } })] }, 7, { tkt := leBytes 1 0x05 ++ leBytes 1 0 ++ leBytes 1 1 ++ leBytes 1 2 ++ List.replicate 44 0 ++ leBytes 8 9 ++ leBytes 8 0, started := true, st := 4, out := some { status := 0 } }, { status := 0 }, by decide +kernel⟩,
    ⟨{ wWith [(F.CQ_CFG_EN.ix 2, 0, 1), (F.CQ_DB_TAIL.ix 2, 0, 15)] with dev.answers := [{ what := .record 2 15, code := 0, req := { what := .record 2 15, addr := 0, len := 32 } }], dev.cq := [(2, { busy := some (.reject 3), reserved := 1 })] }, 2, 3, { what := .record 2 15, code := 0, req := { what := .record 2 15, addr := 0, len := 32 } }, [], 15, 0, by decide +kernel⟩,
    ⟨{ wWith [(F.CQ_CFG_EN.ix 2, 0, 1), (F.CQ_DB_TAIL.ix 2, 0, 15)] with dev.answers := [{ what := .record 2 15, code := 1, req := { what := .record 2 15, addr := 0, len := 32, tries := 4 } }], dev.cq := [(2, { busy := some (.reject 3), reserved := 1 })] }, 2, 3, { what := .record 2 15, code := 1, req := { what := .record 2 15, addr := 0, len := 32, tries := 4 } }, [], 15, by decide +kernel⟩⟩

/-- Each clause of `Obligations.TelemetryPop` has a state and operands that meet its hypotheses. -/
theorem witness_telemetry_pop :
    (∃ (s : State) (q : Fin 16) (a : Acc) (x : TqSt) (w : List Nat) (r : List (List Nat)),
      s.dev.takes (0xEC0C + 0x40 * q.val) a = true ∧ look s.dev.tq q = some x ∧ x.closed = w :: r) ∧
    (∃ (s : State) (q : Fin 16) (a : Acc),
      s.dev.takes (0xEC0C + 0x40 * q.val) a = true ∧ look s.dev.tq q = none) :=
  ⟨⟨{ wReady with dev.tq := [(5, { closed := [[1, 2, 3, 4, 5, 6, 7, 8], [9]], opened := [10] })] }, 5, {}, { closed := [[1, 2, 3, 4, 5, 6, 7, 8], [9]], opened := [10] }, [1, 2, 3, 4, 5, 6, 7, 8], [[9]], by decide +kernel⟩,
    ⟨wReady, 5, {}, by decide +kernel⟩⟩

/-- Each clause of `Obligations.PowerFailSequence` has a state and operands that meet its hypotheses. -/
theorem witness_power_fail_sequence :
    (∃ (s : State),
      s.dev.pins.pfailN = true) ∧
    (∃ (s : State),
      s.dev.pins.pfailN = false ∧ s.dev.inReset = false ∧ s.dev.pfSeen = false ∧ s.dev.cclkOn = false ∧ s.dev.pm.causes = [] ∧ s.dev.nor.undone = [] ∧
      s.dev.th.record = none) ∧
    (∃ (s : State),
      s.dev.pins.pfailN = false ∧ s.dev.inReset = false ∧ s.dev.pfSeen = false ∧ s.dev.cclkOn = true ∧ s.dev.rd F.BOOT_STAT_PHASE = 7 ∧
      s.dev.rd F.PM_STAT_STATE = 0 ∧ s.dev.on F.FS_STAT_ACTIVE = false) ∧
    (∃ (s : State),
      s.dev.live = true ∧ s.dev.fs.pfail = true ∧ s.dev.fs.tw = false ∧ ctxsOf s.dev = []) ∧
    (∃ (s : State) (k : Nat) (d : Dev),
      s.dev.live = true ∧ s.dev.pfm.phase = 1 ∧ s.dev.pfm.cells[s.dev.pfm.next]? = some k ∧ (s.dev.cell k).out = some { status := 0x41, detail := 3 } ∧
      d = chargeCell k s.dev) ∧
    (∃ (s : State),
      s.dev.live = true ∧ s.dev.pfm.phase = 1 ∧ s.dev.pfm.next = s.dev.pfm.cells.length ∧ s.dev.pfm.tries = 0) ∧
    (∃ (s : State),
      s.dev.live = true ∧ s.dev.pfm.armDue = true) ∧
    (∃ (s : State),
      s.dev.live = true ∧ s.dev.pfm.reading = true ∧ s.dev.pfm.bad = true ∧ 139264 ≤ s.dev.pfm.got.length) :=
  ⟨⟨wReady, by decide +kernel⟩,
    ⟨{ wWith [(F.PM_STAT_STATE, 0, 3)] with dev.pins.pfailN := false }, by decide +kernel⟩,
    ⟨{ wReady with dev.pins.pfailN := false }, by decide +kernel⟩,
    ⟨{ wReady with dev.fs.pfail := true }, by decide +kernel⟩,
    ⟨{ wReady with dev.pfm.phase := 1, dev.pfm.cells := [7], dev.cells := [(7, { tkt := leBytes 1 0x05 ++ leBytes 1 0 ++ leBytes 1 1 ++ leBytes 1 2 ++ List.replicate 44 0 ++ leBytes 8 9 ++ leBytes 8 0, started := true, out := some { status := 0x41, detail := 3 } })] }, 7, chargeCell 7 ({ wReady with dev.pfm.phase := 1, dev.pfm.cells := [7], dev.cells := [(7, { tkt := leBytes 1 0x05 ++ leBytes 1 0 ++ leBytes 1 1 ++ leBytes 1 2 ++ List.replicate 44 0 ++ leBytes 8 9 ++ leBytes 8 0, started := true, out := some { status := 0x41, detail := 3 } })] } : State).dev, by decide +kernel⟩,
    ⟨{ wReady with dev.pfm.phase := 1 }, by decide +kernel⟩,
    ⟨{ wReady with dev.pfm.armDue := true }, by decide +kernel⟩,
    ⟨{ wReady with dev.pfm.reading := true, dev.pfm.bad := true, dev.pfm.got := List.replicate 139264 0 }, by decide +kernel⟩⟩

/-- Each clause of `Obligations.NanowordEnds` has a state and operands that meet its hypotheses. -/
theorem witness_nanoword_ends :
    (∃ (s : State) (c : Fin 32) (n : NanoIn) (id : Nat) (x : Ctx) (a : Nat) (mw : Nat) (w : Nat) (a2 : Nat) (mw2 : Nat) (w2 : Nat),
      s.dev.live = true ∧ s.dev.on F.TST_INJ_LINKERR c = false ∧ (s.dev.chn c).run = some id ∧ s.dev.ctx c id = some x ∧ x.st = .running ∧
      x.linkErr = false ∧ x.committed = false ∧ dieFenced s.dev x.dix = false ∧ s.dev.on F.TH_STAT_HALT = false ∧ s.dev.rd F.TST_LBCTL_DEPTH c ≠ 5 ∧
      n.local_ = .clean ∧ n.fetch = .clean ∧ nanoOf s.dev c x = some (a, mw, w) ∧ nwLegal w = true ∧ nwCyc w = 1 ∧ mwSeq mw = 0 ∧ nwPlnext w = false ∧
      nanoOf s.dev c { x with mw := a + 1 } = some (a2, mw2, w2) ∧ nwLegal w2 = true ∧ mwSeq mw2 < 6 ∧ nwCyc w2 ≠ 6) ∧
    (∃ (s : State) (c : Fin 32) (id : Nat) (x : Ctx) (a : Nat) (mw : Nat) (w : Nat),
      s.dev.live = true ∧ s.dev.on F.TST_INJ_LINKERR c = false ∧ (s.dev.chn c).run = some id ∧ s.dev.ctx c id = some x ∧ nanoOf s.dev c x = some (a, mw, w) ∧
      nwLegal w = true ∧ mwSeq mw ≤ 6 ∧ nwCyc w = 6 ∧ nwPark w = false ∧ x.resample = false) ∧
    (∃ (s : State) (c : Fin 32),
      s.dev.live = true ∧ (s.dev.chn c).run = none) :=
  ⟨⟨{ wReady with dev.cls := [(0, { pmw := [(0, 0x0800), (1, 0x0801), (2, 0x2801)], pnw := [(0, (1 * 2 ^ 8 + 0x60 * 2 ^ 12)), (1, (5 * 2 ^ 8))] })], dev.chs := [(0, { ctxs := [(4, { mw := 0x4000, st := .running, dix := 1, entry := 0x4000 })], run := some 4 })] }, 0, {}, 4, { mw := 0x4000, st := .running, dix := 1, entry := 0x4000 }, 0x4000, 0x0800, (1 * 2 ^ 8 + 0x60 * 2 ^ 12), 0x4001, 0x0801, (5 * 2 ^ 8), by decide +kernel⟩,
    ⟨{ wReady with dev.cls := [(0, { pmw := [(0, 0x0800)], pnw := [(0, 6 * 2 ^ 8)] })], dev.chs := [(0, { ctxs := [(4, { mw := 0x4000, st := .running, dix := 1 })], run := some 4 })] }, 0, 4, { mw := 0x4000, st := .running, dix := 1 }, 0x4000, 0x0800, (6 * 2 ^ 8), by decide +kernel⟩,
    ⟨wReady, 0, by decide +kernel⟩⟩

/-- Each clause of `Obligations.ReadinessAndRestarts` has a state and operands that meet its hypotheses. -/
theorem witness_readiness_and_restarts :
    (∃ (s : State) (c : Fin 32) (g : Fin 2),
      groupBusy s.dev c g = []) ∧
    (∃ (s : State) (c : Fin 32) (g : Fin 2) (id : Nat) (x : Ctx),
      s.dev.live = true ∧ s.dev.on F.FS_STAT_ACTIVE = false ∧ phyAwake s.dev c = true ∧ bit (s.dev.rd F.CH_RB_FB c) g = false ∧
      (s.dev.chn c).ctxs = [(id, x)] ∧ x.st = .parked ∧ x.hang = false ∧ x.committed = true ∧ groupBusy s.dev c g = [x.dix] ∧ dixCh x.dix = c) ∧
    (∃ (s : State) (c : Fin 32) (g : Fin 2) (x : Nat),
      s.dev.live = true ∧ rbSampled s.dev c = true ∧ (groupDies c g).find? (dieFenced s.dev) = some x ∧ groupBusy s.dev c g = []) ∧
    (∃ (s : State) (x : Fin 1024) (st : Nat) (id : Nat) (y : Ctx),
      s.dev.live = true ∧ dieFenced s.dev x = false ∧ s.dev.on F.FS_STAT_ACTIVE = false ∧ (s.dev.chn (dixCh x)).ctxs = [(id, y)] ∧ y.st = .parked ∧
      y.dix = x ∧ inFallback s.dev x = true ∧ st.testBit 6 = false) ∧
    (∃ (s : State) (x : Fin 1024) (id : Nat) (y : Ctx),
      s.dev.live = true ∧ (s.dev.chn (dixCh x)).ctxs = [(id, y)] ∧ y.st = .parked ∧ y.dix = x ∧ y.committed = false ∧ onCommit s.dev (dixCh x) y = false ∧
      dieFenced s.dev x = false ∧ s.dev.on F.TH_STAT_HALT = false ∧ y.restarts < s.dev.rd F.SEQ_CFG_RSTMAX (dixCh x)) ∧
    (∃ (s : State) (c : Fin 32) (id : Nat) (x : Ctx),
      s.dev.live = true ∧ (s.dev.chn c).run = some id ∧ s.dev.ctx c id = some x ∧ x.st = .running) ∧
    (∃ (s : State) (c : Fin 32) (id : Nat) (x : Ctx) (a : Nat) (mw : Nat) (w : Nat),
      s.dev.live = true ∧ (s.dev.chn c).run = some id ∧ s.dev.ctx c id = some x ∧ x.st = .gap ∧ x.committed = false ∧ x.linkErr = false ∧
      dieFenced s.dev x.dix = false ∧ s.dev.on F.TH_STAT_HALT = false ∧ nanoOf s.dev c { x with mw := x.entry } = some (a, mw, w) ∧ nwLegal w = true ∧
      mwSeq mw < 6 ∧ nwCyc w ≠ 6) ∧
    (∃ (s : State) (c : Fin 32) (id : Nat) (x : Ctx),
      s.dev.live = true ∧ (s.dev.chn c).ctxs = [(id, x)] ∧ x.st = .parked ∧ x.committed = true ∧ suspendFor s.dev c { x with minrun := true } = none) :=
  ⟨⟨wReady, 0, 1, by decide +kernel⟩,
    ⟨{ wWith [(F.PM_PHYSTAT_ON, 0, 1)] with dev.chs := [(0, { ctxs := [(4, { mw := 0x4000, st := .parked, dix := 1, cells := [7], committed := true })] })] }, 0, 0, 4, { mw := 0x4000, st := .parked, dix := 1, cells := [7], committed := true }, by decide +kernel⟩,
    ⟨wWith [(F.PM_PHYSTAT_ON, 0, 1), (F.DIE_STAT_STATE, 2, 3)], 0, 0, 2, by decide +kernel⟩,
    ⟨{ wWith [(F.CH_RB_FB, 0, 1)] with dev.chs := [(0, { ctxs := [(4, { mw := 0x4000, st := .parked, dix := 1, cells := [7], committed := true })] })] }, 1, 0, 4, { mw := 0x4000, st := .parked, dix := 1, cells := [7], committed := true }, by decide +kernel⟩,
    ⟨{ wReady with dev.chs := [(0, { ctxs := [(4, { mw := 0x4000, st := .parked, dix := 1, cells := [7] })] })] }, 1, 4, { mw := 0x4000, st := .parked, dix := 1, cells := [7] }, by decide +kernel⟩,
    ⟨{ wReady with dev.chs := [(0, { ctxs := [(4, { mw := 0x4000, st := .running, dix := 1, entry := 0x4000 })], run := some 4 })] }, 0, 4, { mw := 0x4000, st := .running, dix := 1, entry := 0x4000 }, by decide +kernel⟩,
    ⟨{ wReady with dev.cls := [(0, { pmw := [(0, 0x0800), (1, 0x0801), (2, 0x2801)], pnw := [(0, (1 * 2 ^ 8 + 0x60 * 2 ^ 12)), (1, (5 * 2 ^ 8))] })], dev.chs := [(0, { ctxs := [(4, { mw := 0x4000, st := .gap, dix := 1, entry := 0x4000 })], run := some 4 })] }, 0, 4, { mw := 0x4000, st := .gap, dix := 1, entry := 0x4000 }, 0x4000, 0x0800, (1 * 2 ^ 8 + 0x60 * 2 ^ 12), by decide +kernel⟩,
    ⟨{ wReady with dev.chs := [(0, { ctxs := [(4, { mw := 0x4000, st := .parked, dix := 1, committed := true })] })] }, 0, 4, { mw := 0x4000, st := .parked, dix := 1, committed := true }, by decide +kernel⟩⟩

/-- Each clause of `Obligations.PatchRegisters` has a state and operands that meet its hypotheses. -/
theorem witness_patch_registers :
    (∃ (s : State) (a : Acc),
      s.dev.takes 0xF000 a = true ∧ s.dev.on F.PAT_STAT_BUSY (s.dev.named 0xF000 a) = false ∧ s.dev.rd F.UPD_SWAP_STATE ≠ 1 ∧ s.dev.rd F.UPD_SWAP_STATE ≠ 2) ∧
    (∃ (s : State) (a : Acc),
      s.dev.takes 0xF000 a = true ∧ s.dev.on F.PAT_STAT_BUSY (s.dev.named 0xF000 a) = false ∧ s.dev.rd F.UPD_SWAP_STATE ≠ 1 ∧ s.dev.rd F.UPD_SWAP_STATE ≠ 2) ∧
    (∃ (s : State) (a : Acc),
      s.dev.takes 0xF000 a = true ∧ s.dev.on F.PAT_STAT_BUSY (s.dev.named 0xF000 a) = true) ∧
    (∃ (s : State) (cl : Fin 4) (p : PatLoad),
      s.dev.live = true ∧ (s.dev.clu cl).pat = some p ∧ p.phase = 1 ∧ p.clear = true ∧ clusterQuiet s.dev cl = true) ∧
    (∃ (s : State) (cl : Fin 4) (p : PatLoad),
      s.dev.live = true ∧ (s.dev.clu cl).pat = some p ∧ p.phase = 2 ∧ p.swap = false ∧ p.err = true) ∧
    (∃ (s : State) (cl : Fin 4) (p : PatLoad),
      s.dev.live = true ∧ (s.dev.clu cl).pat = some p ∧ p.phase = 2 ∧ p.swap = false ∧ p.err = false ∧ s.dev.rd F.PAT_LEN_LEN cl ≤ p.pos ∧
      imgCheck (some cl.val) (s.dev.rd F.PAT_LEN_LEN cl) (s.dev.rd F.PAT_MINVER_MINVER cl) (keyInForce s.dev) p.got = none) ∧
    (∃ (s : State) (v : Word) (a : Acc),
      s.dev.takes 0xF018 a = true ∧ s.dev.rd F.PAT_MINVER_MINVER (s.dev.named 0xF018 a) ≤ v.toNat) ∧
    (∃ (s : State) (v : Word) (a : Acc),
      s.dev.takes 0xF018 a = true ∧ v.toNat < s.dev.rd F.PAT_MINVER_MINVER (s.dev.named 0xF018 a)) :=
  ⟨⟨wReady, {}, by decide +kernel⟩,
    ⟨wReady, {}, by decide +kernel⟩,
    ⟨wWith [(F.PAT_STAT_BUSY, 0, 1)], {}, by decide +kernel⟩,
    ⟨{ wReady with dev.cls := [(2, { pat := some { clear := true }, pmw := [(0, 1)] })] }, 2, { clear := true }, by decide +kernel⟩,
    ⟨{ wReady with dev.cls := [(2, { pat := some { phase := 2, err := true, pos := 64 } })] }, 2, { phase := 2, err := true, pos := 64 }, by decide +kernel⟩,
    ⟨{ wWith [(F.PAT_LEN_LEN, 2, 96), (F.SC_KEY_KV, 0, 1)] with dev.cls := [(2, { pat := some { phase := 2, got := wImage, pos := 96 } })], dev.upd.key := some wKey }, 2, { phase := 2, got := wImage, pos := 96 }, by decide +kernel⟩,
    ⟨wWith [(F.PAT_MINVER_MINVER, 0, 5)], 9, {}, by decide +kernel⟩,
    ⟨wWith [(F.PAT_MINVER_MINVER, 0, 5)], 4, {}, by decide +kernel⟩⟩

/-- Each clause of `Obligations.SlalomAndStaging` has a state and operands that meet its hypotheses. -/
theorem witness_slalom_and_staging :
    (∃ (s : State) (c : Fin 32),
      s.dev.live = true ∧ (s.dev.chn c).run.isSome = true) ∧
    (∃ (s : State) (c : Fin 32) (b : Bool) (d : Dev) (g : Dev) (f : Dev),
      s.dev.live = true ∧ s.dev.on F.FS_STAT_ACTIVE = false ∧ s.dev.fs.pfail = false ∧ (s.dev.chn c).run = none ∧
      d = rateGo c (liftCycle b (beforeSelect c s.dev)) ∧ d.live = true ∧ d.on F.FS_STAT_ACTIVE = false ∧ d.fs.pfail = false ∧ (d.chn c).run = none ∧
      g = beforeChoice c d ∧ f = starveIdle c (candidates g c) (clearIdleGroups c (candidates g c) g) ∧ (f.chn c).run = none ∧
      (f.chn c).cal.forced = false ∧ waitingClass f c = none ∧ candidate f c = none ∧ candidates g c ≠ []) ∧
    (∃ (s : State) (k : Fin 1048576) (x : Cell),
      s.dev.live = true ∧ look s.dev.cells k = some x ∧ tOpc x.tkt = opRead ∧ x.started = false ∧ x.out = none ∧ x.prof = none ∧
      (s.dev.queue (cellKey x)).head? = some k.val ∧ s.dev.adm.halted = false ∧ check10 s.dev x = true ∧
      stagingFits s.dev (dixCh x.dix) (stagingNeed s.dev x.tkt) = true) :=
  ⟨⟨{ wReady with dev.chs := [(0, { run := some 4 })] }, 0, by decide +kernel⟩,
    ⟨{ wWith [(F.PM_PHYSTAT_ON, 0, 1)] with dev.chs := [(0, { ctxs := [(4, { mw := 0x4000, st := .ready, dix := 1, cells := [7], committed := true })] })] }, 0, false, rateGo (0 : Fin 32) (liftCycle (false : Bool) (beforeSelect (0 : Fin 32) ({ wWith [(F.PM_PHYSTAT_ON, 0, 1)] with dev.chs := [(0, { ctxs := [(4, { mw := 0x4000, st := .ready, dix := 1, cells := [7], committed := true })] })] } : State).dev)), beforeChoice (0 : Fin 32) (rateGo (0 : Fin 32) (liftCycle (false : Bool) (beforeSelect (0 : Fin 32) ({ wWith [(F.PM_PHYSTAT_ON, 0, 1)] with dev.chs := [(0, { ctxs := [(4, { mw := 0x4000, st := .ready, dix := 1, cells := [7], committed := true })] })] } : State).dev)) : Dev), starveIdle (0 : Fin 32) (candidates (beforeChoice (0 : Fin 32) (rateGo (0 : Fin 32) (liftCycle (false : Bool) (beforeSelect (0 : Fin 32) ({ wWith [(F.PM_PHYSTAT_ON, 0, 1)] with dev.chs := [(0, { ctxs := [(4, { mw := 0x4000, st := .ready, dix := 1, cells := [7], committed := true })] })] } : State).dev)) : Dev) : Dev) (0 : Fin 32)) (clearIdleGroups (0 : Fin 32) (candidates (beforeChoice (0 : Fin 32) (rateGo (0 : Fin 32) (liftCycle (false : Bool) (beforeSelect (0 : Fin 32) ({ wWith [(F.PM_PHYSTAT_ON, 0, 1)] with dev.chs := [(0, { ctxs := [(4, { mw := 0x4000, st := .ready, dix := 1, cells := [7], committed := true })] })] } : State).dev)) : Dev) : Dev) (0 : Fin 32)) (beforeChoice (0 : Fin 32) (rateGo (0 : Fin 32) (liftCycle (false : Bool) (beforeSelect (0 : Fin 32) ({ wWith [(F.PM_PHYSTAT_ON, 0, 1)] with dev.chs := [(0, { ctxs := [(4, { mw := 0x4000, st := .ready, dix := 1, cells := [7], committed := true })] })] } : State).dev)) : Dev) : Dev)), by decide +kernel⟩,
    ⟨{ wWith [(F.DIE_GEOM1_PGLEN, 0, 18432)] with dev.cells := [(7, { tkt := leBytes 1 0x01 ++ leBytes 1 0 ++ leBytes 1 1 ++ leBytes 1 2 ++ leBytes 2 0 ++ leBytes 6 0 ++ leBytes 1 0 ++ leBytes 1 1 ++ leBytes 2 0 ++ List.replicate 32 0 ++ leBytes 8 9 ++ leBytes 8 0 })], dev.dq := [(0, [7])] }, 7, { tkt := leBytes 1 0x01 ++ leBytes 1 0 ++ leBytes 1 1 ++ leBytes 1 2 ++ leBytes 2 0 ++ leBytes 6 0 ++ leBytes 1 0 ++ leBytes 1 1 ++ leBytes 2 0 ++ List.replicate 32 0 ++ leBytes 8 9 ++ leBytes 8 0 }, by decide +kernel⟩⟩

/-- Each clause of `Obligations.LiftTokens` has a state and operands that meet its hypotheses. -/
theorem witness_lift_tokens :
    (∃ (s : State) (ga : Nat) (gi : Nat) (wt : Nat) (r : LReq) (e : Dev) (d : Dev),
      s.dev.live = true ∧ s.dev.on F.FS_STAT_ACTIVE = false ∧ s.dev.fs.pfail = false ∧ e = beforeGrant s.dev ∧ pickGrant e ga gi = some r ∧ r.who = .wake ∧
      wt ≤ 4 ∧ d = liftDrop r.ch true e ∧ wt * 8 / 100 ≤ d.rd F.LIFT_WAIT_MAXWAIT) ∧
    (∃ (s : State) (r : LReq) (ga : Nat) (gi : Nat) (e : Dev),
      s.dev.live = true ∧ s.dev.on F.FS_STAT_ACTIVE = false ∧ s.dev.fs.pfail = false ∧ e = beforeGrant s.dev ∧ pickGrant e ga gi = some r ∧ r.who = .wake ∧
      costA e r.cost ≤ e.rd F.LIFT_BUDGET_ARRAY ∧ costI e r.cost ≤ e.rd F.LIFT_BUDGET_IO) ∧
    (∃ (s : State) (c : Fin 32) (w : Bool) (q : LReq),
      s.dev.live = true ∧ s.dev.lift.reqs = [q] ∧ q.ch = c ∧ isWake q = w ∧ s.dev.lift.resv = none) ∧
    (∃ (s : State) (c : Fin 32) (a : List Tok) (k : Tok) (b : List Tok),
      s.dev.live = true ∧ s.dev.lift.toks = a ++ k :: b ∧ k.ch = c ∧ k.ctx = none ∧ (a.all (fun j => !(j.ch == c.val && j.ctx.isNone)) = true)) ∧
    (∃ (s : State) (c : Fin 32) (id : Nat),
      s.dev.live = true ∧ s.dev.ctx c id = none) ∧
    (∃ (s : State) (a : Acc),
      s.dev.takes 0x983C a = true ∧ look s.dev.port.latched (a.dom.val * 65536 + 0x983C) = none) :=
  ⟨⟨{ wReady with dev.lift.reqs := [{ ch := 5, who := .wake, cost := 4, rank := 2 }] }, 100000, 100000, 3, { ch := 5, who := .wake, cost := 4, rank := 2 }, beforeGrant ({ wReady with dev.lift.reqs := [{ ch := 5, who := .wake, cost := 4, rank := 2 }] } : State).dev, liftDrop 5 true (beforeGrant ({ wReady with dev.lift.reqs := [{ ch := 5, who := .wake, cost := 4, rank := 2 }] } : State).dev : Dev), by decide +kernel⟩,
    ⟨{ wReady with dev.lift.reqs := [{ ch := 5, who := .wake, cost := 4, rank := 2 }] }, { ch := 5, who := .wake, cost := 4, rank := 2 }, 100000, 100000, beforeGrant ({ wReady with dev.lift.reqs := [{ ch := 5, who := .wake, cost := 4, rank := 2 }] } : State).dev, by decide +kernel⟩,
    ⟨{ wReady with dev.lift.reqs := [{ ch := 5, who := .wake, cost := 4, rank := 2 }] }, 5, true, { ch := 5, who := .wake, cost := 4, rank := 2 }, by decide +kernel⟩,
    ⟨{ wReady with dev.lift.toks := [{ ch := 5, ctx := none, array := 3, io := 4, pgm := false }, { ch := 6, ctx := some 1, array := 7, io := 8, pgm := false }] }, 5, [], { ch := 5, ctx := none, array := 3, io := 4, pgm := false }, [{ ch := 6, ctx := some 1, array := 7, io := 8, pgm := false }], by decide +kernel⟩,
    ⟨{ wReady with dev.lift.toks := [{ ch := 5, ctx := none, array := 3, io := 4, pgm := false }, { ch := 6, ctx := some 1, array := 7, io := 8, pgm := false }] }, 6, 1, by decide +kernel⟩,
    ⟨wWith [(F.LIFT_WAIT_MAXWAIT, 0, 77)], {}, by decide +kernel⟩⟩

/-- `Obligations.TicketStarts` has a state and operands that meet its hypotheses. -/
theorem witness_ticket_starts :
    ∃ (s : State) (ga : Nat) (gi : Nat) (r : LReq) (k : Nat) (x : Cell) (q : List Nat) (e : Dev),
      s.dev.live = true ∧ s.dev.on F.FS_STAT_ACTIVE = false ∧ s.dev.fs.pfail = false ∧ e = beforeGrant s.dev ∧ phyAwake e r.ch = true ∧
      pickGrant e ga gi = some r ∧ queueBroken e (cellKey x) = false ∧ startFaults e [k] = [] ∧ slotsFor e [k] = true ∧ r.who = .start [k] false ∧
      look s.dev.cells k = some x ∧ x.started = false ∧ x.out = none ∧ x.prof.isSome = true ∧ tOpc x.tkt = opStatus ∧ x.stream = none ∧
      dixCh x.dix = r.ch ∧ s.dev.queue (cellKey x) = k :: q ∧ (s.dev.chn r.ch).run = none ∧ s.dev.on F.CH_STAT_RECHG r.ch = false ∧
      rateWaits s.dev r.ch = false ∧ (look (s.dev.clu (chCl r.ch)).rix 0x030).isNone = true :=
  ⟨{ wWith [(F.PM_PHYSTAT_ON, 0, 1), (F.CQ_CFG_EN.ix 2, 0, 1)] with dev.lift.reqs := [{ ch := 0, who := .start [7] false, cost := 6, rank := 0 }], dev.cells := [(7, { tkt := leBytes 1 0x05 ++ leBytes 1 0 ++ leBytes 1 1 ++ leBytes 1 2 ++ List.replicate 44 0 ++ leBytes 8 9 ++ leBytes 8 0, fresh := false, prof := some {} }), (8, { tkt := leBytes 1 0x05 ++ leBytes 1 0 ++ leBytes 1 1 ++ leBytes 1 2 ++ List.replicate 44 0 ++ leBytes 8 9 ++ leBytes 8 0, fresh := false })], dev.dq := [(0, [7, 8])] }, 100000, 100000, { ch := 0, who := .start [7] false, cost := 6, rank := 0 }, 7, { tkt := leBytes 1 0x05 ++ leBytes 1 0 ++ leBytes 1 1 ++ leBytes 1 2 ++ List.replicate 44 0 ++ leBytes 8 9 ++ leBytes 8 0, fresh := false, prof := some {} }, [8], beforeGrant ({ wWith [(F.PM_PHYSTAT_ON, 0, 1), (F.CQ_CFG_EN.ix 2, 0, 1)] with dev.lift.reqs := [{ ch := 0, who := .start [7] false, cost := 6, rank := 0 }], dev.cells := [(7, { tkt := leBytes 1 0x05 ++ leBytes 1 0 ++ leBytes 1 1 ++ leBytes 1 2 ++ List.replicate 44 0 ++ leBytes 8 9 ++ leBytes 8 0, fresh := false, prof := some {} }), (8, { tkt := leBytes 1 0x05 ++ leBytes 1 0 ++ leBytes 1 1 ++ leBytes 1 2 ++ List.replicate 44 0 ++ leBytes 8 9 ++ leBytes 8 0, fresh := false })], dev.dq := [(0, [7, 8])] } : State).dev, by decide +kernel⟩

/-- Each clause of `Obligations.HardDecodes` has a state and operands that meet its hypotheses. -/
theorem witness_hard_decodes :
    (∃ (s : State) (cl : Fin 4) (w : Cw) (r : List Cw) (n : Nat),
      s.dev.live = true ∧ (s.dev.clu cl).staged = w :: r ∧ w.whole = true ∧ freeDecoder s.dev cl = some n ∧ (s.dev.cell w.cell).rxUe = false ∧
      s.dev.unswept = true) ∧
    (∃ (s : State) (cl : Fin 4) (n : Fin 10) (f : DecodeFound) (w : Cw) (y : Cell) (x : Ctx),
      s.dev.live = true ∧ s.dev.unswept = true ∧ decoderHead s.dev cl n = some w ∧ look s.dev.cells w.cell = some y ∧ y.out = none ∧ tOpc y.tkt = opRead ∧
      s.dev.ctx w.ch w.ctx = some x ∧ x.cells = [w.cell] ∧ x.work = .first ∧
      ((y.cws.any fun p => p.2 == .pending && p.1 != w.plane * 8 + w.idx) = true) ∧ f.ok = true ∧ f.iters ≤ (cellProf s.dev y).hiter ∧ w.first = true) ∧
    (∃ (s : State) (cl : Fin 4) (n : Fin 10) (f : DecodeFound) (w : Cw) (y : Cell) (x : Ctx),
      s.dev.live = true ∧ s.dev.unswept = true ∧ decoderHead s.dev cl n = some w ∧ look s.dev.cells w.cell = some y ∧ y.out = none ∧ tOpc y.tkt = opRead ∧
      s.dev.ctx w.ch w.ctx = some x ∧ x.cells = [w.cell] ∧ x.work = .first ∧
      ((y.cws.any fun p => p.2 == .pending && p.1 != w.plane * 8 + w.idx) = true) ∧ (f.ok = false ∨ (cellProf s.dev y).hiter < f.iters) ∧
      w.first = true ∧ (cellProf s.dev y).erthr < w.zeros) ∧
    (∃ (s : State) (cl : Fin 4) (n : Fin 10),
      s.dev.live = true ∧ decoderHead s.dev cl n = none) :=
  ⟨⟨{ wReady with dev.cls := [(0, { staged := [{ cell := 7, ten := 0, ch := 0, ctx := 4, plane := 0, idx := 0, first := true, zeros := 9999, bytes := [], offs := [] }, { cell := 7, ten := 0, ch := 0, ctx := 4, plane := 0, idx := 0, first := true, zeros := 9999, bytes := [], offs := [] }] })] }, 0, { cell := 7, ten := 0, ch := 0, ctx := 4, plane := 0, idx := 0, first := true, zeros := 9999, bytes := [], offs := [] }, [{ cell := 7, ten := 0, ch := 0, ctx := 4, plane := 0, idx := 0, first := true, zeros := 9999, bytes := [], offs := [] }], 0, by decide +kernel⟩,
    ⟨{ wReady with dev.cells := [(7, { tkt := leBytes 1 0x01 ++ leBytes 1 0 ++ leBytes 1 1 ++ leBytes 1 2 ++ leBytes 2 0 ++ leBytes 6 0 ++ leBytes 1 0 ++ leBytes 1 2 ++ leBytes 2 0 ++ List.replicate 32 0 ++ leBytes 8 9 ++ leBytes 8 0, started := true, st := 2, cws := [(0, .pending), (1, .pending)] })], dev.chs := [(0, { ctxs := [(4, { cells := [7], st := .decoding, planes := 1 })] })], dev.cls := [(0, { hdec := [(0, [{ cell := 7, ten := 0, ch := 0, ctx := 4, plane := 0, idx := 0, first := true, zeros := 9999, bytes := [], offs := [] }])] })] }, 0, 0, { ok := true, iters := 1, corrected := 5, user := [1], mdata := [2], n1 := 3, n0 := 2 }, { cell := 7, ten := 0, ch := 0, ctx := 4, plane := 0, idx := 0, first := true, zeros := 9999, bytes := [], offs := [] }, { tkt := leBytes 1 0x01 ++ leBytes 1 0 ++ leBytes 1 1 ++ leBytes 1 2 ++ leBytes 2 0 ++ leBytes 6 0 ++ leBytes 1 0 ++ leBytes 1 2 ++ leBytes 2 0 ++ List.replicate 32 0 ++ leBytes 8 9 ++ leBytes 8 0, started := true, st := 2, cws := [(0, .pending), (1, .pending)] }, { cells := [7], st := .decoding, planes := 1 }, by decide +kernel⟩,
    ⟨{ wReady with dev.cells := [(7, { tkt := leBytes 1 0x01 ++ leBytes 1 0 ++ leBytes 1 1 ++ leBytes 1 2 ++ leBytes 2 0 ++ leBytes 6 0 ++ leBytes 1 0 ++ leBytes 1 2 ++ leBytes 2 0 ++ List.replicate 32 0 ++ leBytes 8 9 ++ leBytes 8 0, started := true, st := 2, cws := [(0, .pending), (1, .pending)] })], dev.chs := [(0, { ctxs := [(4, { cells := [7], st := .decoding, planes := 1 })] })], dev.cls := [(0, { hdec := [(0, [{ cell := 7, ten := 0, ch := 0, ctx := 4, plane := 0, idx := 0, first := true, zeros := 9999, bytes := [], offs := [] }])] })] }, 0, 0, { ok := false, iters := 1, corrected := 5, user := [1], mdata := [2], n1 := 3, n0 := 2 }, { cell := 7, ten := 0, ch := 0, ctx := 4, plane := 0, idx := 0, first := true, zeros := 9999, bytes := [], offs := [] }, { tkt := leBytes 1 0x01 ++ leBytes 1 0 ++ leBytes 1 1 ++ leBytes 1 2 ++ leBytes 2 0 ++ leBytes 6 0 ++ leBytes 1 0 ++ leBytes 1 2 ++ leBytes 2 0 ++ List.replicate 32 0 ++ leBytes 8 9 ++ leBytes 8 0, started := true, st := 2, cws := [(0, .pending), (1, .pending)] }, { cells := [7], st := .decoding, planes := 1 }, by decide +kernel⟩,
    ⟨wReady, 0, 0, by decide +kernel⟩⟩

/-- Each clause of `Obligations.SoftDecoders` has a state and operands that meet its hypotheses. -/
theorem witness_soft_decoders :
    (∃ (s : State) (cl : Nat) (c : Nat) (id : Nat) (p : Nat) (r : List (Nat × Nat × Nat × Nat)) (x : Ctx),
      s.dev.live = true ∧ s.dev.unswept = true ∧ s.dev.sdp.queue = (cl, c, id, p) :: r ∧ s.dev.sdp.held = [] ∧ 0 < s.dev.rd F.SDP_CFG_CLMAX ∧
      s.dev.ctx c id = some x) ∧
    (∃ (s : State) (n : Fin 8) (cl : Nat) (c : Nat) (id : Nat) (p : Nat) (x : Ctx) (k : Nat) (y : Cell) (w : Nat) (w2 : Nat) (ws : List Nat),
      s.dev.live = true ∧ s.dev.unswept = true ∧ look s.dev.sdp.held n = some (cl, c, id, p) ∧ s.dev.ctx c id = some x ∧ x.st = .decoding ∧
      cellOfPlane s.dev x p = some k ∧ look s.dev.cells k = some y ∧ tOpc y.tkt = opRead ∧ wantedCws y false p = w :: w2 :: ws) ∧
    (∃ (s : State) (n : Fin 8),
      s.dev.live = true ∧ look s.dev.sdp.held n = none) :=
  ⟨⟨{ wReady with dev.sdp.queue := [(1, 9, 4, 0), (2, 17, 1, 3)], dev.chs := [(9, { ctxs := [(4, { cells := [7], st := .decoding, work := .soft, planes := 1 })] })] }, 1, 9, 4, 0, [(2, 17, 1, 3)], { cells := [7], st := .decoding, work := .soft, planes := 1 }, by decide +kernel⟩,
    ⟨{ wReady with dev.sdp.held := [(0, (0, 0, 4, 0))], dev.cells := [(7, { tkt := leBytes 1 0x01 ++ leBytes 1 0 ++ leBytes 1 1 ++ leBytes 1 2 ++ leBytes 2 0 ++ leBytes 6 0 ++ leBytes 1 0 ++ leBytes 1 2 ++ leBytes 2 0 ++ List.replicate 32 0 ++ leBytes 8 9 ++ leBytes 8 0, started := true, st := 2, cws := [(0, .failing), (1, .failing)] })], dev.chs := [(0, { ctxs := [(4, { cells := [7], st := .decoding, work := .soft, planes := 1 })] })] }, 0, 0, 0, 4, 0, { cells := [7], st := .decoding, work := .soft, planes := 1 }, 7, { tkt := leBytes 1 0x01 ++ leBytes 1 0 ++ leBytes 1 1 ++ leBytes 1 2 ++ leBytes 2 0 ++ leBytes 6 0 ++ leBytes 1 0 ++ leBytes 1 2 ++ leBytes 2 0 ++ List.replicate 32 0 ++ leBytes 8 9 ++ leBytes 8 0, started := true, st := 2, cws := [(0, .failing), (1, .failing)] }, 0, 1, [], by decide +kernel⟩,
    ⟨wReady, 0, by decide +kernel⟩⟩

/-- Each clause of `Obligations.LichenLines` has a state and operands that meet its hypotheses. -/
theorem witness_lichen_lines :
    (∃ (s : State) (l : Nat) (a : Answer) (r : List Answer),
      s.dev.live = true ∧ s.dev.answers = a :: r ∧ a.what = .mapRead l ∧ a.code = 0 ∧ a.ue = false ∧ s.dev.lm.seeds = [] ∧ s.dev.chs = []) ∧
    (∃ (s : State) (l : Nat) (a : Answer) (r : List Answer) (w : LmWrite) (ws : List LmWrite),
      s.dev.live = true ∧ s.dev.answers = a :: r ∧ a.what = .mapWrite l ∧ a.code = 0 ∧ s.dev.lm.writes = w :: ws ∧ w.line = l ∧ w.moves = [] ∧
      s.dev.lm.seeds = [] ∧ s.dev.chs = []) ∧
    (∃ (s : State) (l : Nat) (a : Answer) (r : List Answer) (w : LmWrite) (ws : List LmWrite),
      s.dev.live = true ∧ s.dev.answers = a :: r ∧ a.what = .mapWrite l ∧ a.code ≠ 0 ∧ a.req.tries = 4 ∧ s.dev.lm.writes = w :: ws ∧ w.line = l ∧
      s.dev.lm.seeds = [] ∧ s.dev.chs = []) ∧
    (∃ (s : State) (cl : Fin 4) (x : Track) (r : List Track) (b : List Byte),
      s.dev.live = true ∧ s.dev.pfSeen = false ∧ s.dev.on F.FS_STAT_ACTIVE = false ∧ (s.dev.clu cl).trk = x :: r ∧ s.dev.on F.LM_CTL_TRKEN = true ∧
      s.dev.on F.LM_CTL_EN = true ∧ s.dev.on F.LM_DIE_TRK x.dix = true ∧ lineLocked s.dev (pageLine s.dev x.dix x.blk x.page) = false ∧
      cacheGet s.dev (pageLine s.dev x.dix x.blk x.page) = some b) ∧
    (∃ (s : State) (cl : Fin 4) (x : Track) (r : List Track),
      s.dev.live = true ∧ s.dev.pfSeen = false ∧ s.dev.on F.FS_STAT_ACTIVE = false ∧ (s.dev.clu cl).trk = x :: r ∧ s.dev.on F.LM_CTL_TRKEN = false) ∧
    (∃ (s : State),
      s.dev.live = true ∧ s.dev.on F.FS_STAT_ACTIVE = true) ∧
    (∃ (s : State) (a : Acc),
      s.dev.takes 0xD100 a = true) ∧
    (∃ (s : State),
      s.dev.live = true ∧ s.dev.on F.LM_CTL_EN = false ∧ s.dev.on F.LM_STAT_IDLE = true) ∧
    (∃ (s : State),
      (s.dev.on F.LM_CTL_EN = true ∨ s.dev.on F.LM_STAT_IDLE = false)) :=
  ⟨⟨{ wReady with dev.answers := [{ what := .mapRead 5, code := 0, bytes := List.replicate 16 1, req := { what := .mapRead 5, addr := 0, len := 16 } }], dev.lm.fetching := [5, 6] }, 5, { what := .mapRead 5, code := 0, bytes := List.replicate 16 1, req := { what := .mapRead 5, addr := 0, len := 16 } }, [], by decide +kernel⟩,
    ⟨{ wReady with dev.answers := [{ what := .mapWrite 5, code := 0, req := { what := .mapWrite 5, addr := 0, len := 16 } }], dev.lm.writes := [{ line := 5, bytes := List.replicate 16 2, dix := 0 }] }, 5, { what := .mapWrite 5, code := 0, req := { what := .mapWrite 5, addr := 0, len := 16 } }, [], { line := 5, bytes := List.replicate 16 2, dix := 0 }, [], by decide +kernel⟩,
    ⟨{ wReady with dev.answers := [{ what := .mapWrite 5, code := 1, req := { what := .mapWrite 5, addr := 0, len := 16, tries := 4 } }], dev.lm.writes := [{ line := 5, bytes := List.replicate 16 2, dix := 0 }] }, 5, { what := .mapWrite 5, code := 1, req := { what := .mapWrite 5, addr := 0, len := 16, tries := 4 } }, [], { line := 5, bytes := List.replicate 16 2, dix := 0 }, [], by decide +kernel⟩,
    ⟨{ wWith [(F.LM_CTL_EN, 0, 1), (F.LM_CTL_TRKEN, 0, 1), (F.LM_DIE_TRK, 1, 1)] with dev.cls := [(0, { trk := [{ dix := 1, blk := 2, page := 3, offs := List.replicate 8 0, n1 := 30, n0 := 10, first := true, cell := 7, tlm := false }] })], dev.lm.cache := [(cacheSet (pageLine wDev 1 2 3), [(pageLine wDev 1 2 3, List.replicate 16 0)])] }, 0, { dix := 1, blk := 2, page := 3, offs := List.replicate 8 0, n1 := 30, n0 := 10, first := true, cell := 7, tlm := false }, [], List.replicate 16 0, by decide +kernel⟩,
    ⟨{ wReady with dev.cls := [(0, { trk := [{ dix := 1, blk := 2, page := 3, offs := List.replicate 8 0, n1 := 30, n0 := 10, first := true, cell := 7, tlm := false }] })] }, 0, { dix := 1, blk := 2, page := 3, offs := List.replicate 8 0, n1 := 30, n0 := 10, first := true, cell := 7, tlm := false }, [], by decide +kernel⟩,
    ⟨wWith [(F.FS_STAT_ACTIVE, 0, 1)], by decide +kernel⟩,
    ⟨wReady, {}, by decide +kernel⟩,
    ⟨wReady, by decide +kernel⟩,
    ⟨wWith [(F.LM_CTL_EN, 0, 1)], by decide +kernel⟩⟩

/-- Each clause of `Obligations.MapSeedsAndSweeps` has a state and operands that meet its hypotheses. -/
theorem witness_map_seeds_and_sweeps :
    (∃ (s : State) (v : Word) (a : Acc),
      s.dev.takes 0xD160 a = true ∧ fld v.toNat 1 1 = 0 ∧ s.dev.on F.LM_STAT_SEEDBUSY = false ∧ s.dev.on F.LM_DIE_MODE (s.dev.rd F.LM_SADDR_DIX) = false ∧
      s.dev.lm = {}) ∧
    (∃ (s : State) (a : Acc),
      s.dev.takes 0xD160 a = true ∧ s.dev.on F.LM_STAT_SEEDBUSY = true) ∧
    (∃ (s : State),
      s.dev.live = true ∧ s.dev.on F.LM_STAT_SEEDBUSY = true ∧ s.dev.lm.seeds = [] ∧ s.dev.lm.writes = []) ∧
    (∃ (s : State) (v : Word) (a : Acc),
      s.dev.takes 0xD180 a = true ∧ fld v.toNat 1 1 = 0 ∧ fld v.toNat 16 8 ≠ 0 ∧ s.dev.on F.LM_STAT_SWPBUSY = false ∧
      s.dev.rd F.LM_SWP_DIX_FIRST ≤ s.dev.rd F.LM_SWP_DIX_LAST ∧ s.dev.rd F.LM_SWP_BLK_FIRST ≤ s.dev.rd F.LM_SWP_BLK_LAST) ∧
    (∃ (s : State) (x : Nat) (b : Nat),
      s.dev.live = true ∧ s.dev.lm.sweep = some (x, b) ∧ s.dev.lm.unitBusy = false ∧ s.dev.lm.stop = false ∧ s.dev.lm.writes = []) ∧
    (∃ (s : State) (v : Word) (a : Acc),
      s.dev.takes 0xD180 a = true ∧ fld v.toNat 0 1 = 0 ∧ fld v.toNat 2 1 = s.dev.rd F.LM_SWP_CTL_MODE ∧ fld v.toNat 8 4 = s.dev.rd F.LM_SWP_CTL_CONFMAX ∧
      fld v.toNat 16 8 = s.dev.rd F.LM_SWP_CTL_RATE ∧ fld v.toNat 16 8 ≠ 0 ∧ s.dev.on F.LM_STAT_SWPBUSY = true ∧ s.dev.lm.unitBusy = false) ∧
    (∃ (s : State),
      s.dev.live = true ∧ s.dev.on F.LM_STAT_SWPBUSY = true ∧ s.dev.lm.sweep = none) :=
  ⟨⟨wReady, 0x301, {}, by decide +kernel⟩,
    ⟨wWith [(F.LM_STAT_SEEDBUSY, 0, 1)], {}, by decide +kernel⟩,
    ⟨wWith [(F.LM_STAT_SEEDBUSY, 0, 1)], by decide +kernel⟩,
    ⟨wReady, 0x400F04, {}, by decide +kernel⟩,
    ⟨{ wReady with dev.lm.sweep := some (3, 8) }, 3, 8, by decide +kernel⟩,
    ⟨{ wWith [(F.LM_STAT_SWPBUSY, 0, 1)] with dev.lm.sweep := some (3, 8) }, 0x400F02, {}, by decide +kernel⟩,
    ⟨wWith [(F.LM_STAT_SWPBUSY, 0, 1)], by decide +kernel⟩⟩

/-- Each clause of `Obligations.AccumulatorCommands` has a state and operands that meet its hypotheses. -/
theorem witness_accumulator_commands :
    (∃ (s : State) (a : Acc),
      s.dev.takes 0xE210 a = true ∧ s.dev.on F.FS_STAT_ACTIVE = false ∧ s.dev.fs.pfail = false ∧ s.dev.rd F.ACC_STAT_STATE (s.dev.named 0xE210 a) = 0 ∧
      s.dev.on F.ACC_STAT_ABORTING (s.dev.named 0xE210 a) = false ∧ regionReady s.dev 3 = true) ∧
    (∃ (s : State) (a : Acc),
      s.dev.takes 0xE210 a = true ∧ s.dev.on F.FS_STAT_ACTIVE = false ∧ s.dev.fs.pfail = false ∧
      (s.dev.rd F.ACC_STAT_STATE (s.dev.named 0xE210 a) ≠ 0 ∨ regionReady s.dev 3 = false)) ∧
    (∃ (s : State) (a : Acc),
      s.dev.takes 0xE210 a = true ∧ s.dev.on F.FS_STAT_ACTIVE = false ∧ s.dev.fs.pfail = false ∧ s.dev.rd F.ACC_STAT_STATE (s.dev.named 0xE210 a) = 1 ∧
      s.dev.on F.ACC_STAT_ABORTING (s.dev.named 0xE210 a) = false ∧ accClaim s.dev (s.dev.named 0xE210 a) = 0 ∧
      isSender s.dev (s.dev.named 0xE210 a) = false) ∧
    (∃ (s : State) (a : Acc),
      s.dev.takes 0xE210 a = true ∧ s.dev.on F.FS_STAT_ACTIVE = false ∧ s.dev.fs.pfail = false ∧ accClaim s.dev (s.dev.named 0xE210 a) ≠ 0) ∧
    (∃ (s : State) (a : Acc),
      s.dev.takes 0xE210 a = true ∧ s.dev.on F.FS_STAT_ACTIVE = false ∧ s.dev.fs.pfail = false ∧
      ((s.dev.rd F.ACC_STAT_STATE (s.dev.named 0xE210 a) = 1 ∨ s.dev.rd F.ACC_STAT_STATE (s.dev.named 0xE210 a) = 3 ∨ s.dev.rd F.ACC_STAT_STATE (s.dev.named 0xE210 a) = 5)) ∧
      s.dev.on F.ACC_STAT_ABORTING (s.dev.named 0xE210 a) = false ∧ accClaim s.dev (s.dev.named 0xE210 a) = 0) ∧
    (∃ (s : State) (a : Acc),
      s.dev.takes 0xE210 a = true ∧ s.dev.on F.FS_STAT_ACTIVE = false ∧ s.dev.fs.pfail = false ∧
      ((s.dev.rd F.ACC_STAT_STATE (s.dev.named 0xE210 a) = 1 ∨ s.dev.rd F.ACC_STAT_STATE (s.dev.named 0xE210 a) = 3 ∨ s.dev.rd F.ACC_STAT_STATE (s.dev.named 0xE210 a) = 5)) ∧
      s.dev.on F.ACC_STAT_ABORTING (s.dev.named 0xE210 a) = false ∧ accClaim s.dev (s.dev.named 0xE210 a) ≠ 0) ∧
    (∃ (s : State) (a : Acc),
      s.dev.takes 0xE210 a = true ∧ s.dev.on F.FS_STAT_ACTIVE = false ∧ s.dev.fs.pfail = false ∧
      ((s.dev.rd F.ACC_STAT_STATE (s.dev.named 0xE210 a) = 0 ∨ s.dev.rd F.ACC_STAT_STATE (s.dev.named 0xE210 a) = 2 ∨ s.dev.rd F.ACC_STAT_STATE (s.dev.named 0xE210 a) = 4))) ∧
    (∃ (s : State) (a : Acc),
      s.dev.takes 0xE210 a = true ∧ s.dev.on F.FS_STAT_ACTIVE = false ∧ s.dev.fs.pfail = false ∧ s.dev.rd F.ACC_STAT_STATE (s.dev.named 0xE210 a) = 1 ∧
      s.dev.on F.ACC_STAT_ABORTING (s.dev.named 0xE210 a) = false ∧ accClaim s.dev (s.dev.named 0xE210 a) = 0) ∧
    (∃ (s : State) (a : Acc),
      s.dev.takes 0xE210 a = true ∧ s.dev.on F.FS_STAT_ACTIVE = false ∧ s.dev.fs.pfail = false ∧ s.dev.rd F.ACC_STAT_STATE (s.dev.named 0xE210 a) ≠ 1) ∧
    (∃ (s : State) (a : Acc),
      s.dev.takes 0xE210 a = true ∧ s.dev.on F.FS_STAT_ACTIVE = false ∧ s.dev.fs.pfail = false ∧ s.dev.rd F.ACC_STAT_STATE (s.dev.named 0xE210 a) = 0 ∧
      s.dev.on F.ACC_STAT_ABORTING (s.dev.named 0xE210 a) = false ∧ regionReady s.dev 3 = true) ∧
    (∃ (s : State) (a : Acc),
      s.dev.takes 0xE210 a = true ∧ s.dev.on F.FS_STAT_ACTIVE = false ∧ s.dev.fs.pfail = false ∧
      (s.dev.rd F.ACC_STAT_STATE (s.dev.named 0xE210 a) ≠ 0 ∨ regionReady s.dev 3 = false)) ∧
    (∃ (s : State) (a : Acc),
      s.dev.takes 0xE210 a = true ∧ s.dev.on F.FS_STAT_ACTIVE = false ∧ s.dev.fs.pfail = false ∧
      ((s.dev.rd F.ACC_STAT_STATE (s.dev.named 0xE210 a) = 3 ∨ s.dev.rd F.ACC_STAT_STATE (s.dev.named 0xE210 a) = 5)) ∧
      s.dev.on F.ACC_STAT_ABORTING (s.dev.named 0xE210 a) = false) ∧
    (∃ (s : State) (a : Acc),
      s.dev.takes 0xE210 a = true ∧ s.dev.on F.FS_STAT_ACTIVE = false ∧ s.dev.fs.pfail = false ∧ s.dev.rd F.ACC_STAT_STATE (s.dev.named 0xE210 a) = 1) ∧
    (∃ (s : State) (a : Acc) (x : State),
      s.dev.takes 0xE210 a = true ∧ (s.dev.on F.FS_STAT_ACTIVE = true ∨ s.dev.fs.pfail = true) ∧
      x = s.withDev ((s.dev.wr F.ACC_CNT_CMDDROP (satAdd 16 (s.dev.rd F.ACC_CNT_CMDDROP) 1)).acked 0)) :=
  ⟨⟨{ wWith [(F.ACC_STAT_STATE, 0, 0)] with dev.acc := [(0, { slots := [(0, [1, 2])] })] }, {}, by decide +kernel⟩,
    ⟨{ wWith [(F.ACC_STAT_STATE, 0, 3)] with dev.acc := [(0, { slots := [(0, [1, 2])] })] }, {}, by decide +kernel⟩,
    ⟨wWith [(F.ACC_STAT_STATE, 0, 1)], {}, by decide +kernel⟩,
    ⟨{ wWith [(F.ACC_STAT_STATE, 0, 1), (F.ACC_CLAIM_LO_MASK, 0, 2)] with dev.acc := [(0, { slots := [(0, [1, 2])] })] }, {}, by decide +kernel⟩,
    ⟨{ wWith [(F.ACC_STAT_STATE, 0, 5), (F.ACC_STAT_UE, 0, 1)] with dev.acc := [(0, { slots := [(0, [1, 2])] })] }, {}, by decide +kernel⟩,
    ⟨{ wWith [(F.ACC_STAT_STATE, 0, 1), (F.ACC_CLAIM_HI_MASK, 0, 1)] with dev.acc := [(0, { slots := [(0, [1, 2])] })] }, {}, by decide +kernel⟩,
    ⟨{ wWith [(F.ACC_STAT_STATE, 0, 2)] with dev.acc := [(0, { slots := [(0, [1, 2])] })] }, {}, by decide +kernel⟩,
    ⟨wWith [(F.ACC_STAT_STATE, 0, 1)], {}, by decide +kernel⟩,
    ⟨{ wWith [(F.ACC_STAT_STATE, 0, 0)] with dev.acc := [(0, { slots := [(0, [1, 2])] })] }, {}, by decide +kernel⟩,
    ⟨wReady, {}, by decide +kernel⟩,
    ⟨{ wWith [(F.ACC_STAT_STATE, 0, 5)] with dev.acc := [(0, { slots := [(0, [1, 2])] })] }, {}, by decide +kernel⟩,
    ⟨{ wWith [(F.ACC_STAT_STATE, 0, 3)] with dev.acc := [(0, { slots := [(0, [1, 2])] })] }, {}, by decide +kernel⟩,
    ⟨{ wWith [(F.ACC_STAT_STATE, 0, 1)] with dev.acc := [(0, { slots := [(0, [1, 2])] })] }, {}, by decide +kernel⟩,
    ⟨wWith [(F.FS_STAT_ACTIVE, 0, 1)], {}, (wWith [(F.FS_STAT_ACTIVE, 0, 1)] : State).withDev (((wWith [(F.FS_STAT_ACTIVE, 0, 1)] : State).dev.wr F.ACC_CNT_CMDDROP (satAdd 16 ((wWith [(F.FS_STAT_ACTIVE, 0, 1)] : State).dev.rd F.ACC_CNT_CMDDROP) 1)).acked 0), by decide +kernel⟩⟩

/-- Each clause of `Obligations.AccumulatorTransfers` has a state and operands that meet its hypotheses. -/
theorem witness_accumulator_transfers :
    (∃ (s : State) (n : Fin 64) (m : Fin 64) (k : Take) (r : List Take),
      s.dev.live = true ∧ (s.dev.accu n).takes = k :: r ∧ k.member = m ∧
      xchTurn s.dev 4 (takeClusters s.dev) = some (dixCl (startedDie (s.dev.cell k.cell))) ∧ k.lost = false ∧ bit (accClaim s.dev n) m = true ∧
      s.dev.on F.ACC_STAT_ABORTING n = false ∧ s.dev.rd F.ACC_STAT_STATE n = 1 ∧ s.dev.on F.ACC_STAT_CLOSED n = false) ∧
    (∃ (s : State) (n : Fin 64) (m : Fin 64) (k : Take),
      s.dev.live = true ∧ (s.dev.accu n).takes = [k] ∧ k.member = m ∧ xchTurn s.dev 4 (takeClusters s.dev) = some (dixCl (startedDie (s.dev.cell k.cell))) ∧
      k.lost = false ∧ accClaim s.dev n = 2 ^ m.val ∧ s.dev.on F.ACC_STAT_ABORTING n = true) ∧
    (∃ (s : State) (n : Fin 64),
      s.dev.live = true ∧ s.dev.rd F.ACC_STAT_STATE n = 2 ∧ (s.dev.accu n).left = 0 ∧ (s.dev.accu n).waitAck = false ∧ (s.dev.accu n).bad = false) ∧
    (∃ (s : State) (n : Fin 64),
      s.dev.live = true ∧ s.dev.rd F.ACC_STAT_STATE n = 2 ∧ (s.dev.accu n).left = 0 ∧ (s.dev.accu n).waitAck = false ∧ (s.dev.accu n).bad = true) ∧
    (∃ (s : State) (n : Fin 64),
      s.dev.live = true ∧ s.dev.rd F.ACC_STAT_STATE n = 4 ∧ (s.dev.accu n).left = 0 ∧ (s.dev.accu n).bad = false ∧ (s.dev.accu n).spilling = true) ∧
    (∃ (s : State) (n : Fin 64),
      s.dev.live = true ∧ s.dev.rd F.ACC_STAT_STATE n = 4 ∧ (s.dev.accu n).left = 0 ∧ (s.dev.accu n).bad = true) ∧
    (∃ (s : State) (n : Fin 64),
      s.dev.live = true ∧ s.dev.rd F.ACC_STAT_STATE n = 4 ∧ (s.dev.accu n).left = 0 ∧ (s.dev.accu n).bad = false ∧ (s.dev.accu n).spilling = false ∧
      leAt (flatImage (s.dev.accu n).image) 65536 4 ≠ 0x50415331) ∧
    (∃ (s : State) (v : Word) (a : Acc) (k : Fin 4),
      s.dev.takes 0x1318 a = true ∧ fld v.toNat 0 4 = 2 ^ k.val) :=
  ⟨⟨{ wWith [(F.ACC_STAT_STATE, 0, 1), (F.ACC_CLAIM_LO_MASK, 0, 6)] with dev.acc := [(0, { takes := [{ member := 2, cell := 7, cws := [[5, 6]] }], slots := [(0, [1])] })] }, 0, 2, { member := 2, cell := 7, cws := [[5, 6]] }, [], by decide +kernel⟩,
    ⟨{ wWith [(F.ACC_STAT_STATE, 0, 1), (F.ACC_CLAIM_LO_MASK, 0, 4), (F.ACC_STAT_ABORTING, 0, 1)] with dev.acc := [(0, { takes := [{ member := 2, cell := 7, cws := [[5, 6]] }] })] }, 0, 2, { member := 2, cell := 7, cws := [[5, 6]] }, by decide +kernel⟩,
    ⟨wWith [(F.ACC_STAT_STATE, 33, 2)], 33, by decide +kernel⟩,
    ⟨{ wWith [(F.ACC_STAT_STATE, 33, 2)] with dev.acc := [(33, { bad := true })] }, 33, by decide +kernel⟩,
    ⟨{ wWith [(F.ACC_STAT_STATE, 33, 4)] with dev.acc := [(33, { spilling := true })] }, 33, by decide +kernel⟩,
    ⟨{ wWith [(F.ACC_STAT_STATE, 33, 4)] with dev.acc := [(33, { bad := true })] }, 33, by decide +kernel⟩,
    ⟨wWith [(F.ACC_STAT_STATE, 33, 4)], 33, by decide +kernel⟩,
    ⟨{ wWith [(F.WR_HOLD_V.ix 2, 0, 1), (F.WR_STAT_HELD, 0, 7)] with dev.chs := [(0, { holds := [(1, []), (2, [(0, [1])])], holdStg := [(2, 99)] })] }, 4, {}, 2, by decide +kernel⟩⟩

/-- Each clause of `Obligations.TraverseSteps` has a state and operands that meet its hypotheses. -/
theorem witness_traverse_steps :
    (∃ (s : State) (k : Fin 1048576) (x : Cell) (d : Dev) (n : Nat),
      s.dev.live = true ∧ look s.dev.cells k = some x ∧ tOpc x.tkt = opCopy ∧ x.started = false ∧ x.out = none ∧ d = commitPoint 1 (dixCl x.dix) 0 s.dev ∧
      s.dev.adm.halted = false ∧ s.dev.rd F.PM_STAT_STATE ≠ 2 ∧ (s.dev.queue (cellKey x)).head? = some k.val ∧ x.stream = none ∧ x.tprof = none ∧
      d.on F.TRV_CFG_EN (dixCl x.dix) = true ∧ popc 4 (d.rd F.TRV_STAT_BUSY (dixCl x.dix)) < d.rd F.TRV_CFG_STREAMS (dixCl x.dix) + 1 ∧
      ((List.range 4).find? (fun j => !bit (d.rd F.TRV_STAT_BUSY (dixCl x.dix)) j) = some n) ∧ x.prof = none ∧ check10 d x = true ∧
      (profile d (tCprof x.tkt)).raw = false ∧ (profile d (tTprof x.tkt)).raw = false ∧ stagingFits d (dixCh x.dix) (stagingNeed d x.tkt) = false) ∧
    (∃ (s : State) (k : Fin 1048576) (x : Cell) (a : Answer) (r : List Answer) (b : Nat),
      s.dev.live = true ∧ s.dev.answers = a :: r ∧ a.what = .bitmap k ∧ a.code = 0 ∧ look s.dev.cells k = some x ∧ x.stream.isSome = true ∧
      x.started = false ∧ x.out = none ∧ b = leAt a.bytes 0 8 % 2 ^ cwTotal x.tkt ∧ (b ≠ 0 ∨ s.dev.on F.TRV_CFG_EMPTY (dixCl x.dix) = false)) ∧
    (∃ (s : State) (k : Fin 1048576) (x : Cell) (a : Answer) (r : List Answer),
      s.dev.live = true ∧ s.dev.answers = a :: r ∧ a.what = .bitmap k ∧ a.code ≠ 0 ∧ look s.dev.cells k = some x ∧ x.stream.isSome = true ∧
      x.started = false ∧ x.out = none) ∧
    (∃ (s : State) (k : Fin 1048576) (x : Cell) (p : Prof),
      s.dev.live = true ∧ look s.dev.cells k = some x ∧ x.started = true ∧ x.between = true ∧ x.ready = false ∧ x.out = none ∧ x.tprof = some p ∧
      encodeNext s.dev (dixCh x.tdix) = some k.val ∧
      (dixCl x.dix = dixCl x.tdix ∨ xchTurn s.dev (dixCl x.tdix) (encodeClusters s.dev (dixCl x.tdix)) = some (dixCl x.dix)) ∧
      s.dev.on F.TRV_CFG_RECHECK (dixCl x.dix) = false ∧ dieFenced s.dev x.tdix = false) ∧
    (∃ (s : State) (k : Fin 1048576) (x : Cell) (p : Prof) (a : Answer) (r : List Answer) (g : List Nat),
      s.dev.live = true ∧ s.dev.answers = a :: r ∧ a.what = .bitmapAgain k ∧ a.code = 0 ∧ look s.dev.cells k = some x ∧ x.recheck = true ∧ x.out = none ∧
      x.tprof = some p ∧ dieFenced s.dev x.tdix = false ∧
      (g = (List.range (cwTotal x.tkt)).filter (fun m => bit (x.bitmap.getD 0) m && !bit (leAt a.bytes 0 8) m))) :=
  ⟨⟨{ wWith [(F.TRV_CFG_EN, 0, 1), (F.TRV_CFG_STREAMS, 0, 3), (F.TRV_STAT_BUSY, 0, 3), (F.DIE_GEOM1_PGLEN, 0, 18432)] with dev.cells := [(7, { tkt := leBytes 1 0x04 ++ leBytes 1 0 ++ leBytes 1 1 ++ leBytes 1 2 ++ leBytes 2 0 ++ leBytes 6 0 ++ leBytes 1 0 ++ leBytes 1 1 ++ leBytes 2 0 ++ List.replicate 32 0 ++ leBytes 8 9 ++ leBytes 8 0 }), (8, { stg := 131072 })], dev.dq := [(0, [7])] }, 7, { tkt := leBytes 1 0x04 ++ leBytes 1 0 ++ leBytes 1 1 ++ leBytes 1 2 ++ leBytes 2 0 ++ leBytes 6 0 ++ leBytes 1 0 ++ leBytes 1 1 ++ leBytes 2 0 ++ List.replicate 32 0 ++ leBytes 8 9 ++ leBytes 8 0 }, commitPoint 1 0 0 ({ wWith [(F.TRV_CFG_EN, 0, 1), (F.TRV_CFG_STREAMS, 0, 3), (F.TRV_STAT_BUSY, 0, 3), (F.DIE_GEOM1_PGLEN, 0, 18432)] with dev.cells := [(7, { tkt := leBytes 1 0x04 ++ leBytes 1 0 ++ leBytes 1 1 ++ leBytes 1 2 ++ leBytes 2 0 ++ leBytes 6 0 ++ leBytes 1 0 ++ leBytes 1 1 ++ leBytes 2 0 ++ List.replicate 32 0 ++ leBytes 8 9 ++ leBytes 8 0 }), (8, { stg := 131072 })], dev.dq := [(0, [7])] } : State).dev, 2, by decide +kernel⟩,
    ⟨{ wReady with dev.answers := [{ what := .bitmap 7, code := 0, bytes := leBytes 8 1, req := { what := .bitmap 7, addr := 0, len := 8 } }], dev.cells := [(7, { tkt := leBytes 1 0x04 ++ leBytes 1 0 ++ leBytes 1 1 ++ leBytes 1 2 ++ leBytes 2 0 ++ leBytes 6 0 ++ leBytes 1 0 ++ leBytes 1 1 ++ leBytes 2 0 ++ List.replicate 32 0 ++ leBytes 8 9 ++ leBytes 8 0, stream := some 1, prof := some { cwpp := 4 }, tprof := some { cwpp := 4 }, stg := 100 })] }, 7, { tkt := leBytes 1 0x04 ++ leBytes 1 0 ++ leBytes 1 1 ++ leBytes 1 2 ++ leBytes 2 0 ++ leBytes 6 0 ++ leBytes 1 0 ++ leBytes 1 1 ++ leBytes 2 0 ++ List.replicate 32 0 ++ leBytes 8 9 ++ leBytes 8 0, stream := some 1, prof := some { cwpp := 4 }, tprof := some { cwpp := 4 }, stg := 100 }, { what := .bitmap 7, code := 0, bytes := leBytes 8 1, req := { what := .bitmap 7, addr := 0, len := 8 } }, [], 1, by decide +kernel⟩,
    ⟨{ wReady with dev.answers := [{ what := .bitmap 7, code := 2, bytes := leBytes 8 1, req := { what := .bitmap 7, addr := 0, len := 8 } }], dev.cells := [(7, { tkt := leBytes 1 0x04 ++ leBytes 1 0 ++ leBytes 1 1 ++ leBytes 1 2 ++ leBytes 2 0 ++ leBytes 6 0 ++ leBytes 1 0 ++ leBytes 1 1 ++ leBytes 2 0 ++ List.replicate 32 0 ++ leBytes 8 9 ++ leBytes 8 0, stream := some 1, prof := some { cwpp := 4 }, tprof := some { cwpp := 4 }, stg := 100 })], dev.dq := [(0, [7])] }, 7, { tkt := leBytes 1 0x04 ++ leBytes 1 0 ++ leBytes 1 1 ++ leBytes 1 2 ++ leBytes 2 0 ++ leBytes 6 0 ++ leBytes 1 0 ++ leBytes 1 1 ++ leBytes 2 0 ++ List.replicate 32 0 ++ leBytes 8 9 ++ leBytes 8 0, stream := some 1, prof := some { cwpp := 4 }, tprof := some { cwpp := 4 }, stg := 100 }, { what := .bitmap 7, code := 2, bytes := leBytes 8 1, req := { what := .bitmap 7, addr := 0, len := 8 } }, [], by decide +kernel⟩,
    ⟨{ wReady with dev.cells := [(7, { tkt := leBytes 1 0x04 ++ leBytes 1 0 ++ leBytes 1 1 ++ leBytes 1 2 ++ leBytes 2 0 ++ leBytes 6 0 ++ leBytes 1 0 ++ leBytes 1 1 ++ leBytes 2 0 ++ List.replicate 32 0 ++ leBytes 8 9 ++ leBytes 8 0, stream := some 1, prof := some { cwpp := 4 }, tprof := some { cwpp := 4 }, stg := 100, started := true, between := true, plain := [(0, [1])], bitmap := some 1 })] }, 7, { tkt := leBytes 1 0x04 ++ leBytes 1 0 ++ leBytes 1 1 ++ leBytes 1 2 ++ leBytes 2 0 ++ leBytes 6 0 ++ leBytes 1 0 ++ leBytes 1 1 ++ leBytes 2 0 ++ List.replicate 32 0 ++ leBytes 8 9 ++ leBytes 8 0, stream := some 1, prof := some { cwpp := 4 }, tprof := some { cwpp := 4 }, stg := 100, started := true, between := true, plain := [(0, [1])], bitmap := some 1 }, { cwpp := 4 }, by decide +kernel⟩,
    ⟨{ wReady with dev.answers := [{ what := .bitmapAgain 7, code := 0, bytes := leBytes 8 0, req := { what := .bitmapAgain 7, addr := 0, len := 8 } }], dev.cells := [(7, { tkt := leBytes 1 0x04 ++ leBytes 1 0 ++ leBytes 1 1 ++ leBytes 1 2 ++ leBytes 2 0 ++ leBytes 6 0 ++ leBytes 1 0 ++ leBytes 1 1 ++ leBytes 2 0 ++ List.replicate 32 0 ++ leBytes 8 9 ++ leBytes 8 0, stream := some 1, prof := some { cwpp := 4 }, tprof := some { cwpp := 4 }, ready := true, recheck := true, relocated := 1, coded := [(0, [3])], bitmap := some 1 })] }, 7, { tkt := leBytes 1 0x04 ++ leBytes 1 0 ++ leBytes 1 1 ++ leBytes 1 2 ++ leBytes 2 0 ++ leBytes 6 0 ++ leBytes 1 0 ++ leBytes 1 1 ++ leBytes 2 0 ++ List.replicate 32 0 ++ leBytes 8 9 ++ leBytes 8 0, stream := some 1, prof := some { cwpp := 4 }, tprof := some { cwpp := 4 }, ready := true, recheck := true, relocated := 1, coded := [(0, [3])], bitmap := some 1 }, { cwpp := 4 }, { what := .bitmapAgain 7, code := 0, bytes := leBytes 8 0, req := { what := .bitmapAgain 7, addr := 0, len := 8 } }, [], [0], by decide +kernel⟩⟩

/-- Each clause of `Obligations.EnumerationAndRecovery` has a state and operands that meet its hypotheses. -/
theorem witness_enumeration_and_recovery :
    (∃ (s : State) (a : Acc),
      s.dev.takes 0x100C a = true ∧ s.dev.on F.CH_STAT_ENUMBUSY (s.dev.named 0x100C a) = false ∧ chHolds s.dev (s.dev.named 0x100C a) = false ∧
      (((List.range 4).all fun l => !dieFenced s.dev (32 * (s.dev.named 0x100C a) + l)) = true) ∧ ((s.dev.chs).all (fun p => p.2.ctxs.isEmpty) = true)) ∧
    (∃ (s : State) (a : Acc),
      s.dev.takes 0x100C a = true ∧ s.dev.on F.CH_STAT_ENUMBUSY (s.dev.named 0x100C a) = true) ∧
    (∃ (s : State) (x : Fin 1024) (st : Nat),
      s.dev.live = true ∧ rbSampled s.dev (dixCh x) = true ∧ s.dev.rd F.DIE_STAT_STATE x = 2 ∧ st.testBit 6 = true ∧
      (s.dev.on F.DIE_CFG_AUTOFENCE x = false ∨ satAdd 8 (s.dev.rd F.DIE_STAT_TOCONS x) 1 < s.dev.rd F.DIE_CFG_TOLIM x)) ∧
    (∃ (s : State) (x : Fin 1024) (st : Nat),
      s.dev.live = true ∧ rbSampled s.dev (dixCh x) = true ∧ s.dev.rd F.DIE_STAT_STATE x = 2 ∧ st.testBit 6 = false) ∧
    (∃ (s : State) (x : Fin 1024),
      s.dev.rd F.DIE_STAT_STATE x ≠ 2) ∧
    (∃ (s : State) (x : Fin 1024),
      s.dev.live = true ∧ s.dev.chs = [] ∧ s.dev.cells = [] ∧ s.dev.rd F.DIE_STAT_STATE x = 2 ∧ s.dev.lift.reqs = [] ∧ s.dev.dq = []) :=
  ⟨⟨wReady, {}, by decide +kernel⟩,
    ⟨wWith [(F.CH_STAT_ENUMBUSY, 0, 1)], {}, by decide +kernel⟩,
    ⟨wWith [(F.PM_PHYSTAT_ON, 0, 1), (F.DIE_STAT_STATE, 5, 2)], 5, 0x60, by decide +kernel⟩,
    ⟨wWith [(F.PM_PHYSTAT_ON, 0, 1), (F.DIE_STAT_STATE, 5, 2)], 5, 0x20, by decide +kernel⟩,
    ⟨wReady, 5, by decide +kernel⟩,
    ⟨wWith [(F.DIE_STAT_STATE, 5, 2)], 5, by decide +kernel⟩⟩

/-- Each clause of `Obligations.DieControl` has a state and operands that meet its hypotheses. -/
theorem witness_die_control :
    (∃ (s : State) (a : Acc),
      s.dev.takes 0x3004 a = true ∧ s.dev.rd F.DIE_STAT_STATE (s.dev.named 0x3004 a) ≠ 3 ∧ s.dev.live = true ∧ s.dev.chs = [] ∧ s.dev.cells = [] ∧
      s.dev.lift.reqs = [] ∧ s.dev.dq = []) ∧
    (∃ (s : State) (a : Acc),
      s.dev.takes 0x3004 a = true ∧ s.dev.rd F.DIE_STAT_STATE (s.dev.named 0x3004 a) = 3) ∧
    (∃ (s : State) (a : Acc),
      s.dev.takes 0x3004 a = true ∧ s.dev.rd F.DIE_STAT_STATE (s.dev.named 0x3004 a) = 4) ∧
    (∃ (s : State) (a : Acc),
      s.dev.takes 0x3004 a = true ∧ s.dev.rd F.DIE_STAT_STATE (s.dev.named 0x3004 a) ≠ 4) ∧
    (∃ (s : State) (a : Acc),
      s.dev.takes 0x3004 a = true) ∧
    (∃ (s : State) (c : Fin 32) (g : Fin 2),
      s.dev.live = true ∧ rbSampled s.dev c = true ∧ bit (s.dev.rd F.CH_RB_FB c) g = false ∧ bit (s.dev.chn c).rb g = false ∧ groupBusy s.dev c g = []) ∧
    (∃ (s : State) (c : Fin 32) (g : Fin 2),
      s.dev.live = true ∧ rbSampled s.dev c = true ∧ bit (s.dev.chn c).rb g = true ∧ s.dev.on F.CH_RB_AUTOEXIT c = true) ∧
    (∃ (s : State) (c : Fin 32),
      s.dev.on F.CH_RB_AUTOEXIT c = false) ∧
    (∃ (s : State) (v : Word) (a : Acc),
      s.dev.takes 0x1010 a = true ∧ fld v.toNat 8 8 ≠ 0 ∧ fld v.toNat 16 8 ≠ 0 ∧ fld v.toNat 24 8 ≠ 0) :=
  ⟨⟨wWith [(F.DIE_STAT_STATE, 0, 1)], {}, by decide +kernel⟩,
    ⟨wWith [(F.DIE_STAT_STATE, 0, 3)], {}, by decide +kernel⟩,
    ⟨wWith [(F.DIE_STAT_STATE, 0, 4)], {}, by decide +kernel⟩,
    ⟨wReady, {}, by decide +kernel⟩,
    ⟨wWith [(F.DIE_STAT_TOCONS, 0, 7)], {}, by decide +kernel⟩,
    ⟨{ wWith [(F.PM_PHYSTAT_ON, 0, 0x200)] with dev.chs := [(9, { rb := 1 })] }, 9, 1, by decide +kernel⟩,
    ⟨wWith [(F.PM_PHYSTAT_ON, 0, 0x200), (F.CH_RB_FB, 9, 3)], 9, 1, by decide +kernel⟩,
    ⟨wWith [(F.CH_RB_AUTOEXIT, 9, 0)], 9, by decide +kernel⟩,
    ⟨wWith [(F.CH_RB_FB, 0, 3)], 0x0A0A0A04, {}, by decide +kernel⟩⟩

/-- Each clause of `Obligations.PadImpedance` has a state and operands that meet its hypotheses. -/
theorem witness_pad_impedance :
    (∃ (s : State) (a : Acc),
      s.dev.takes 0x2300 a = true ∧ s.dev.on F.PZQ_STAT_BUSY (s.dev.named 0x2300 a) = false) ∧
    (∃ (s : State) (a : Acc),
      s.dev.takes 0x2300 a = true ∧ s.dev.on F.PZQ_STAT_BUSY (s.dev.named 0x2300 a) = true) ∧
    (∃ (s : State) (cl : Fin 4) (pu : Fin 64) (pd : Fin 64),
      s.dev.live = true ∧ s.dev.on F.PZQ_STAT_BUSY cl = true ∧ pu ≠ 0 ∧ pu ≠ 63 ∧ pd ≠ 0 ∧ pd ≠ 63 ∧ s.dev.chs = []) ∧
    (∃ (s : State) (cl : Fin 4) (pu : Fin 64) (pd : Fin 64),
      s.dev.live = true ∧ s.dev.on F.PZQ_STAT_BUSY cl = true ∧ (pu = 0 ∨ pu = 63 ∨ pd = 0 ∨ pd = 63) ∧ s.dev.chs = []) ∧
    (∃ (s : State) (cl : Fin 4),
      s.dev.live = true ∧ s.dev.on F.PZQ_STAT_ABORTS cl = true ∧ s.dev.on F.PZQ_STAT_BUSY cl = false ∧ s.dev.on F.PZQ_STAT_GIVEUP cl = false) ∧
    (∃ (s : State) (cl : Fin 4),
      s.dev.rd F.PZQ_STAT_ABORTS cl = 0) :=
  ⟨⟨wWith [(F.PZQ_STAT_GIVEUP, 0, 1), (F.PZQ_STAT_ABORTS, 0, 4)], {}, by decide +kernel⟩,
    ⟨wWith [(F.PZQ_STAT_BUSY, 0, 1)], {}, by decide +kernel⟩,
    ⟨wWith [(F.PZQ_STAT_BUSY, 2, 1), (F.PZQ_STAT_ABORTS, 2, 2)], 2, 31, 40, by decide +kernel⟩,
    ⟨wWith [(F.PZQ_STAT_BUSY, 2, 1), (F.PZQ_STAT_ABORTS, 2, 3)], 2, 63, 40, by decide +kernel⟩,
    ⟨wWith [(F.PZQ_STAT_ABORTS, 2, 1)], 2, by decide +kernel⟩,
    ⟨wReady, 2, by decide +kernel⟩⟩

/-- Each clause of `Obligations.CalibrationTriggers` has a state and operands that meet its hypotheses. -/
theorem witness_calibration_triggers :
    (∃ (s : State) (a : Acc),
      s.dev.takes 0x140C a = true ∧ s.dev.rd F.CAL_STAT_STATE (s.dev.named 0x140C a) = 1 ∧ s.dev.lift.reqs = []) ∧
    (∃ (s : State) (a : Acc),
      s.dev.takes 0x140C a = true ∧ s.dev.rd F.CAL_STAT_STATE (s.dev.named 0x140C a) = 1 ∧ s.dev.lift.reqs = []) ∧
    (∃ (s : State) (a : Acc),
      s.dev.takes 0x140C a = true ∧ s.dev.rd F.CAL_STAT_STATE (s.dev.named 0x140C a) = 5) ∧
    (∃ (s : State) (a : Acc),
      s.dev.takes 0x140C a = true ∧ s.dev.rd F.CAL_STAT_STATE (s.dev.named 0x140C a) = 5 ∧ s.dev.lift.reqs = []) ∧
    (∃ (s : State) (a : Acc),
      s.dev.takes 0x140C a = true ∧ s.dev.rd F.CAL_STAT_STATE (s.dev.named 0x140C a) ≠ 5) ∧
    (∃ (s : State) (a : Acc) (c : Nat),
      s.dev.takes 0x1408 a = true ∧ c = s.dev.named 0x1408 a) ∧
    (∃ (s : State) (c : Fin 32),
      s.dev.live = true ∧ s.dev.rd F.CAL_STAT_STATE c = 1 ∧ s.dev.on F.CAL_CFG2_PERIOD c = true ∧ s.dev.on F.CAL_CFG_AUTO c = true ∧
      s.dev.on F.TST_LBCTL_DEPTH c = false ∧ s.dev.lift.reqs = []) ∧
    (∃ (s : State) (c : Fin 32),
      s.dev.rd F.CAL_CFG2_PERIOD c = 0) ∧
    (∃ (s : State) (c : Fin 32) (h : Ch),
      s.dev.live = true ∧ s.dev.rd F.CAL_STAT_STATE c = 3 ∧ s.dev.chn c = h ∧ calCtx s.dev c = none ∧ 1 < h.cal.step ∧ s.dev.lift.reqs = []) ∧
    (∃ (s : State) (c : Fin 32),
      s.dev.rd F.CAL_STAT_STATE c ≠ 3) ∧
    (∃ (s : State) (c : Fin 32) (h : Ch),
      s.dev.live = true ∧ (s.dev.rd F.CAL_STAT_STATE c = 2 ∨ s.dev.rd F.CAL_STAT_STATE c = 3) ∧ s.dev.chn c = h ∧ h.cal.forced = false) ∧
    (∃ (s : State) (c : Fin 32) (h : Ch),
      s.dev.live = true ∧ s.dev.rd F.CAL_STAT_STATE c = 4 ∧ s.dev.chn c = h) :=
  ⟨⟨wWith [(F.CAL_STAT_STATE, 0, 1)], {}, by decide +kernel⟩,
    ⟨wWith [(F.CAL_STAT_STATE, 0, 1)], {}, by decide +kernel⟩,
    ⟨wWith [(F.CAL_STAT_STATE, 0, 5)], {}, by decide +kernel⟩,
    ⟨wWith [(F.CAL_STAT_STATE, 0, 5)], {}, by decide +kernel⟩,
    ⟨wReady, {}, by decide +kernel⟩,
    ⟨wReady, {}, 0, by decide +kernel⟩,
    ⟨wWith [(F.CAL_STAT_STATE, 9, 1), (F.CAL_CFG2_PERIOD, 9, 10)], 9, by decide +kernel⟩,
    ⟨wReady, 9, by decide +kernel⟩,
    ⟨{ wWith [(F.CAL_STAT_STATE, 9, 3)] with dev.chs := [(9, { cal := { step := 3, more := [1] } })] }, 9, { cal := { step := 3, more := [1] } }, by decide +kernel⟩,
    ⟨wReady, 9, by decide +kernel⟩,
    ⟨{ wWith [(F.CAL_STAT_STATE, 9, 3)] with dev.chs := [(9, { cal := { step := 3 } })] }, 9, { cal := { step := 3 } }, by decide +kernel⟩,
    ⟨{ wWith [(F.CAL_STAT_STATE, 9, 4)] with dev.chs := [(9, { cal := { step := 0 } })] }, 9, { cal := { step := 0 } }, by decide +kernel⟩⟩

/-- Each clause of `Obligations.GlideAndPhys` has a state and operands that meet its hypotheses. -/
theorem witness_glide_and_phys :
    (∃ (s : State) (c : Fin 32) (f : Fld) (g : Fld),
      s.dev.live = true ∧ (s.dev.chn c).run = none ∧ trimsDiffer s.dev c = true ∧ phyAwake s.dev c = true ∧ s.dev.on F.FS_STAT_ACTIVE = false ∧
      s.dev.fs.pfail = false ∧ s.dev.on F.CAL_CFG_GLIDE c = true ∧ (f, g, false) ∈ trims) ∧
    (∃ (s : State) (c : Fin 32),
      (s.dev.chn c).run.isSome = true) ∧
    (∃ (s : State) (c : Fin 32),
      s.dev.live = true ∧ (s.dev.chn c).run = none ∧ trimsDiffer s.dev c = false) ∧
    (∃ (s : State) (c : Fin 32),
      s.dev.live = true ∧ s.dev.on F.PM_CFG_PHYIDLE = true ∧ phyAwake s.dev c = true ∧ phyBusy s.dev c = false ∧ s.dev.on F.FS_STAT_ACTIVE = false) ∧
    (∃ (s : State),
      s.dev.on F.PM_CFG_PHYIDLE = false) ∧
    (∃ (s : State) (c : Fin 32),
      s.dev.live = true ∧ (s.dev.chn c).waking = true ∧ s.dev.on F.FS_STAT_ACTIVE = false ∧ s.dev.on F.CAL_CFG_AUTO c = false) ∧
    (∃ (s : State) (c : Fin 32),
      (s.dev.chn c).waking = false) :=
  ⟨⟨wWith [(F.PM_PHYSTAT_ON, 0, 0x3FF), (F.CAL_TSTRB_RDQS, 9, 5), (F.CAL_CFG_GLIDE, 9, 1)], 9, F.CAL_STRB_RDQS, F.CAL_TSTRB_RDQS, by decide +kernel⟩,
    ⟨{ wReady with dev.chs := [(9, { run := some 4 })] }, 9, by decide +kernel⟩,
    ⟨wReady, 9, by decide +kernel⟩,
    ⟨wWith [(F.PM_PHYSTAT_ON, 0, 0x3FF), (F.PM_CFG_PHYIDLE, 0, 1)], 9, by decide +kernel⟩,
    ⟨wWith [(F.PM_CFG_PHYIDLE, 0, 0)], by decide +kernel⟩,
    ⟨{ wWith [(F.CAL_CFG_AUTO, 9, 0)] with dev.chs := [(9, { waking := true })] }, 9, by decide +kernel⟩,
    ⟨wReady, 9, by decide +kernel⟩⟩

/-- Each clause of `Obligations.FabricResponses` has a state and operands that meet its hypotheses. -/
theorem witness_fabric_responses :
    (∃ (s : State) (p : Fin 4) (tag : Fin 256) (o : Outst),
      s.dev.live = true ∧ look (s.dev.prt p).rd.out tag = some o ∧ o.err = 0) ∧
    (∃ (s : State) (p : Fin 4) (tag : Fin 256) (o : Outst) (l : Nat),
      s.dev.live = true ∧ look (s.dev.prt p).rd.out tag = some o ∧ o.err = 0 ∧ o.req.what = .mapRead l) ∧
    (∃ (s : State) (p : Fin 4) (tag : Fin 256),
      s.dev.live = true ∧ look (s.dev.prt p).rd.out tag = none ∧ tag.val ∉ (s.dev.prt p).rd.quar) ∧
    (∃ (s : State) (p : Fin 4) (tag : Fin 256) (o : Outst) (l : Nat),
      s.dev.live = true ∧ look (s.dev.prt p).wr.out tag = some o ∧ o.req.what = .mapWrite l) ∧
    (∃ (s : State) (p : Fin 4) (tag : Fin 256) (r : Fin 4) (o : Outst) (l : Nat) (k : Nat),
      s.dev.live = true ∧ look (s.dev.prt p).wr.out tag = some o ∧ o.req.what = .mapWrite l ∧ r ≠ 0 ∧ k = (if r = 3 then 1 else r.val)) ∧
    (∃ (s : State) (p : Fin 4) (tag : Fin 256) (o : Outst) (l : Nat),
      s.dev.live = true ∧ look (s.dev.prt p).rd.out tag = some o ∧ o.req.what = .mapRead l) ∧
    (∃ (s : State) (p : Fin 4) (tag : Fin 256) (w : Bool),
      look ((s.dev.prt p).dir w).out tag = none) ∧
    (∃ (s : State) (a : Acc),
      s.dev.takes 0x2418 a = true) :=
  ⟨⟨{ wReady with dev.fab := [(2, { rd := { out := [(7, { req := { what := .mapRead 5, addr := 64, len := 16 } })] }, wr := { out := [] } })] }, 2, 7, { req := { what := .mapRead 5, addr := 64, len := 16 } }, by decide +kernel⟩,
    ⟨{ wReady with dev.fab := [(2, { rd := { out := [(7, { req := { what := .mapRead 5, addr := 64, len := 16 } })] }, wr := { out := [] } })] }, 2, 7, { req := { what := .mapRead 5, addr := 64, len := 16 } }, 5, by decide +kernel⟩,
    ⟨wReady, 2, 7, by decide +kernel⟩,
    ⟨{ wReady with dev.fab := [(2, { rd := { out := [] }, wr := { out := [(7, { req := { what := .mapWrite 5, addr := 64, len := 16 } })] } })] }, 2, 7, { req := { what := .mapWrite 5, addr := 64, len := 16 } }, 5, by decide +kernel⟩,
    ⟨{ wReady with dev.fab := [(2, { rd := { out := [] }, wr := { out := [(7, { req := { what := .mapWrite 5, addr := 64, len := 16 } })] } })] }, 2, 7, 3, { req := { what := .mapWrite 5, addr := 64, len := 16 } }, 5, 1, by decide +kernel⟩,
    ⟨{ wReady with dev.fab := [(2, { rd := { out := [(7, { req := { what := .mapRead 5, addr := 64, len := 16 } })] }, wr := { out := [] } })] }, 2, 7, { req := { what := .mapRead 5, addr := 64, len := 16 } }, 5, by decide +kernel⟩,
    ⟨wReady, 2, 7, true, by decide +kernel⟩,
    ⟨{ wWith [(F.FP_QUAR_RDQ, 0, 2)] with dev.fab := [(0, { rd := { quar := [3, 4] } })] }, {}, by decide +kernel⟩⟩

/-- Each clause of `Obligations.FabricArbitration` has a state and operands that meet its hypotheses. -/
theorem witness_fabric_arbitration :
    (∃ (s : State) (p : Fin 4) (w : Bool) (tag : Fin 256) (r : Req) (q : List Req),
      s.dev.live = true ∧ (p ≠ 0 ∨ w = false) ∧ look ((s.dev.prt p).dir w).out tag = none ∧ tag.val ∉ ((s.dev.prt p).dir w).quar ∧
      ((s.dev.prt p).dir w).gCtrl ≠ 0 ∧ ((s.dev.prt p).dir w).ctrl = r :: q ∧ r.kind = .ctrl ∧ 0 < ((s.dev.prt p).dir w).free ∧
      overlaps s.dev w r = false) ∧
    (∃ (s : State) (p : Fin 4) (w : Bool) (tag : Fin 256),
      s.dev.live = true ∧ (p ≠ 0 ∨ w = false) ∧ ((look ((s.dev.prt p).dir w).out tag).isSome = true ∨ tag.val ∈ ((s.dev.prt p).dir w).quar)) :=
  ⟨⟨{ wReady with dev.fab := [(2, { rd := { ctrl := [{ what := .mapRead 5, addr := 64, len := 16 }, { what := .mapWrite 5, addr := 64, len := 16 }] } })] }, 2, false, 7, { what := .mapRead 5, addr := 64, len := 16 }, [{ what := .mapWrite 5, addr := 64, len := 16 }], by decide +kernel⟩,
    ⟨{ wReady with dev.fab := [(2, { rd := { out := [(7, { req := { what := .mapRead 5, addr := 64, len := 16 } })] }, wr := { out := [] } })] }, 2, false, 7, by decide +kernel⟩⟩

/-- Each clause of `Obligations.DmaControl` has a state and operands that meet its hypotheses. -/
theorem witness_dma_control :
    (∃ (s : State) (c : Fin 16) (a : Acc),
      s.dev.takes (0x6144 + 0x80 * c.val) a = true ∧ s.dev.on F.DMA_GCTL_EN = true ∧ s.dev.rd (F.DMA_STAT_STATE.ix c) = 0 ∧ dmaTotal s.dev c ≠ 0) ∧
    (∃ (s : State) (c : Fin 16) (a : Acc),
      s.dev.takes (0x6144 + 0x80 * c.val) a = true ∧ (s.dev.on F.DMA_GCTL_EN = false ∨ (s.dev.rd (F.DMA_STAT_STATE.ix c) ≠ 0 ∧
      s.dev.rd (F.DMA_STAT_STATE.ix c) ≠ 3))) ∧
    (∃ (s : State) (c : Fin 16) (a : Acc),
      s.dev.takes (0x6144 + 0x80 * c.val) a = true ∧ s.dev.rd (F.DMA_STAT_STATE.ix c) = 1) ∧
    (∃ (s : State) (c : Fin 16) (a : Acc),
      s.dev.takes (0x6144 + 0x80 * c.val) a = true ∧ s.dev.rd (F.DMA_STAT_STATE.ix c) ≠ 1) ∧
    (∃ (s : State) (c : Fin 16) (a : Acc),
      s.dev.takes (0x6144 + 0x80 * c.val) a = true ∧ s.dev.rd (F.DMA_STAT_STATE.ix c) = 5) ∧
    (∃ (s : State) (c : Fin 16) (a : Acc),
      s.dev.takes (0x6144 + 0x80 * c.val) a = true ∧ s.dev.rd (F.DMA_STAT_STATE.ix c) ≠ 5) ∧
    (∃ (s : State) (c : Fin 16) (x : DmaCh) (n : Nat),
      s.dev.live = true ∧ dmaTurn s.dev true s.dev.dmaLastHi = none ∧ dmaTurn s.dev false s.dev.dmaLast = some c.val ∧ s.dev.dch c = x ∧ x.h0 = .free ∧
      x.h1 = .free ∧ x.placed < dmaTotal s.dev c ∧ n = dmaBurst s.dev c x.placed) ∧
    (∃ (s : State),
      dmaTurn s.dev true s.dev.dmaLastHi = none ∧ dmaTurn s.dev false s.dev.dmaLast = none) :=
  ⟨⟨wReady, 5, {}, by decide +kernel⟩,
    ⟨wWith [(F.DMA_STAT_STATE.ix 5, 0, 1)], 5, {}, by decide +kernel⟩,
    ⟨wWith [(F.DMA_STAT_STATE.ix 5, 0, 1)], 5, {}, by decide +kernel⟩,
    ⟨wReady, 5, {}, by decide +kernel⟩,
    ⟨wWith [(F.DMA_STAT_STATE.ix 5, 0, 5)], 5, {}, by decide +kernel⟩,
    ⟨wReady, 5, {}, by decide +kernel⟩,
    ⟨wWith [(F.DMA_STAT_STATE.ix 5, 0, 1), (F.DMA_ACNT_ACNT.ix 5, 0, 64)], 5, {}, 64, by decide +kernel⟩,
    ⟨wReady, by decide +kernel⟩⟩

/-- Each clause of `Obligations.InterruptPresentation` has a state and operands that meet its hypotheses. -/
theorem witness_interrupt_presentation :
    (∃ (s : State) (k : Fin 16) (n : Nat),
      s.dev.live = true ∧ s.dev.int.pres = [] ∧ bit s.dev.int.gap k = false ∧ pendingIds s.dev = [n] ∧ ((levelIds.all fun i => !rawLevel s.dev i) = true) ∧
      presentable s.dev k n = true ∧ (∀ j : Fin 16, j ≠ k → presentable s.dev j n = false)) ∧
    (∃ (s : State) (k : Fin 16) (n : Nat) (v : Nat),
      s.dev.live = true ∧ look s.dev.int.pres k = some (n, v) ∧ intActive s.dev n = false ∧ modGroup s.dev n = none) ∧
    (∃ (s : State) (k : Fin 16),
      look s.dev.int.pres k = none) ∧
    (∃ (s : State) (k : Fin 16) (a : Acc) (n : Nat),
      s.dev.takes (0x420C + 0x20 * k.val) a = true ∧ claimCandidate s.dev k = some n ∧ n < 1023 ∧ modGroup s.dev n = none) ∧
    (∃ (s : State) (k : Fin 16) (a : Acc),
      s.dev.takes (0x420C + 0x20 * k.val) a = true ∧ claimCandidate s.dev k = none) ∧
    (∃ (s : State) (k : Fin 16) (v : Word) (a : Acc),
      s.dev.takes (0x4210 + 0x20 * k.val) a = true ∧ look s.dev.int.act (fld v.toNat 0 10) = some k.val) ∧
    (∃ (s : State) (k : Fin 16) (v : Word) (a : Acc),
      s.dev.takes (0x4210 + 0x20 * k.val) a = true ∧ look s.dev.int.act (fld v.toNat 0 10) ≠ some k.val) ∧
    (∃ (s : State) (g : Fin 32),
      s.dev.live = true ∧ s.dev.on (F.MOD_STAT_HOLDOFF.ix g) = true) ∧
    (∃ (s : State) (g : Fin 32),
      s.dev.rd (F.MOD_STAT_HOLDOFF.ix g) = 0) :=
  ⟨⟨{ wWith [(F.INT_GCTL_EN, 0, 1), (F.INT_SRC_EN.ix 0x65, 0, 1), (F.INT_SRC_PRI.ix 0x65, 0, 5), (F.INT_SRC_ROUTE.ix 0x65, 0, 8), (F.INT_VBASE_LO_ADDR.ix 3, 0, 9)] with dev.int.pend := 2 ^ 0x65 }, 3, 0x65, by decide +kernel⟩,
    ⟨{ wReady with dev.int.pres := [(3, 0x65, 808)], dev.int.pend := 2 ^ 0x65 }, 3, 0x65, 808, by decide +kernel⟩,
    ⟨wReady, 3, by decide +kernel⟩,
    ⟨{ wWith [(F.INT_GCTL_EN, 0, 1), (F.INT_SRC_EN.ix 0x65, 0, 1), (F.INT_SRC_PRI.ix 0x65, 0, 5), (F.INT_SRC_ROUTE.ix 0x65, 0, 8), (F.INT_VBASE_LO_ADDR.ix 3, 0, 9)] with dev.int.pend := 2 ^ 0x65 }, 3, {}, 0x65, by decide +kernel⟩,
    ⟨wReady, 3, {}, by decide +kernel⟩,
    ⟨{ wReady with dev.int.act := [(0x65, 3)] }, 3, 0x65, {}, by decide +kernel⟩,
    ⟨wReady, 3, 0x65, {}, by decide +kernel⟩,
    ⟨wWith [(F.MOD_STAT_HOLDOFF.ix 6, 0, 1)], 6, by decide +kernel⟩,
    ⟨wReady, 6, by decide +kernel⟩⟩

/-- Each clause of `Obligations.InterruptControl` has a state and operands that meet its hypotheses. -/
theorem witness_interrupt_control :
    (∃ (s : State) (n : Fin 8) (a : Acc),
      s.dev.takes (0x4100 + 4 * n.val) a = true) ∧
    (∃ (s : State) (v : Word) (a : Acc),
      s.dev.takes 0x4000 a = true ∧ fld v.toNat 0 1 = 1) ∧
    (∃ (s : State) (v : Word) (a : Acc),
      s.dev.takes 0x4000 a = true ∧ fld v.toNat 0 1 = 0) :=
  ⟨⟨wReady, 3, {}, by decide +kernel⟩,
    ⟨wReady, 1, {}, by decide +kernel⟩,
    ⟨{ wWith [(F.INT_GCTL_EN, 0, 1)] with dev.int.pres := [(1, 5, 6), (3, 7, 8)] }, 0, {}, by decide +kernel⟩⟩

/-- Each clause of `Obligations.SporeRouter` has a state and operands that meet its hypotheses. -/
theorem witness_spore_router :
    (∃ (s : State) (x : Spore) (k : Fin 16),
      s.dev.live = true ∧ s.dev.on F.SPR_CTL_EN = true ∧ s.dev.spr.stage = [x] ∧ x.dst = 0x10 + k.val ∧ x.chan < 48 ∧
      s.dev.on (F.SPR_CH_LOOP.ix x.chan) = false) ∧
    (∃ (s : State) (x : Spore) (k : Fin 16),
      s.dev.live = true ∧ s.dev.on F.SPR_CTL_EN = true ∧ s.dev.spr.stage = [x] ∧ x.dst = k.val ∧ x.ns = true ∧ x.chan < 48 ∧
      s.dev.on (F.SPR_CH_LOOP.ix x.chan) = false ∧ s.dev.on (F.DMA_CFG_NS.ix k) = false) ∧
    (∃ (s : State),
      s.dev.live = true ∧ s.dev.on F.SPR_CTL_EN = false) ∧
    (∃ (s : State) (k : Fin 16),
      s.dev.live = true ∧ bit s.dev.spr.due k = true ∧ s.dev.on (F.SPR_LUT_FF.ix k) = true) ∧
    (∃ (s : State) (k : Fin 16),
      bit s.dev.spr.due k = false) ∧
    (∃ (s : State),
      s.dev.live = true) ∧
    (∃ (s : State) (a : Acc),
      s.dev.takes 0x5010 a = true) ∧
    (∃ (n : Fin 4),
      n ≠ 2) ∧
    (∃ (s : State),
      s.dev.pins.porstN = true) ∧
    (∃ (s : State),
      s.dev.live = true) :=
  ⟨⟨{ wReady with dev.spr.stage := [{ chan := 4, dst := 0x13, ns := true }] }, { chan := 4, dst := 0x13, ns := true }, 3, by decide +kernel⟩,
    ⟨{ wReady with dev.spr.stage := [{ chan := 4, dst := 3, ns := true }] }, { chan := 4, dst := 3, ns := true }, 3, by decide +kernel⟩,
    ⟨{ wWith [(F.SPR_CTL_EN, 0, 0)] with dev.spr.stage := [{ chan := 4, dst := 0x13, ns := true }] }, by decide +kernel⟩,
    ⟨{ wWith [(F.SPR_LUT_FF.ix 3, 0, 1)] with dev.spr.due := 8 }, 3, by decide +kernel⟩,
    ⟨wReady, 3, by decide +kernel⟩,
    ⟨wReady, by decide +kernel⟩,
    ⟨wReady, {}, by decide +kernel⟩,
    ⟨1, by decide +kernel⟩,
    ⟨wReady, by decide +kernel⟩,
    ⟨wReady, by decide +kernel⟩⟩

/-- Each clause of `Obligations.RouterRegisters` has a state and operands that meet its hypotheses. -/
theorem witness_router_registers :
    (∃ (s : State) (c : Fin 48) (v : Word) (a : Acc),
      s.dev.takes (0x5100 + 4 * c.val) a = true ∧ a.dom = 0 ∧ a.ns = false ∧ fld v.toNat 8 7 ≤ 95) ∧
    (∃ (s : State) (c : Fin 48) (a : Acc),
      s.dev.takes (0x5100 + 4 * c.val) a = true ∧ a.dom ≠ 0 ∧ s.dev.rd (F.SPR_CH_OWNER.ix c) ≠ a.dom.val) ∧
    (∃ (s : State) (k : Fin 16) (a : Acc),
      s.dev.takes (0x5300 + 4 * k.val) a = true ∧ a.dom = 0 ∧ a.ns = false) ∧
    (∃ (s : State) (k : Fin 16) (a : Acc),
      s.dev.takes (0x5300 + 4 * k.val) a = true ∧ a.dom ≠ 0 ∧ s.dev.rd (F.SPR_LUT_OWNER.ix k) ≠ a.dom.val) :=
  ⟨⟨wReady, 4, 0x91302, {}, by decide +kernel⟩,
    ⟨wReady, 4, { dom := 3 }, by decide +kernel⟩,
    ⟨wReady, 4, {}, by decide +kernel⟩,
    ⟨wReady, 4, { dom := 3 }, by decide +kernel⟩⟩

/-- Each clause of `Obligations.TenantLedger` has a state and operands that meet its hypotheses. -/
theorem witness_tenant_ledger :
    (∃ (s : State),
      s.dev.live = true ∧ s.dev.time % (1000 * s.dev.rd F.LG_CFG_PERIOD) = 0 ∧ s.dev.led.swapAt ≠ some s.dev.time ∧ swapWaits s.dev = false ∧
      s.dev.on F.LG_CTL_EXPEN = false) ∧
    (∃ (s : State) (v : Word) (a : Acc),
      s.dev.takes 0x7000 a = true ∧ fld v.toNat 0 1 = 0 ∧ s.dev.on F.LG_CTL_SNAP = false ∧ swapWaits s.dev = false) ∧
    (∃ (s : State) (e : Export),
      s.dev.live = true ∧ s.dev.time % (1000 * s.dev.rd F.LG_CFG_PERIOD) = 0 ∧ s.dev.led.swapAt ≠ some s.dev.time ∧ s.dev.led.run = some e) ∧
    (∃ (s : State),
      s.dev.inReset = false ∧ s.dev.cclkOn = false ∧ s.dev.time % (1000 * s.dev.rd F.LG_CFG_PERIOD) = 0 ∧ s.dev.led.swapAt ≠ some s.dev.time) ∧
    (∃ (s : State),
      (s.dev.time % (1000 * s.dev.rd F.LG_CFG_PERIOD) ≠ 0 ∨ s.dev.led.swapAt = some s.dev.time)) ∧
    (∃ (s : State),
      s.dev.inReset = true) ∧
    (∃ (s : State) (e : Export),
      s.dev.live = true ∧ s.dev.led.run = some e ∧ e.header = false ∧ e.tries = 0 ∧ (4096 ≤ e.next ∨ e.failed = true)) ∧
    (∃ (s : State),
      s.dev.inReset = false ∧ s.dev.time % (1000 * s.dev.rd F.LG_CFG_CAPINT) = 0 ∧ s.dev.led.capAt ≠ some s.dev.time) ∧
    (∃ (s : State) (v : Word) (a : Acc) (l : Nat),
      s.dev.takes 0x7010 a = true ∧ s.dev.led.timeHeld = some l ∧ v.toNat * 2 ^ 32 + l < s.dev.time ∧ l < 2 ^ 32 ∧
      (v.toNat * 2 ^ 32 + l) % (1000 * s.dev.rd F.LG_CFG_PERIOD) ≠ 0 ∧ (v.toNat * 2 ^ 32 + l) % (1000 * s.dev.rd F.LG_CFG_CAPINT) ≠ 0) :=
  ⟨⟨{ wReady with dev.led.active := [(0, { reads := 3 })] }, by decide +kernel⟩,
    ⟨{ wReady with dev.led.active := [(0, { reads := 3 })] }, 0, {}, by decide +kernel⟩,
    ⟨{ wReady with dev.led.run := some {} }, {}, by decide +kernel⟩,
    ⟨wWith [(F.PM_STAT_STATE, 0, 3)], by decide +kernel⟩,
    ⟨wWith [(F.LG_TIME_LO_TIME, 0, 77)], by decide +kernel⟩,
    ⟨{ wReady with dev.pins.srstN := false }, by decide +kernel⟩,
    ⟨{ wReady with dev.led.run := some { next := 4096 } }, { next := 4096 }, by decide +kernel⟩,
    ⟨wWith [(F.TN_CAPUSE_USE, 3, 9), (F.TN_USE_CAPPED, 3, 1)], by decide +kernel⟩,
    ⟨{ wWith [(F.LG_TIME_LO_TIME, 0, 77)] with dev.led.timeHeld := some 5 }, 0, {}, 5, by decide +kernel⟩⟩

/-- Each clause of `Obligations.MemoryProtection` has a state and operands that meet its hypotheses. -/
theorem witness_memory_protection :
    (∃ (s : State) (r : Fin 12) (w : Nat),
      s.dev.live = true ∧ s.dev.on F.MP_CFG_SCRUBEN = true ∧ regionReady s.dev r = true ∧ w = (look s.dev.mp.pos r).getD 0 ∧
      look s.dev.mp.bad (wordKey r w) = none ∧ w % 512 ≠ 511 ∧ w + 1 < regionWords.getD r 0) ∧
    (∃ (s : State) (r : Fin 12) (w : Nat) (y : Nat),
      s.dev.live = true ∧ s.dev.on F.MP_CFG_SCRUBEN = true ∧ regionReady s.dev r = true ∧ w = (look s.dev.mp.pos r).getD 0 ∧
      look s.dev.mp.bad (wordKey r w) = none ∧ w % 512 ≠ 511 ∧ w + 1 < regionWords.getD r 0 ∧ y ≠ 0xFF ∧ s.dev.mp.log = []) ∧
    (∃ (s : State) (r : Fin 12),
      regionReady s.dev r = false) ∧
    (∃ (s : State),
      s.dev.live = true ∧ s.dev.on F.MP_SCRUB_LAPLIM = true ∧ 10 * s.dev.rd F.MP_SCRUB_LAPLIM < s.dev.rd F.MP_LAP_CUR ∧ s.dev.mp.alarmed = false) ∧
    (∃ (s : State),
      s.dev.mp.alarmed = true) ∧
    (∃ (s : State) (v : Word) (a : Acc),
      s.dev.takes 0x8008 a = true ∧ fld v.toNat 4 4 ≤ 11 ∧ isRet (fld v.toNat 4 4) = false ∧ s.dev.on F.MP_CFG_INIT = true ∧
      s.dev.on F.MP_STAT_FILLBUSY = false) ∧
    (∃ (s : State) (a : Acc),
      s.dev.takes 0x8008 a = true ∧ s.dev.on F.MP_STAT_FILLBUSY = true) ∧
    (∃ (s : State),
      s.dev.live = true ∧ s.dev.on F.MP_STAT_FILLBUSY = true ∧ s.dev.on F.TST_INJ_ARM = false ∧ s.dev.mp.filling ≤ 11) ∧
    (∃ (s : State) (a : Acc) (e : LogEnt) (r : List LogEnt),
      s.dev.takes 0x801C a = true ∧ s.dev.mp.log = e :: r) ∧
    (∃ (s : State) (a : Acc),
      s.dev.takes 0x801C a = true ∧ s.dev.mp.log = []) ∧
    (∃ (s : State) (a : Acc),
      s.dev.takes 0x802C a = true) :=
  ⟨⟨{ wReady with dev.mp.pos := [(3, 9)] }, 3, 9, by decide +kernel⟩,
    ⟨{ wReady with dev.mp.pos := [(3, 9)] }, 3, 9, 7, by decide +kernel⟩,
    ⟨wWith [(F.MP_STAT_READY, 0, 0x060)], 3, by decide +kernel⟩,
    ⟨wWith [(F.MP_LAP_CUR, 0, 20000)], by decide +kernel⟩,
    ⟨{ wReady with dev.mp.alarmed := true }, by decide +kernel⟩,
    ⟨wWith [(F.MP_CFG_INIT, 0, 1)], 0x70, {}, by decide +kernel⟩,
    ⟨wWith [(F.MP_STAT_FILLBUSY, 0, 1)], {}, by decide +kernel⟩,
    ⟨{ wWith [(F.MP_STAT_FILLBUSY, 0, 1), (F.MP_STAT_READY, 0, 0x060)] with dev.mp.filling := 7 }, by decide +kernel⟩,
    ⟨{ wReady with dev.mp.log := [{ region := 3, word := 9, kind := 0, synd := 7, time := 5 }] }, {}, { region := 3, word := 9, kind := 0, synd := 7, time := 5 }, [], by decide +kernel⟩,
    ⟨wReady, {}, by decide +kernel⟩,
    ⟨wWith [(F.MP_UELOG1_VALID, 0, 1)], {}, by decide +kernel⟩⟩

/-- Each clause of `Obligations.ClocksAndSupply` has a state and operands that meet its hypotheses. -/
theorem witness_clocks_and_supply :
    (∃ (s : State),
      s.dev.inReset = false ∧ s.dev.cclkOn = true ∧ s.dev.on F.FS_STAT_ACTIVE = false) ∧
    (∃ (s : State),
      s.dev.inReset = false ∧ s.dev.cclkOn = true ∧ s.dev.on F.FS_STAT_ACTIVE = false) ∧
    (∃ (s : State),
      s.dev.inReset = false ∧ s.dev.cclkOn = true) ∧
    (∃ (s : State),
      s.dev.inReset = false ∧ s.dev.cclkOn = true ∧ s.dev.on F.FS_STAT_ACTIVE = false) ∧
    (∃ (s : State),
      s.dev.inReset = false ∧ s.dev.cclkOn = true ∧ s.dev.on F.FS_STAT_ACTIVE = false) ∧
    (∃ (s : State),
      s.dev.pins.porstN = false) :=
  ⟨⟨wReady, by decide +kernel⟩,
    ⟨wReady, by decide +kernel⟩,
    ⟨wReady, by decide +kernel⟩,
    ⟨wReady, by decide +kernel⟩,
    ⟨wReady, by decide +kernel⟩,
    ⟨{ wReady with dev.pins.porstN := false }, by decide +kernel⟩⟩

/-- `Obligations.FailSafeEntry` has a state and operands that meet its hypotheses. -/
theorem witness_fail_safe_entry :
    ∃ (s : State),
      s.dev.inReset = false ∧ s.dev.cclkOn = true ∧ s.dev.on F.FS_STAT_ACTIVE = true :=
  ⟨wWith [(F.FS_STAT_ACTIVE, 0, 1), (F.FS_STAT_CAUSE, 0, 6)], by decide +kernel⟩

/-- Each clause of `Obligations.Sensors` has a state and operands that meet its hypotheses. -/
theorem witness_sensors :
    (∃ (s : State) (r : Reading) (d : Dev) (lv : Nat),
      s.dev.live = true ∧ 32 ≤ r.sensor.val ∧
      d = thMax (holdCheck (Dev.each (List.range 40) zoneLevel (checkReading r.sensor (takeReading r.sensor r.cnt r.temp (beforeEvaluation s.dev))))) ∧
      lv = max (max (zLvl d (hotZone d)) (d.rd F.TH_FORCE_MIN)) (if safeHold d || d.th.holdTrip then 7 else 0) ∧ lv = d.rd F.TH_STAT_LEVEL) ∧
    (∃ (s : State) (r : Reading),
      sensOn s.dev r.sensor = true) ∧
    (∃ (s : State) (a : Acc),
      s.dev.takes 0x9148 a = true) ∧
    (∃ (s : State) (a : Acc),
      s.dev.takes 0x914C a = true) ∧
    (∃ (s : State) (a : Acc),
      s.dev.takes 0x9104 a = true) :=
  ⟨⟨wReady, { sensor := 33, cnt := 500, temp := 60 }, thMax (holdCheck (Dev.each (List.range 40) zoneLevel (checkReading ({ sensor := 33, cnt := 500, temp := 60 } : Reading).sensor (takeReading ({ sensor := 33, cnt := 500, temp := 60 } : Reading).sensor ({ sensor := 33, cnt := 500, temp := 60 } : Reading).cnt ({ sensor := 33, cnt := 500, temp := 60 } : Reading).temp (beforeEvaluation (wReady : State).dev))))), 0, by decide +kernel⟩,
    ⟨wReady, { sensor := 33, cnt := 500, temp := 60 }, by decide +kernel⟩,
    ⟨wWith [(F.TS_STATE.ix 2, 0, 1)], {}, by decide +kernel⟩,
    ⟨wWith [(F.TS_STATE.ix 34, 0, 1)], {}, by decide +kernel⟩,
    ⟨wReady, {}, by decide +kernel⟩⟩

/-- Each clause of `Obligations.ThermalLog` has a state and operands that meet its hypotheses. -/
theorem witness_thermal_log :
    (∃ (s : State) (b : List Byte),
      s.dev.th.record = some b ∧ s.dev.nor.found = true ∧ s.dev.on F.CFG_LOG_ARMED = true ∧ s.dev.upd.nor = 0 ∧ s.dev.inReset = false) ∧
    (∃ (s : State) (b : List Byte),
      s.dev.th.record = some b ∧ s.dev.nor.found = true ∧ s.dev.on F.CFG_LOG_ARMED = true ∧ s.dev.upd.nor = 0 ∧ s.dev.inReset = false) ∧
    (∃ (s : State),
      s.dev.th.trip = true ∧ s.dev.pins.thTripN = true ∧ (s.dev.th.record = none ∨ s.dev.on F.CFG_LOG_ARMED = true)) ∧
    (∃ (s : State) (b : List Byte),
      s.dev.th.trip = true ∧ s.dev.pins.thTripN = true ∧ s.dev.th.record = some b ∧ s.dev.on F.CFG_LOG_ARMED = false) ∧
    (∃ (s : State),
      s.dev.th.trip = false) ∧
    (∃ (s : State),
      s.dev.live = true ∧ s.dev.on F.CFG_LOG_PREP = true) ∧
    (∃ (s : State),
      s.dev.on F.CFG_LOG_PREP = false) :=
  ⟨⟨{ wWith [(F.CFG_LOG_ARMED, 0, 1)] with dev.th.record := some (leBytes 4 0x54484C31 ++ leBytes 4 9 ++ List.replicate 24 0), dev.nor.found := true }, leBytes 4 0x54484C31 ++ leBytes 4 9 ++ List.replicate 24 0, by decide +kernel⟩,
    ⟨{ wWith [(F.CFG_LOG_ARMED, 0, 1)] with dev.th.record := some (leBytes 4 0x54484C31 ++ leBytes 4 9 ++ List.replicate 24 0), dev.nor.found := true }, leBytes 4 0x54484C31 ++ leBytes 4 9 ++ List.replicate 24 0, by decide +kernel⟩,
    ⟨{ wReady with dev.th.trip := true }, by decide +kernel⟩,
    ⟨{ wReady with dev.th.trip := true, dev.th.record := some (leBytes 4 0x54484C31 ++ leBytes 4 9 ++ List.replicate 24 0) }, leBytes 4 0x54484C31 ++ leBytes 4 9 ++ List.replicate 24 0, by decide +kernel⟩,
    ⟨wReady, by decide +kernel⟩,
    ⟨wWith [(F.CFG_LOG_PREP, 0, 1)], by decide +kernel⟩,
    ⟨wReady, by decide +kernel⟩⟩

/-- Each clause of `Obligations.PowerStates` has a state and operands that meet its hypotheses. -/
theorem witness_power_states :
    (∃ (s : State) (a : Acc),
      s.dev.takes 0x9000 a = true ∧ s.dev.rd F.PM_STAT_STATE ≤ 1 ∧ s.dev.rd F.UPD_STAT_STATE = 0) ∧
    (∃ (s : State) (a : Acc),
      s.dev.takes 0x9000 a = true ∧ s.dev.rd F.PM_STAT_STATE ≤ 1 ∧ s.dev.rd F.UPD_STAT_STATE = 0) ∧
    (∃ (s : State) (a : Acc),
      s.dev.takes 0x9000 a = true ∧ s.dev.rd F.PM_STAT_STATE = 2) ∧
    (∃ (s : State) (a : Acc),
      s.dev.takes 0x9000 a = true ∧ s.dev.rd F.PM_STAT_STATE ≤ 1) ∧
    (∃ (s : State),
      s.dev.live = true ∧ s.dev.rd F.PM_STAT_STATE = 2 ∧ pmBlock s.dev ≠ 0) ∧
    (∃ (s : State),
      s.dev.live = true ∧ s.dev.rd F.PM_STAT_STATE = 2 ∧ pmBlock s.dev = 0 ∧ pmWaits s.dev = false ∧ s.dev.pm.off = true ∧ s.dev.rd F.PM_CTL_REQ = 1) ∧
    (∃ (s : State),
      s.dev.rd F.PM_STAT_STATE ≠ 2) ∧
    (∃ (s : State),
      s.dev.live = true ∧ s.dev.rd F.PM_STAT_STATE = 2 ∧ s.dev.on F.PM_CFG_ENTTO = true) ∧
    (∃ (s : State),
      s.dev.inReset = false ∧ s.dev.rd F.PM_STAT_STATE = 3) ∧
    (∃ (s : State),
      s.dev.rd F.PM_STAT_STATE ≤ 1) ∧
    (∃ (s : State),
      s.dev.rd F.PM_STAT_STATE = 4 ∧ s.dev.pm.hib = false ∧ s.dev.pins.cclkLost = false ∧ s.dev.pins.aonLost = false ∧ s.dev.int.held = [] ∧
      s.dev.led.mergedDue = false ∧ s.dev.pm.causes = [] ∧ s.dev.port.waiting = []) ∧
    (∃ (s : State),
      s.dev.rd F.PM_STAT_STATE ≠ 4 ∧ (s.dev.cclkOn = false ∨ s.dev.port.waiting = [])) :=
  ⟨⟨wReady, {}, by decide +kernel⟩,
    ⟨wReady, {}, by decide +kernel⟩,
    ⟨wWith [(F.PM_STAT_STATE, 0, 2), (F.PM_CTL_REQ, 0, 1)], {}, by decide +kernel⟩,
    ⟨wReady, {}, by decide +kernel⟩,
    ⟨{ wWith [(F.PM_STAT_STATE, 0, 2)] with dev.cells := [(3, {})] }, by decide +kernel⟩,
    ⟨{ wWith [(F.PM_STAT_STATE, 0, 2), (F.PM_CTL_REQ, 0, 1)] with dev.pm.off := true }, by decide +kernel⟩,
    ⟨wReady, by decide +kernel⟩,
    ⟨wWith [(F.PM_STAT_STATE, 0, 2)], by decide +kernel⟩,
    ⟨wWith [(F.PM_STAT_STATE, 0, 3)], by decide +kernel⟩,
    ⟨wReady, by decide +kernel⟩,
    ⟨wWith [(F.PM_STAT_STATE, 0, 4)], by decide +kernel⟩,
    ⟨wReady, by decide +kernel⟩⟩

/-- Each clause of `Obligations.ResetsAndBoot` has a state and operands that meet its hypotheses. -/
theorem witness_resets_and_boot :
    (∃ (s : State),
      s.fuse.trims = [] ∧ s.dev.nor.undone = []) ∧
    (∃ (s : State),
      s.dev.pins.porstN = true ∧ s.dev.nor.undone = []) ∧
    (∃ (s : State) (e : BootEnv),
      s.dev.inReset = true ∧ s.dev.pins.pfailN = true ∧ (if s.dev.cold then e.testMode else s.dev.tst.testMode) = false ∧ s.dev.upd.recoverNext = false ∧
      sfdpErr e.sfdp = 0 ∧ s.dev.on F.FS_STAT_ACTIVE = false ∧ e.stop = none ∧ headerErr s.fuse.uid (norRead s.dev 0 64) = 0) ∧
    (∃ (s : State) (e : BootEnv),
      s.dev.inReset = true ∧ s.dev.pins.pfailN = true ∧ (if s.dev.cold then e.testMode else s.dev.tst.testMode) = false ∧ sfdpErr e.sfdp ≠ 0 ∧
      s.dev.on F.FS_STAT_ACTIVE = false ∧ e.stop = none) ∧
    (∃ (s : State) (e : BootEnv),
      s.dev.inReset = true ∧ s.dev.cold = true ∧ e.testMode = true) ∧
    (∃ (s : State) (e : BootEnv),
      s.dev.inReset = true ∧ s.dev.pins.pfailN = false ∧ (if s.dev.cold then e.testMode else s.dev.tst.testMode) = false) ∧
    (∃ (s : State) (e : BootEnv),
      s.dev.inReset = false ∧ s.dev.tst.testMode = false ∧ s.dev.rd F.BOOT_STAT_PHASE = 9 ∧ sfdpErr e.sfdp ≠ 0 ∧ s.dev.on F.FS_STAT_ACTIVE = false ∧
      e.stop = none) ∧
    (∃ (s : State),
      s.dev.live = true ∧ s.dev.on F.BOOT_STAT_ENUM = true ∧ (((bitsOf 32 s.dev.bootCh).all fun c => !s.dev.on F.CH_STAT_ENUMBUSY c) = true) ∧
      s.dev.cold = false) ∧
    (∃ (s : State),
      (((bitsOf 32 s.dev.bootCh).any fun c => s.dev.on F.CH_STAT_ENUMBUSY c) = true)) :=
  ⟨⟨wReady, by decide +kernel⟩,
    ⟨wReady, by decide +kernel⟩,
    ⟨{ wReady with dev.pins.porstN := false, dev.nor.mem := (leBytes 4 0x43464731 ++ leBytes 2 0x4832 ++ leBytes 1 0xB1 ++ List.replicate 53 0 ++ leBytes 4 (crc32c (leBytes 4 0x43464731 ++ leBytes 2 0x4832 ++ leBytes 1 0xB1 ++ List.replicate 53 0))).mapIdx fun i b => (i, b) }, { us := 99999, sfdp := (leBytes 4 0x50444653 ++ leBytes 4 0 ++ [0, 0, 1, 2, 16, 0, 0, 0xFF] ++ leBytes 4 1 ++ leBytes 4 0x1FFFFF) }, by decide +kernel⟩,
    ⟨State.reset, { sfdp := [0] }, by decide +kernel⟩,
    ⟨State.reset, { testMode := true }, by decide +kernel⟩,
    ⟨{ State.reset with dev.pins.pfailN := false }, {}, by decide +kernel⟩,
    ⟨wWith [(F.BOOT_STAT_PHASE, 0, 9)], { sfdp := [0] }, by decide +kernel⟩,
    ⟨{ wWith [(F.BOOT_STAT_ENUM, 0, 1)] with dev.cold := false }, by decide +kernel⟩,
    ⟨{ wWith [(F.CH_STAT_ENUMBUSY, 3, 1)] with dev.bootCh := 8 }, by decide +kernel⟩⟩

/-- Each clause of `Obligations.Commits` has a state and operands that meet its hypotheses. -/
theorem witness_commits :
    (∃ (s : State) (v : Word) (a : Acc),
      s.dev.takes 0x10 a = true ∧ fld v.toNat 0 4 ≤ 8 ∧ fld v.toNat 0 4 ≠ 0 ∧
      (commitWaits s.dev (fld v.toNat 0 4) (fun i => fld v.toNat 8 1 != 0 || (match fld v.toNat 0 4 with | 0 => i == selIndex s.dev a.dom.val .ch | 1 => i == selIndex s.dev a.dom.val .cl | 3 => i == selIndex s.dev a.dom.val .ten | _ => true)) = false)) ∧
    (∃ (s : State) (c : Nat) (r : Nat) (a : Acc),
      s.dev.takes 0x10 a = true ∧ selIndex s.dev a.dom.val .ch = c ∧ s.dev.captured = [] ∧ s.dev.shadow = [(F.CH_OPCFG_RATE.key c, r)] ∧ c < 32 ∧
      r ≠ s.dev.rd F.CH_OPCFG_RATE c) ∧
    (∃ (s : State) (v : Word) (a : Acc),
      s.dev.takes 0x10 a = true ∧ fld v.toNat 0 4 ≤ 8 ∧
      (commitWaits s.dev (fld v.toNat 0 4) (fun i => fld v.toNat 8 1 != 0 || (match fld v.toNat 0 4 with | 0 => i == selIndex s.dev a.dom.val .ch | 1 => i == selIndex s.dev a.dom.val .cl | 3 => i == selIndex s.dev a.dom.val .ten | _ => true)) = true)) ∧
    (∃ (s : State) (v : Nat),
      s.dev.live = true ∧ s.dev.captured = [(F.LIFT_BUDGET_ARRAY.key 0, v)] ∧ v < 2 ^ 12) ∧
    (∃ (s : State) (g : Fin 9) (n : Fin 4096) (part : Fin 2),
      s.dev.live = true ∧ g.val ∉ [0, 2, 3, 8] ∧ ((s.dev.captured.filter fun (p : Nat × Nat) => inGroup g n p.1 && partOf p.1 == part.val) ≠ [])) ∧
    (∃ (s : State) (x : Nat) (code : Nat),
      s.dev.live = true ∧ (dieCheck false (s.dev.captured.filter fun (p : Nat × Nat) => inGroup 2 0 p.1 && partOf p.1 == 0) s.dev = some (x, code)) ∧
      ((s.dev.captured.filter fun (p : Nat × Nat) => inGroup 2 0 p.1 && partOf p.1 == 0) ≠ [])) :=
  ⟨⟨{ wReady with dev.shadow := [(F.TH_POL_POLICY.key 0, 1)] }, 8, {}, by decide +kernel⟩,
    ⟨{ wReady with dev.shadow := [(F.CH_OPCFG_RATE.key 0, 2)] }, 0, 2, {}, by decide +kernel⟩,
    ⟨{ wReady with dev.captured := [(F.TH_POL_POLICY.key 0, 1)] }, 8, {}, by decide +kernel⟩,
    ⟨{ wReady with dev.captured := [(F.LIFT_BUDGET_ARRAY.key 0, 0x200)] }, 0x200, by decide +kernel⟩,
    ⟨{ wReady with dev.captured := [(F.LM_TRK_THR.key 0, 1)] }, 5, 0, 0, by decide +kernel⟩,
    ⟨{ wReady with dev.captured := [(F.DIE_MAP_TGT.key 1, 5), (F.DIE_MAP_V.key 1, 1)] }, 1, 1, by decide +kernel⟩⟩

/-- Each clause of `Obligations.UpdateSession` has a state and operands that meet its hypotheses. -/
theorem witness_update_session :
    (∃ (s : State) (v : Word) (a : Acc),
      s.dev.takes 0xA100 a = true ∧ s.dev.rd F.UPD_STAT_STATE = 0 ∧ s.dev.on F.SC_STAT_BUSY = false ∧ fld v.toNat 0 3 ≤ 4 ∧ (fld v.toNat 9 1 = 0 ∧
      fld v.toNat 10 1 = 0 ∧ fld v.toNat 11 1 = 0) ∧ s.dev.nor.found = true ∧ targetOk s.dev (fld v.toNat 0 3) = true ∧
      lenOk (fld v.toNat 0 3) (s.dev.rd F.UPD_LEN_LEN) = true) ∧
    (∃ (s : State) (v : Word) (a : Acc),
      s.dev.takes 0xA100 a = true ∧ s.dev.rd F.UPD_STAT_STATE = 0 ∧ s.dev.on F.SC_STAT_BUSY = false ∧ fld v.toNat 0 3 ≤ 4 ∧ (fld v.toNat 9 1 = 0 ∧
      fld v.toNat 10 1 = 0 ∧ fld v.toNat 11 1 = 0) ∧ s.dev.nor.found = true ∧ targetOk s.dev (fld v.toNat 0 3) = false) ∧
    (∃ (s : State),
      s.dev.live = true ∧ s.dev.upd.nor = 1 ∧ s.dev.upd.aborting = false ∧ s.dev.rd F.UPD_STAT_STATE = 1) ∧
    (∃ (s : State),
      s.dev.live = true ∧ s.dev.upd.nor = 1 ∧ s.dev.upd.aborting = false) ∧
    (∃ (s : State) (a : Acc),
      s.dev.takes 0xA10C a = true ∧ s.dev.rd F.UPD_STAT_STATE = 2 ∧ s.dev.on F.UPD_STAT_FULL = false ∧ s.dev.rd F.UPD_CTL_TARGET ≤ 1 ∧
      256 ≤ s.dev.rd F.UPD_LEN_LEN ∧ s.dev.rd F.UPD_OFF_OFF + 4 < 256 ∧ s.dev.upd.got = [] ∧ s.dev.upd.intake = [] ∧
      s.dev.rd F.UPD_RCVD_BYTES + 4 < 2 ^ 17) ∧
    (∃ (s : State) (a : Acc),
      s.dev.takes 0xA10C a = true ∧ (s.dev.rd F.UPD_STAT_STATE ≠ 2 ∨ s.dev.on F.UPD_STAT_FULL = true)) ∧
    (∃ (s : State) (a : Acc),
      s.dev.takes 0xA108 a = true ∧ (s.dev.rd F.UPD_STAT_STATE ≠ 2 ∨ (s.dev.upd.intake = [] ∧ s.dev.upd.flush = false))) ∧
    (∃ (s : State) (v : Word) (a : Acc),
      s.dev.takes 0xA100 a = true ∧ s.dev.rd F.UPD_STAT_STATE = 2 ∧ fld v.toNat 0 3 = s.dev.rd F.UPD_CTL_TARGET ∧ fld v.toNat 0 3 ≤ 4 ∧
      (fld v.toNat 8 1 = 0 ∧ fld v.toNat 9 1 = 0 ∧ fld v.toNat 10 1 = 0) ∧ s.dev.upd.intake ≠ [] ∧ s.dev.upd.nor = 0) ∧
    (∃ (s : State),
      s.dev.live = true ∧ s.dev.upd.nor = 2 ∧ s.dev.upd.aborting = false ∧ s.dev.upd.flush = false ∧ s.dev.upd.intake = []) ∧
    (∃ (s : State),
      s.dev.live = true ∧ s.dev.upd.nor = 2 ∧ s.dev.upd.aborting = false) ∧
    (∃ (s : State) (v : Word) (a : Acc),
      s.dev.takes 0xA100 a = true ∧ s.dev.rd F.UPD_STAT_STATE = 2 ∧ fld v.toNat 0 3 = s.dev.rd F.UPD_CTL_TARGET ∧ fld v.toNat 0 3 ≤ 4 ∧
      (fld v.toNat 8 1 = 0 ∧ fld v.toNat 9 1 = 0 ∧ fld v.toNat 11 1 = 0) ∧ s.dev.upd.nor = 0) :=
  ⟨⟨{ wWith [(F.UPD_LEN_LEN, 0, 1024)] with dev.nor.found := true, dev.upd.bp.active := 1 }, 0x100, {}, by decide +kernel⟩,
    ⟨{ wWith [(F.UPD_LEN_LEN, 0, 1024)] with dev.nor.found := true }, 0x100, {}, by decide +kernel⟩,
    ⟨{ wWith [(F.UPD_STAT_STATE, 0, 1)] with dev.upd.nor := 1 }, by decide +kernel⟩,
    ⟨{ wWith [(F.UPD_STAT_STATE, 0, 1)] with dev.upd.nor := 1 }, by decide +kernel⟩,
    ⟨wWith [(F.UPD_STAT_STATE, 0, 2), (F.UPD_LEN_LEN, 0, 1024), (F.UPD_OFF_OFF, 0, 8)], {}, by decide +kernel⟩,
    ⟨wReady, {}, by decide +kernel⟩,
    ⟨wReady, {}, by decide +kernel⟩,
    ⟨{ wWith [(F.UPD_STAT_STATE, 0, 2), (F.UPD_LEN_LEN, 0, 1024)] with dev.upd.intake := [(4, 1), (5, 2)] }, 0x800, {}, by decide +kernel⟩,
    ⟨{ wWith [(F.UPD_STAT_STATE, 0, 2), (F.UPD_LEN_LEN, 0, 1024)] with dev.upd.nor := 2, dev.upd.prog := [(4, 1), (5, 2)] }, by decide +kernel⟩,
    ⟨{ wWith [(F.UPD_STAT_STATE, 0, 2), (F.UPD_LEN_LEN, 0, 1024)] with dev.upd.nor := 2, dev.upd.prog := [(4, 1), (5, 2)] }, by decide +kernel⟩,
    ⟨wWith [(F.UPD_STAT_STATE, 0, 2), (F.UPD_LEN_LEN, 0, 1024)], 0x400, {}, by decide +kernel⟩⟩

/-- Each clause of `Obligations.UpdateVerify` has a state and operands that meet its hypotheses. -/
theorem witness_update_verify :
    (∃ (s : State) (v : Word) (a : Acc),
      s.dev.takes 0xA100 a = true ∧ s.dev.rd F.UPD_STAT_STATE = 2 ∧ fld v.toNat 0 3 = s.dev.rd F.UPD_CTL_TARGET ∧ fld v.toNat 0 3 ≤ 4 ∧
      (fld v.toNat 8 1 = 0 ∧ fld v.toNat 10 1 = 0 ∧ fld v.toNat 11 1 = 0) ∧ s.dev.upd.intake = []) ∧
    (∃ (s : State),
      s.dev.live = true ∧ s.dev.rd F.UPD_STAT_STATE = 3 ∧ s.dev.upd.nor = 0 ∧ s.dev.rd F.UPD_RCVD_BYTES = s.dev.rd F.UPD_LEN_LEN ∧
      targetErr s.fuse s.dev = (0, 0, 0)) ∧
    (∃ (s : State) (e : Nat) (pc : Nat) (p : Nat),
      s.dev.live = true ∧ s.dev.rd F.UPD_STAT_STATE = 3 ∧ s.dev.upd.nor = 0 ∧ s.dev.rd F.UPD_RCVD_BYTES = s.dev.rd F.UPD_LEN_LEN ∧
      targetErr s.fuse s.dev = (e, pc, p) ∧ e ≠ 0) ∧
    (∃ (s : State),
      s.dev.live = true ∧ s.dev.rd F.UPD_STAT_STATE = 3 ∧ s.dev.upd.nor = 0 ∧ s.dev.upd.stored = false ∧ s.dev.rd F.UPD_RCVD_BYTES ≠ s.dev.rd F.UPD_LEN_LEN) :=
  ⟨⟨wWith [(F.UPD_STAT_STATE, 0, 2), (F.UPD_LEN_LEN, 0, 1024)], 0x200, {}, by decide +kernel⟩,
    ⟨{ wWith [(F.UPD_STAT_STATE, 0, 3), (F.UPD_CTL_TARGET, 0, 2), (F.UPD_LEN_LEN, 0, 64), (F.UPD_RCVD_BYTES, 0, 64)] with dev.nor.mem := ((leBytes 4 0x53455431 ++ leBytes 56 0) ++ leBytes 4 (crc32c (leBytes 4 0x53455431 ++ leBytes 56 0))).mapIdx fun i b => (0x8000 + i, b) }, by decide +kernel⟩,
    ⟨wWith [(F.UPD_STAT_STATE, 0, 3), (F.UPD_CTL_TARGET, 0, 2), (F.UPD_LEN_LEN, 0, 64), (F.UPD_RCVD_BYTES, 0, 64)], 11, 0, 0, by decide +kernel⟩,
    ⟨wWith [(F.UPD_STAT_STATE, 0, 3), (F.UPD_LEN_LEN, 0, 64)], by decide +kernel⟩⟩

/-- Clause 1 of `Obligations.SealedCommands` has a state and operands that meet its hypotheses. -/
theorem witness_sealed_commands_1 :
    ∃ (s : State) (a : Acc) (ck : Bool),
      s.dev.portReady = true ∧ masked 0xA240 a s.dev = false ∧ scCmd (scBytes s.dev) = 1 ∧ s.dev.on F.SC_STAT_BUSY = false ∧
      scResult s.fuse ck (scBytes s.dev) s.dev = 1 ∧ ckDue (scBytes s.dev) s.dev = false ∧ scArg (scBytes s.dev) 17 1 = 0 :=
  ⟨{ wSealed 1 [1, 0, 3] [(F.UPD_STAT_VOKB, 0, 1)] with dev.nor.found := true }, {}, true, by decide +kernel⟩

/-- Clause 2 of `Obligations.SealedCommands` has a state and operands that meet its hypotheses. -/
theorem witness_sealed_commands_2 :
    ∃ (s : State) (a : Acc) (ck : Bool),
      s.dev.portReady = true ∧ masked 0xA240 a s.dev = false ∧ scCmd (scBytes s.dev) = 1 ∧ s.dev.on F.SC_STAT_BUSY = false ∧
      scResult s.fuse ck (scBytes s.dev) s.dev = 1 ∧ ckDue (scBytes s.dev) s.dev = false ∧ scArg (scBytes s.dev) 17 1 = 1 :=
  ⟨{ wSealed 1 [1, 1, 3] [(F.UPD_STAT_VOKB, 0, 1)] with dev.nor.found := true }, {}, true, by decide +kernel⟩

/-- Clause 3 of `Obligations.SealedCommands` has a state and operands that meet its hypotheses. -/
theorem witness_sealed_commands_3 :
    ∃ (s : State) (a : Acc) (ck : Bool),
      s.dev.portReady = true ∧ masked 0xA240 a s.dev = false ∧ scCmd (scBytes s.dev) = 2 ∧ s.dev.on F.SC_STAT_BUSY = false ∧
      scResult s.fuse ck (scBytes s.dev) s.dev = 1 ∧ ckDue (scBytes s.dev) s.dev = false :=
  ⟨{ wSealed 2 [0, 1] [] with dev.nor.found := true, dev.upd.bp.trial := true, dev.upd.slot := some 0 }, {}, true, by decide +kernel⟩

/-- Clause 4 of `Obligations.SealedCommands` has a state and operands that meet its hypotheses. -/
theorem witness_sealed_commands_4 :
    ∃ (s : State) (a : Acc) (ck : Bool),
      s.dev.portReady = true ∧ masked 0xA240 a s.dev = false ∧ scCmd (scBytes s.dev) = 3 ∧ s.dev.on F.SC_STAT_BUSY = false ∧
      scResult s.fuse ck (scBytes s.dev) s.dev = 1 ∧ s.dev.pins.porstN = true :=
  ⟨{ wSealed 3 [] [(F.THL_FREE_FREE, 0, 0x100000)] with dev.nor.found := true }, {}, true, by decide +kernel⟩

/-- Clause 5 of `Obligations.SealedCommands` has a state and operands that meet its hypotheses. -/
theorem witness_sealed_commands_5 :
    ∃ (s : State) (a : Acc) (ck : Bool),
      s.dev.portReady = true ∧ masked 0xA240 a s.dev = false ∧ scCmd (scBytes s.dev) = 4 ∧ s.dev.on F.SC_STAT_BUSY = false ∧
      scResult s.fuse ck (scBytes s.dev) s.dev = 1 ∧ ckDue (scBytes s.dev) s.dev = false :=
  ⟨{ wSealed 4 [0, 0, 1, 0, 5, 0, 6, 0] [] with dev.nor.found := true }, {}, true, by decide +kernel⟩

/-- Clause 6 of `Obligations.SealedCommands` has a state and operands that meet its hypotheses. -/
theorem witness_sealed_commands_6 :
    ∃ (s : State) (a : Acc) (ck : Bool),
      s.dev.portReady = true ∧ masked 0xA240 a s.dev = false ∧ scCmd (scBytes s.dev) = 5 ∧ s.dev.on F.SC_STAT_BUSY = false ∧
      scResult s.fuse ck (scBytes s.dev) s.dev = 1 ∧ ckDue (scBytes s.dev) s.dev = false :=
  ⟨{ wSealed 5 [1, 0, 2, 0, 1] [] with dev.nor.found := true }, {}, true, by decide +kernel⟩

/-- Clause 7 of `Obligations.SealedCommands` has a state and operands that meet its hypotheses. -/
theorem witness_sealed_commands_7 :
    ∃ (s : State) (a : Acc) (ck : Bool),
      s.dev.portReady = true ∧ masked 0xA240 a s.dev = false ∧ scCmd (scBytes s.dev) = 6 ∧ s.dev.on F.SC_STAT_BUSY = false ∧
      scResult s.fuse ck (scBytes s.dev) s.dev = 1 ∧ ckDue (scBytes s.dev) s.dev = false ∧ scArg (scBytes s.dev) 16 1 = 0 :=
  ⟨{ wSealed 6 [0, 2] [] with dev.nor.found := true }, {}, true, by decide +kernel⟩

/-- Clause 8 of `Obligations.SealedCommands` has a state and operands that meet its hypotheses. -/
theorem witness_sealed_commands_8 :
    ∃ (s : State) (a : Acc) (ck : Bool),
      s.dev.portReady = true ∧ masked 0xA240 a s.dev = false ∧ scCmd (scBytes s.dev) = 6 ∧ s.dev.on F.SC_STAT_BUSY = false ∧
      scResult s.fuse ck (scBytes s.dev) s.dev = 1 ∧ ckDue (scBytes s.dev) s.dev = false ∧ scArg (scBytes s.dev) 16 1 = 1 :=
  ⟨{ wSealed 6 [1, 1] [(F.SC_KEY_KV, 0, 1), (F.SC_KEY_KIN, 0, 1)] with dev.nor.found := true, fuse.digests := [(1, [])] }, {}, true, by decide +kernel⟩

/-- Clause 9 of `Obligations.SealedCommands` has a state and operands that meet its hypotheses. -/
theorem witness_sealed_commands_9 :
    ∃ (s : State) (a : Acc) (ck : Bool),
      s.dev.portReady = true ∧ masked 0xA240 a s.dev = false ∧ scCmd (scBytes s.dev) = 7 ∧ s.dev.on F.SC_STAT_BUSY = false ∧
      scResult s.fuse ck (scBytes s.dev) s.dev = 1 ∧ ckDue (scBytes s.dev) s.dev = false ∧ scArg (scBytes s.dev) 16 2 ≤ 4095 ∧ s.dev.led.run = none :=
  ⟨{ wSealed 7 [5, 0] [] with dev.nor.found := true }, {}, true, by decide +kernel⟩

/-- Clause 10 of `Obligations.SealedCommands` has a state and operands that meet its hypotheses. -/
theorem witness_sealed_commands_10 :
    ∃ (s : State) (a : Acc) (ck : Bool),
      s.dev.portReady = true ∧ masked 0xA240 a s.dev = false ∧ scCmd (scBytes s.dev) = 8 ∧ s.dev.on F.SC_STAT_BUSY = false ∧
      scResult s.fuse ck (scBytes s.dev) s.dev = 1 ∧ ckDue (scBytes s.dev) s.dev = false :=
  ⟨{ wSealed 8 [3, 0, 0, 0, 0, 1] [] with dev.nor.found := true }, {}, true, by decide +kernel⟩

/-- Clause 11 of `Obligations.SealedCommands` has a state and operands that meet its hypotheses. -/
theorem witness_sealed_commands_11 :
    ∃ (s : State) (a : Acc) (ck : Bool),
      s.dev.portReady = true ∧ masked 0xA240 a s.dev = false ∧ scCmd (scBytes s.dev) = 9 ∧ s.dev.on F.SC_STAT_BUSY = false ∧
      scResult s.fuse ck (scBytes s.dev) s.dev = 1 ∧ ckDue (scBytes s.dev) s.dev = false ∧ dieFenced s.dev (scArg (scBytes s.dev) 16 2) = true :=
  ⟨{ wSealed 9 [7, 0] [(F.DIE_STAT_STATE, 7, 3)] with dev.nor.found := true }, {}, true, by decide +kernel⟩

/-- Clause 12 of `Obligations.SealedCommands` has a state and operands that meet its hypotheses. -/
theorem witness_sealed_commands_12 :
    ∃ (s : State) (a : Acc) (ck : Bool),
      s.dev.portReady = true ∧ masked 0xA240 a s.dev = false ∧ scCmd (scBytes s.dev) = 10 ∧ s.dev.on F.SC_STAT_BUSY = false ∧
      scResult s.fuse ck (scBytes s.dev) s.dev = 1 ∧ ckDue (scBytes s.dev) s.dev = false :=
  ⟨{ wSealed 10 [9, 0, 1, 0, 0, 0, 0, 0, 0, 0] [(F.RG_STAT_STATE, 0, 2), (F.RG_ID_ID, 0, 9)] with dev.nor.found := true }, {}, true, by decide +kernel⟩

/-- Clause 13 of `Obligations.SealedCommands` has a state and operands that meet its hypotheses. -/
theorem witness_sealed_commands_13 :
    ∃ (s : State) (a : Acc) (ck : Bool),
      s.dev.portReady = true ∧ masked 0xA240 a s.dev = false ∧ scCmd (scBytes s.dev) = 11 ∧ s.dev.on F.SC_STAT_BUSY = false ∧
      scResult s.fuse ck (scBytes s.dev) s.dev = 1 ∧ ckDue (scBytes s.dev) s.dev = false :=
  ⟨{ wSealed 11 [3] [] with dev.nor.found := true }, {}, true, by decide +kernel⟩

/-- Each clause of `Obligations.SealedRefusals` has a state and operands that meet its hypotheses. -/
theorem witness_sealed_refusals :
    (∃ (s : State) (a : Acc),
      s.dev.portReady = true ∧ masked 0xA240 a s.dev = false ∧ scCmd (scBytes s.dev) = 11 ∧ s.dev.on F.SC_STAT_BUSY = false ∧ s.dev.nor.found = true ∧
      s.dev.on F.SC_STAT_LOCK = false ∧ scTagOk s.fuse (scBytes s.dev) = false) ∧
    (∃ (s : State) (a : Acc),
      s.dev.portReady = true ∧ masked 0xA240 a s.dev = false ∧ scCmd (scBytes s.dev) = 5 ∧ s.dev.on F.SC_STAT_BUSY = false ∧ s.dev.nor.found = true ∧
      s.dev.on F.SC_STAT_LOCK = true) ∧
    (∃ (s : State) (a : Acc),
      s.dev.portReady = true ∧ masked 0xA240 a s.dev = false ∧ scCmd (scBytes s.dev) = 5 ∧ s.dev.on F.SC_STAT_BUSY = false ∧ s.dev.nor.found = false) ∧
    (∃ (s : State),
      s.dev.on F.SC_STAT_LOCK = true) ∧
    (∃ (s : State),
      s.dev.live = true ∧ s.dev.on F.SC_STAT_BUSY = true) ∧
    (∃ (s : State),
      s.dev.live = true ∧ s.dev.on F.SAN_STAT_BUSY = true ∧ s.dev.upd.san = []) :=
  ⟨⟨{ wWith [(F.SC_DATA_DATA.ix 0, 0, 11), (F.SC_STAT_FAILS, 0, 7)] with dev.nor.found := true }, {}, by decide +kernel⟩,
    ⟨{ wWith [(F.SC_DATA_DATA.ix 0, 0, 5), (F.SC_STAT_LOCK, 0, 1)] with dev.nor.found := true }, {}, by decide +kernel⟩,
    ⟨wWith [(F.SC_DATA_DATA.ix 0, 0, 5)], {}, by decide +kernel⟩,
    ⟨wWith [(F.SC_STAT_LOCK, 0, 1)], by decide +kernel⟩,
    ⟨wWith [(F.SC_STAT_BUSY, 0, 1)], by decide +kernel⟩,
    ⟨wWith [(F.SAN_STAT_BUSY, 0, 1)], by decide +kernel⟩⟩

/-- Each clause of `Obligations.RingFrames` has a state and operands that meet its hypotheses. -/
theorem witness_ring_frames :
    (∃ (s : State),
      s.dev.live = true ∧ ringUp s.dev = true ∧ s.dev.pfSeen = false ∧ s.dev.rd F.RG_STAT_STATE ≠ 2 ∧ s.dev.ring.cfg = []) ∧
    (∃ (s : State) (k : Nat),
      s.dev.live = true ∧ s.dev.ring.cfg = [(F.RG_CFG_MAXHOP.key 0, k)]) ∧
    (∃ (s : State) (f : Frame) (fcrc : Nat),
      s.dev.live = true ∧ ringUp s.dev = true ∧ s.dev.ring.fwd.length < 8 ∧ s.dev.on F.TST_RINGLB_EN = false ∧ fcrc ≠ Frame.crc ({ f with ty := 1 } : Frame)) ∧
    (∃ (s : State) (f : Frame) (fcrc : Nat) (rtt : Nat) (o : List (Nat × Nat)),
      s.dev.live = true ∧ ringUp s.dev = true ∧ s.dev.ring.fwd.length < 8 ∧ s.dev.on F.TST_RINGLB_EN = false ∧
      fcrc = Frame.crc ({ f with ty := 1 } : Frame) ∧ f.src = s.dev.rd F.RG_ID_ID ∧ (s.dev.ring.late.any (fun p => p.1 == f.seq) = false) ∧
      s.dev.ring.outstanding = (f.seq, 1) :: o ∧ rtt ≤ 100 * s.dev.rd F.RG_CFG2_BUDGET) ∧
    (∃ (s : State) (f : Frame) (fcrc : Nat) (rtt : Nat) (o : List (Nat × Nat)),
      s.dev.live = true ∧ ringUp s.dev = true ∧ s.dev.ring.fwd.length < 8 ∧ s.dev.on F.TST_RINGLB_EN = false ∧
      fcrc = Frame.crc ({ f with ty := 1 } : Frame) ∧ f.src = s.dev.rd F.RG_ID_ID ∧ s.dev.ring.late = (f.seq, 1) :: o ∧
      rtt ≤ 100 * s.dev.rd F.RG_CFG2_BUDGET) ∧
    (∃ (s : State) (f : Frame) (fcrc : Nat),
      s.dev.live = true ∧ ringUp s.dev = true ∧ s.dev.ring.fwd.length < 8 ∧ s.dev.on F.TST_RINGLB_EN = false ∧
      fcrc = Frame.crc ({ f with ty := 1 } : Frame) ∧ f.src ≠ s.dev.rd F.RG_ID_ID ∧ f.hops < s.dev.rd F.RG_CFG_MAXHOP ∧ s.dev.rd F.RG_STAT_STATE ≠ 2 ∧
      s.dev.pfSeen = false ∧ f.epoch = ringEpoch s.dev ∧ f.dst = 0xFFFF ∧ f.hops = 0 ∧ bit f.flags 0 = false) ∧
    (∃ (s : State) (f : Frame) (fcrc : Nat),
      s.dev.live = true ∧ ringUp s.dev = true ∧ s.dev.ring.fwd.length < 8 ∧ s.dev.on F.TST_RINGLB_EN = false ∧
      fcrc = Frame.crc ({ f with ty := 1 } : Frame) ∧ f.src ≠ s.dev.rd F.RG_ID_ID ∧ f.hops < s.dev.rd F.RG_CFG_MAXHOP ∧ s.dev.rd F.RG_STAT_STATE ≠ 2 ∧
      s.dev.pfSeen = false ∧ f.epoch < ringEpoch s.dev) ∧
    (∃ (s : State) (f : Frame) (fcrc : Nat),
      s.dev.live = true ∧ ringUp s.dev = true ∧ s.dev.ring.fwd.length < 8 ∧ s.dev.on F.TST_RINGLB_EN = false ∧
      fcrc = Frame.crc ({ f with ty := 2 } : Frame) ∧ f.src ≠ s.dev.rd F.RG_ID_ID ∧ f.hops < s.dev.rd F.RG_CFG_MAXHOP ∧ s.dev.rd F.RG_STAT_STATE ≠ 2 ∧
      s.dev.pfSeen = false ∧ f.epoch = ringEpoch s.dev + 1 ∧ f.epoch < 2 ^ 64 ∧ f.arg % 65536 ≠ s.dev.rd F.RG_ID_ID) ∧
    (∃ (s : State) (f : Frame) (fcrc : Nat),
      s.dev.live = true ∧ ringUp s.dev = true ∧ s.dev.ring.fwd.length < 8 ∧ s.dev.on F.TST_RINGLB_EN = false ∧
      fcrc = Frame.crc ({ f with ty := 2 } : Frame) ∧ f.src ≠ s.dev.rd F.RG_ID_ID ∧ f.hops < s.dev.rd F.RG_CFG_MAXHOP ∧ s.dev.rd F.RG_STAT_STATE ≠ 2 ∧
      s.dev.pfSeen = false ∧ f.epoch = ringEpoch s.dev ∧ f.dst = 0xFFFF ∧ f.arg % 65536 = s.dev.rd F.RG_ID_ID) ∧
    (∃ (s : State) (f : Frame) (fcrc : Nat),
      s.dev.live = true ∧ ringUp s.dev = true ∧ s.dev.ring.fwd.length < 8 ∧ s.dev.on F.TST_RINGLB_EN = false ∧
      fcrc = Frame.crc ({ f with ty := 3 } : Frame) ∧ f.src ≠ s.dev.rd F.RG_ID_ID ∧ f.hops < s.dev.rd F.RG_CFG_MAXHOP ∧ s.dev.rd F.RG_STAT_STATE ≠ 2 ∧
      s.dev.pfSeen = false ∧ f.epoch = ringEpoch s.dev ∧ f.dst = 0xFFFF ∧ f.hops = 0) ∧
    (∃ (s : State) (f : Frame) (fcrc : Nat),
      s.dev.live = true ∧ ringUp s.dev = true ∧ s.dev.ring.fwd.length < 8 ∧ s.dev.on F.TST_RINGLB_EN = false ∧
      fcrc = Frame.crc ({ f with ty := 4 } : Frame) ∧ f.src ≠ s.dev.rd F.RG_ID_ID ∧ f.hops < s.dev.rd F.RG_CFG_MAXHOP ∧ s.dev.rd F.RG_STAT_STATE ≠ 2 ∧
      s.dev.pfSeen = false ∧ f.epoch = ringEpoch s.dev ∧ f.dst = 0xFFFF ∧ s.dev.ring.driftCount ≤ s.dev.rd F.RG_DCFG_SLOTS ∧
      s.dev.rd F.RG_DCFG_SLOTS < 2 ^ F.RG_DCFG_NEXT.w) ∧
    (∃ (s : State) (f : Frame) (r : List Frame),
      s.dev.ring.fwd = f :: r ∧ (s.dev.ring.own = [] ∨ s.dev.ring.run < fairCount s.dev)) ∧
    (∃ (s : State) (f : Frame) (r : List Frame),
      s.dev.ring.own = f :: r ∧ (s.dev.ring.fwd = [] ∨ fairCount s.dev ≤ s.dev.ring.run)) :=
  ⟨⟨{ wWith ([(F.RG_ID_ID, 0, 9), (F.RG_STAT_STATE, 0, 1), (F.RG_EPOCH_LO_EPOCH, 0, 4), (F.RG_UP_ID, 0, 8)] ) with dev.ring.active := true }, by decide +kernel⟩,
    ⟨{ wWith ([(F.RG_ID_ID, 0, 9), (F.RG_STAT_STATE, 0, 1), (F.RG_EPOCH_LO_EPOCH, 0, 4), (F.RG_UP_ID, 0, 8)] ) with dev.ring.active := true, dev.ring.cfg := [(F.RG_CFG_MAXHOP.key 0, 7)] }, 7, by decide +kernel⟩,
    ⟨{ wWith ([(F.RG_ID_ID, 0, 9), (F.RG_STAT_STATE, 0, 1), (F.RG_EPOCH_LO_EPOCH, 0, 4), (F.RG_UP_ID, 0, 8)] ) with dev.ring.active := true }, { dst := 0xFFFF, src := 7, ty := 1 }, 0, by decide +kernel⟩,
    ⟨{ wWith ([(F.RG_ID_ID, 0, 9), (F.RG_STAT_STATE, 0, 1), (F.RG_EPOCH_LO_EPOCH, 0, 4), (F.RG_UP_ID, 0, 8), (F.RG_CFG2_BUDGET, 0, 5)] ) with dev.ring.active := true, dev.ring.outstanding := [(6, 1)] }, { dst := 0xFFFF, src := 9, ty := 1, hops := 3, seq := 6 }, Frame.crc ({ ({ dst := 0xFFFF, src := 9, ty := 1, hops := 3, seq := 6 } : Frame) with ty := 1 } : Frame), 50, [], by decide +kernel⟩,
    ⟨{ wWith ([(F.RG_ID_ID, 0, 9), (F.RG_STAT_STATE, 0, 1), (F.RG_EPOCH_LO_EPOCH, 0, 4), (F.RG_UP_ID, 0, 8), (F.RG_CFG2_BUDGET, 0, 5)] ) with dev.ring.active := true, dev.ring.late := [(6, 1), (7, 1)] }, { dst := 0xFFFF, src := 9, ty := 1, hops := 3, seq := 6 }, Frame.crc ({ ({ dst := 0xFFFF, src := 9, ty := 1, hops := 3, seq := 6 } : Frame) with ty := 1 } : Frame), 50, [(7, 1)], by decide +kernel⟩,
    ⟨{ wWith ([(F.RG_ID_ID, 0, 9), (F.RG_STAT_STATE, 0, 1), (F.RG_EPOCH_LO_EPOCH, 0, 4), (F.RG_UP_ID, 0, 8)] ) with dev.ring.active := true }, { dst := 0xFFFF, src := 7, ty := 1, epoch := 4 }, Frame.crc ({ ({ dst := 0xFFFF, src := 7, ty := 1, epoch := 4 } : Frame) with ty := 1 } : Frame), by decide +kernel⟩,
    ⟨{ wWith ([(F.RG_ID_ID, 0, 9), (F.RG_STAT_STATE, 0, 1), (F.RG_EPOCH_LO_EPOCH, 0, 4), (F.RG_UP_ID, 0, 8)] ) with dev.ring.active := true }, { dst := 0xFFFF, src := 7, ty := 1, epoch := 3 }, Frame.crc ({ ({ dst := 0xFFFF, src := 7, ty := 1, epoch := 3 } : Frame) with ty := 1 } : Frame), by decide +kernel⟩,
    ⟨{ wWith ([(F.RG_ID_ID, 0, 9), (F.RG_STAT_STATE, 0, 1), (F.RG_EPOCH_LO_EPOCH, 0, 4), (F.RG_UP_ID, 0, 8)] ) with dev.ring.active := true }, { dst := 0xFFFF, src := 7, ty := 2, epoch := 5, arg := 3 }, Frame.crc ({ ({ dst := 0xFFFF, src := 7, ty := 2, epoch := 5, arg := 3 } : Frame) with ty := 2 } : Frame), by decide +kernel⟩,
    ⟨{ wWith ([(F.RG_ID_ID, 0, 9), (F.RG_STAT_STATE, 0, 1), (F.RG_EPOCH_LO_EPOCH, 0, 4), (F.RG_UP_ID, 0, 8)] ) with dev.ring.active := true }, { dst := 0xFFFF, src := 7, ty := 2, epoch := 4, arg := 9 }, Frame.crc ({ ({ dst := 0xFFFF, src := 7, ty := 2, epoch := 4, arg := 9 } : Frame) with ty := 2 } : Frame), by decide +kernel⟩,
    ⟨{ wWith ([(F.RG_ID_ID, 0, 9), (F.RG_STAT_STATE, 0, 1), (F.RG_EPOCH_LO_EPOCH, 0, 4), (F.RG_UP_ID, 0, 8)] ) with dev.ring.active := true }, { dst := 0xFFFF, src := 7, ty := 3, epoch := 4 }, Frame.crc ({ ({ dst := 0xFFFF, src := 7, ty := 3, epoch := 4 } : Frame) with ty := 3 } : Frame), by decide +kernel⟩,
    ⟨{ wWith ([(F.RG_ID_ID, 0, 9), (F.RG_STAT_STATE, 0, 1), (F.RG_EPOCH_LO_EPOCH, 0, 4), (F.RG_UP_ID, 0, 8)] ) with dev.ring.active := true }, { dst := 0xFFFF, src := 7, ty := 4, epoch := 4 }, Frame.crc ({ ({ dst := 0xFFFF, src := 7, ty := 4, epoch := 4 } : Frame) with ty := 4 } : Frame), by decide +kernel⟩,
    ⟨{ wReady with dev.ring.fwd := [{ dst := 0xFFFF, src := 7, ty := 1 }], dev.ring.own := [{ dst := 0xFFFF, src := 9, ty := 1 }] }, { dst := 0xFFFF, src := 7, ty := 1 }, [], by decide +kernel⟩,
    ⟨{ wReady with dev.ring.own := [{ dst := 0xFFFF, src := 9, ty := 1 }] }, { dst := 0xFFFF, src := 9, ty := 1 }, [], by decide +kernel⟩⟩

/-- Each clause of `Obligations.RingFragments` has a state and operands that meet its hypotheses. -/
theorem witness_ring_fragments :
    (∃ (s : State) (f : Frame) (fcrc : Nat) (n : Nat) (k : Nat),
      s.dev.live = true ∧ ringUp s.dev = true ∧ s.dev.ring.fwd.length < 8 ∧ s.dev.on F.TST_RINGLB_EN = false ∧
      fcrc = Frame.crc ({ f with ty := 5 } : Frame) ∧ f.src ≠ s.dev.rd F.RG_ID_ID ∧ f.hops < s.dev.rd F.RG_CFG_MAXHOP ∧ s.dev.rd F.RG_STAT_STATE ≠ 2 ∧
      s.dev.pfSeen = false ∧ f.epoch = ringEpoch s.dev ∧ f.dst = s.dev.rd F.RG_ID_ID ∧ s.dev.on F.FS_STAT_ACTIVE = false ∧ n = (fld f.arg 21 6) ∧
      k = fld f.arg 16 5 ∧ k < 31 ∧ accState s.dev n = 1 ∧ s.dev.on F.ACC_STAT_ABORTING n = false ∧ isReceiver s.dev n = true ∧
      s.dev.rd F.ACC_RTAG_TAG n = fld f.arg 0 16 ∧ s.dev.rd F.ACC_CFG_CPROF n = fld f.arg 27 3 ∧ accCwn s.dev n = fld f.arg 30 4 ∧
      (s.dev.accu n).frag = (if k = 0 then none else some (f.src, k))) ∧
    (∃ (s : State) (f : Frame) (fcrc : Nat),
      s.dev.live = true ∧ ringUp s.dev = true ∧ s.dev.ring.fwd.length < 8 ∧ s.dev.on F.TST_RINGLB_EN = false ∧
      fcrc = Frame.crc ({ f with ty := 5 } : Frame) ∧ f.src ≠ s.dev.rd F.RG_ID_ID ∧ f.hops < s.dev.rd F.RG_CFG_MAXHOP ∧ s.dev.rd F.RG_STAT_STATE ≠ 2 ∧
      s.dev.pfSeen = false ∧ f.epoch = ringEpoch s.dev ∧ f.dst = s.dev.rd F.RG_ID_ID ∧ f.dst ≠ 0xFFFF ∧ s.dev.on F.FS_STAT_ACTIVE = false ∧
      isReceiver s.dev (fld f.arg 21 6) = false) ∧
    (∃ (s : State) (f : Frame) (fcrc : Nat) (n : Nat),
      s.dev.live = true ∧ ringUp s.dev = true ∧ s.dev.ring.fwd.length < 8 ∧ s.dev.on F.TST_RINGLB_EN = false ∧
      fcrc = Frame.crc ({ f with ty := 6 } : Frame) ∧ f.src ≠ s.dev.rd F.RG_ID_ID ∧ f.hops < s.dev.rd F.RG_CFG_MAXHOP ∧ s.dev.rd F.RG_STAT_STATE ≠ 2 ∧
      s.dev.pfSeen = false ∧ f.epoch = ringEpoch s.dev ∧ f.dst = s.dev.rd F.RG_ID_ID ∧ fragSender s.dev f = some n ∧ fld f.arg 16 8 = 0 ∧ n < 32) ∧
    (∃ (s : State) (f : Frame) (fcrc : Nat) (n : Nat),
      s.dev.live = true ∧ ringUp s.dev = true ∧ s.dev.ring.fwd.length < 8 ∧ s.dev.on F.TST_RINGLB_EN = false ∧
      fcrc = Frame.crc ({ f with ty := 6 } : Frame) ∧ f.src ≠ s.dev.rd F.RG_ID_ID ∧ f.hops < s.dev.rd F.RG_CFG_MAXHOP ∧ s.dev.rd F.RG_STAT_STATE ≠ 2 ∧
      s.dev.pfSeen = false ∧ f.epoch = ringEpoch s.dev ∧ f.dst = s.dev.rd F.RG_ID_ID ∧ fragSender s.dev f = some n ∧ fld f.arg 16 8 ≠ 0) ∧
    (∃ (s : State) (n : Fin 64),
      s.dev.live = true ∧ isSender s.dev n = true ∧ accState s.dev n = 2 ∧ (s.dev.accu n).waitAck = true) :=
  ⟨⟨{ wWith ([(F.RG_ID_ID, 0, 9), (F.RG_STAT_STATE, 0, 1), (F.RG_EPOCH_LO_EPOCH, 0, 4), (F.RG_UP_ID, 0, 8), (F.ACC_CFG_RING, 0, 1), (F.ACC_STAT_STATE, 0, 1)] ) with dev.ring.active := true }, { dst := 9, src := 7, ty := 5, epoch := 4, arg := 2 ^ 30 }, Frame.crc ({ ({ dst := 9, src := 7, ty := 5, epoch := 4, arg := 2 ^ 30 } : Frame) with ty := 5 } : Frame), 0, 0, by decide +kernel⟩,
    ⟨{ wWith ([(F.RG_ID_ID, 0, 9), (F.RG_STAT_STATE, 0, 1), (F.RG_EPOCH_LO_EPOCH, 0, 4), (F.RG_UP_ID, 0, 8)] ) with dev.ring.active := true }, { dst := 9, src := 7, ty := 5, epoch := 4, arg := 0 }, Frame.crc ({ ({ dst := 9, src := 7, ty := 5, epoch := 4, arg := 0 } : Frame) with ty := 5 } : Frame), by decide +kernel⟩,
    ⟨{ wWith ([(F.RG_ID_ID, 0, 9), (F.RG_STAT_STATE, 0, 1), (F.RG_EPOCH_LO_EPOCH, 0, 4), (F.RG_UP_ID, 0, 8), (F.ACC_CFG_RING, 2, 1), (F.ACC_RPEER_ROLE, 2, 1), (F.ACC_RPEER_PEER, 2, 7), (F.ACC_STAT_STATE, 2, 2)] ) with dev.ring.active := true, dev.acc := [(2, { waitAck := true })] }, { dst := 9, src := 7, ty := 6, epoch := 4, arg := 0 }, Frame.crc ({ ({ dst := 9, src := 7, ty := 6, epoch := 4, arg := 0 } : Frame) with ty := 6 } : Frame), 2, by decide +kernel⟩,
    ⟨{ wWith ([(F.RG_ID_ID, 0, 9), (F.RG_STAT_STATE, 0, 1), (F.RG_EPOCH_LO_EPOCH, 0, 4), (F.RG_UP_ID, 0, 8), (F.ACC_CFG_RING, 2, 1), (F.ACC_RPEER_ROLE, 2, 1), (F.ACC_RPEER_PEER, 2, 7), (F.ACC_STAT_STATE, 2, 2)] ) with dev.ring.active := true, dev.acc := [(2, { waitAck := true })] }, { dst := 9, src := 7, ty := 6, epoch := 4, arg := 0x10000 }, Frame.crc ({ ({ dst := 9, src := 7, ty := 6, epoch := 4, arg := 0x10000 } : Frame) with ty := 6 } : Frame), 2, by decide +kernel⟩,
    ⟨{ wWith ([(F.RG_ID_ID, 0, 9), (F.RG_STAT_STATE, 0, 1), (F.RG_EPOCH_LO_EPOCH, 0, 4), (F.RG_UP_ID, 0, 8), (F.ACC_CFG_RING, 2, 1), (F.ACC_RPEER_ROLE, 2, 1), (F.ACC_RPEER_PEER, 2, 7), (F.ACC_STAT_STATE, 2, 2)] ) with dev.ring.active := true, dev.acc := [(2, { waitAck := true })] }, 2, by decide +kernel⟩⟩

/-- Each clause of `Obligations.RingMembership` has a state and operands that meet its hypotheses. -/
theorem witness_ring_membership :
    (∃ (s : State),
      s.dev.live = true ∧ s.dev.ring.active = true ∧ s.dev.rd F.RG_STAT_STATE = 1 ∧ s.dev.pfSeen = false ∧ s.dev.rd F.RG_UP_ID ≠ 0 ∧
      s.dev.ring.deadAt ≠ some (ringEpoch s.dev, s.dev.rd F.RG_UP_ID) ∧ s.dev.rd F.RG_UP_ID < 2 ^ 16 ∧ ringEpoch s.dev < 2 ^ 63) ∧
    (∃ (s : State),
      s.dev.live = true ∧ ringUp s.dev = true ∧ (s.dev.ring.outstanding.any (fun p => p.2 == 1) = true)) ∧
    (∃ (s : State) (q : Nat) (o : List (Nat × Nat)),
      s.dev.live = true ∧ ringUp s.dev = true ∧ s.dev.ring.outstanding = (q, 1) :: o) ∧
    (∃ (s : State),
      s.dev.live = true ∧ ringUp s.dev = true ∧ s.dev.pfSeen = false ∧ s.dev.rd F.RG_STAT_STATE ≠ 2 ∧ s.dev.rd F.RG_CFG2_DSPER ≠ 0) ∧
    (∃ (s : State) (v : Word) (a : Acc),
      s.dev.takes 0xB000 a = true ∧ fld v.toNat 0 1 = 1 ∧ s.dev.rd F.RG_CTL_EN = 0 ∧ s.dev.rd F.RG_ID_ID ≠ 0 ∧ s.dev.rd F.RG_ID_ID ≠ 0xFFFF ∧
      s.dev.rd F.RG_STAT_STATE ≠ 2 ∧ s.dev.ring.cfg = []) ∧
    (∃ (s : State) (v : Word) (a : Acc),
      s.dev.takes 0xB000 a = true ∧ fld v.toNat 0 1 = 0 ∧ s.dev.rd F.RG_CTL_EN = 1 ∧ s.dev.rd F.RG_STAT_STATE ≠ 2 ∧ s.dev.ring.cfg = []) ∧
    (∃ (s : State) (v : Word) (a : Acc),
      s.dev.takes 0xB000 a = true ∧ fld v.toNat 0 1 = 1 ∧ s.dev.rd F.RG_ID_ID = 0) :=
  ⟨⟨{ wWith ([(F.RG_ID_ID, 0, 9), (F.RG_STAT_STATE, 0, 1), (F.RG_EPOCH_LO_EPOCH, 0, 4), (F.RG_UP_ID, 0, 8)] ) with dev.ring.active := true }, by decide +kernel⟩,
    ⟨{ wWith ([(F.RG_ID_ID, 0, 9), (F.RG_STAT_STATE, 0, 1), (F.RG_EPOCH_LO_EPOCH, 0, 4), (F.RG_UP_ID, 0, 8)] ) with dev.ring.active := true, dev.ring.outstanding := [(6, 1)] }, by decide +kernel⟩,
    ⟨{ wWith ([(F.RG_ID_ID, 0, 9), (F.RG_STAT_STATE, 0, 1), (F.RG_EPOCH_LO_EPOCH, 0, 4), (F.RG_UP_ID, 0, 8)] ) with dev.ring.active := true, dev.ring.outstanding := [(6, 1)] }, 6, [], by decide +kernel⟩,
    ⟨{ wWith ([(F.RG_ID_ID, 0, 9), (F.RG_STAT_STATE, 0, 1), (F.RG_EPOCH_LO_EPOCH, 0, 4), (F.RG_UP_ID, 0, 8), (F.RG_CFG2_DSPER, 0, 1)] ) with dev.ring.active := true }, by decide +kernel⟩,
    ⟨wWith [(F.RG_ID_ID, 0, 9)], 1, {}, by decide +kernel⟩,
    ⟨wWith [(F.RG_ID_ID, 0, 9), (F.RG_CTL_EN, 0, 1)], 0, {}, by decide +kernel⟩,
    ⟨wReady, 1, {}, by decide +kernel⟩⟩

/-- Each clause of `Obligations.FailSafeExit` has a state and operands that meet its hypotheses. -/
theorem witness_fail_safe_exit :
    (∃ (s : State),
      s.dev.on F.FS_STAT_ACTIVE = true ∧ s.dev.on F.FS_STAT_RESETONLY = false ∧ s.dev.rd F.FS_STAT_CAUSE = 6) ∧
    (∃ (s : State),
      s.dev.on F.FS_STAT_RESETONLY = true ∧ s.dev.pm.causes.contains 7 = false) ∧
    (∃ (s : State),
      s.dev.on F.FS_STAT_ACTIVE = true) ∧
    (∃ (s : State) (a : Acc),
      s.dev.takes 0x24 a = true ∧ exitOk s.dev = true) ∧
    (∃ (s : State) (a : Acc),
      s.dev.takes 0x24 a = true ∧ exitOk s.dev = false) ∧
    (∃ (s : State) (a : Acc) (k : Nat) (x : Cell),
      s.dev.takes 0x24 a = true ∧ flushOk s.dev = true ∧ s.dev.dq = [(cellKey x, [k])] ∧ look s.dev.cells k = some x ∧ x.started = false ∧ x.out = none) :=
  ⟨⟨wWith [(F.FS_STAT_ACTIVE, 0, 1), (F.FS_STAT_CAUSE, 0, 6)], by decide +kernel⟩,
    ⟨wWith [(F.FS_STAT_ACTIVE, 0, 1), (F.FS_STAT_CAUSE, 0, 1), (F.FS_STAT_RESETONLY, 0, 1)], by decide +kernel⟩,
    ⟨wWith [(F.FS_STAT_ACTIVE, 0, 1), (F.FS_STAT_CAUSE, 0, 6)], by decide +kernel⟩,
    ⟨wWith [(F.FS_STAT_ACTIVE, 0, 1), (F.FS_STAT_CAUSE, 0, 6), (F.FS_STAT_CLEARED, 0, 1), (F.FS_STAT_DIEIDLE, 0, 1)], {}, by decide +kernel⟩,
    ⟨wReady, {}, by decide +kernel⟩,
    ⟨{ wWith [(F.FS_STAT_ACTIVE, 0, 1), (F.FS_STAT_CAUSE, 0, 6)] with dev.cells := [(7, { tkt := leBytes 1 0x05 ++ leBytes 1 0 ++ leBytes 1 1 ++ leBytes 1 2 ++ List.replicate 44 0 ++ leBytes 8 9 ++ leBytes 8 0, fresh := false })], dev.dq := [(0, [7])] }, {}, 7, { tkt := leBytes 1 0x05 ++ leBytes 1 0 ++ leBytes 1 1 ++ leBytes 1 2 ++ List.replicate 44 0 ++ leBytes 8 9 ++ leBytes 8 0, fresh := false }, by decide +kernel⟩⟩

/-- Each clause of `Obligations.Loopback` has a state and operands that meet its hypotheses. -/
theorem witness_loopback :
    (∃ (s : State) (v : Word) (a : Acc),
      s.dev.takes 0xC100 a = true ∧ 1 ≤ fld v.toNat 16 16 ∧ fld v.toNat 0 3 ≤ 5 ∧ fld v.toNat 0 3 ≠ s.dev.rd F.TST_LBCTL_DEPTH (s.dev.named 0xC100 a) ∧
      loopBusy s.dev (s.dev.named 0xC100 a) = false ∧ fld v.toNat 0 3 ≠ 0 ∧ fld v.toNat 0 3 ≠ 5 ∧
      s.dev.on F.TST_LBCTL_RUN (s.dev.named 0xC100 a) = false) ∧
    (∃ (s : State) (v : Word) (a : Acc),
      s.dev.takes 0xC100 a = true ∧ 1 ≤ fld v.toNat 16 16 ∧ fld v.toNat 0 3 ≤ 5 ∧ fld v.toNat 0 3 ≠ s.dev.rd F.TST_LBCTL_DEPTH (s.dev.named 0xC100 a) ∧
      loopBusy s.dev (s.dev.named 0xC100 a) = true) ∧
    (∃ (s : State) (v : Word) (a : Acc),
      s.dev.takes 0xC100 a = true ∧ 1 ≤ fld v.toNat 16 16 ∧ fld v.toNat 0 3 ≤ 5 ∧ fld v.toNat 0 3 = s.dev.rd F.TST_LBCTL_DEPTH (s.dev.named 0xC100 a) ∧
      fld v.toNat 16 16 = s.dev.rd F.TST_LBCTL_SEED (s.dev.named 0xC100 a) ∧ fld v.toNat 0 3 ≠ 0 ∧ fld v.toNat 0 3 ≠ 5 ∧ fld v.toNat 3 1 = 1) ∧
    (∃ (s : State) (v : Word) (a : Acc),
      s.dev.takes 0xC100 a = true ∧ 1 ≤ fld v.toNat 16 16 ∧ fld v.toNat 0 3 ≤ 5 ∧ fld v.toNat 0 3 = s.dev.rd F.TST_LBCTL_DEPTH (s.dev.named 0xC100 a) ∧
      fld v.toNat 16 16 = s.dev.rd F.TST_LBCTL_SEED (s.dev.named 0xC100 a) ∧ fld v.toNat 0 3 ≠ 0 ∧ fld v.toNat 0 3 ≠ 5 ∧ fld v.toNat 3 1 = 0 ∧
      s.dev.on F.TST_LBCTL_RUN (s.dev.named 0xC100 a) = true) ∧
    (∃ (s : State) (v : Word) (a : Acc),
      s.dev.takes 0xC004 a = true ∧ s.dev.rd F.RG_CTL_EN = 0 ∧ fld v.toNat 0 1 ≠ s.dev.rd F.TST_RINGLB_EN) ∧
    (∃ (s : State) (a : Acc),
      s.dev.takes 0xC114 a = true) ∧
    (∃ (s : State) (x : Fin 1024) (id : Nat) (y : Ctx),
      s.dev.live = true ∧ s.dev.on F.FS_STAT_ACTIVE = false ∧ s.dev.rd F.TST_LBCTL_DEPTH (dixCh x) = 5 ∧ (s.dev.chn (dixCh x)).ctxs = [(id, y)] ∧
      y.st = .parked ∧ y.hang = false ∧ y.committed = true ∧ y.dix = x) ∧
    (∃ (s : State) (v : Word) (a : Acc),
      s.dev.takes 0xC200 a = true ∧ s.dev.rd F.DBG_STAT_LEVEL ≠ 0 ∧ fld v.toNat 0 4 ≤ 11 ∧ fld v.toNat 8 1 = 0) ∧
    (∃ (s : State) (v : Word) (a : Acc),
      s.dev.takes 0xC200 a = true ∧ s.dev.rd F.DBG_STAT_LEVEL ≠ 0 ∧ fld v.toNat 0 4 ≤ 11 ∧ selBcast s.dev a.dom.val .ch = false) ∧
    (∃ (s : State) (v : Word) (a : Acc),
      s.dev.takes 0xC200 a = true ∧ s.dev.rd F.DBG_STAT_LEVEL ≠ 0 ∧ fld v.toNat 0 4 ≤ 11 ∧ selBcast s.dev a.dom.val .ch = true) ∧
    (∃ (s : State) (v : Word) (a : Acc),
      s.dev.takes 0xC200 a = true ∧ s.dev.rd F.DBG_STAT_LEVEL = 0 ∧ fld v.toNat 0 4 ≤ 11) :=
  ⟨⟨wWith [(F.TST_LBSTAT_BYTES, 0, 7)], 0x10002, {}, by decide +kernel⟩,
    ⟨{ wReady with dev.chs := [(0, { ctxs := [(4, { mw := 0x4000, st := .running, dix := 1, entry := 0x4000 })] })] }, 0x10002, {}, by decide +kernel⟩,
    ⟨wWith [(F.TST_LBCTL_DEPTH, 0, 2)], 0x1000A, {}, by decide +kernel⟩,
    ⟨wWith [(F.TST_LBCTL_DEPTH, 0, 2), (F.TST_LBCTL_RUN, 0, 1)], 0x10002, {}, by decide +kernel⟩,
    ⟨wReady, 1, {}, by decide +kernel⟩,
    ⟨wReady, {}, by decide +kernel⟩,
    ⟨{ wWith [(F.TST_LBCTL_DEPTH, 0, 5)] with dev.chs := [(0, { ctxs := [(4, { mw := 0x4000, st := .parked, dix := 1, cells := [7], committed := true })] })] }, 1, 4, { mw := 0x4000, st := .parked, dix := 1, cells := [7], committed := true }, by decide +kernel⟩,
    ⟨wWith [(F.DBG_STAT_LEVEL, 0, 1)], 0x13, {}, by decide +kernel⟩,
    ⟨wWith [(F.DBG_STAT_LEVEL, 0, 1)], 0, {}, by decide +kernel⟩,
    ⟨wWith [(F.DBG_STAT_LEVEL, 0, 1), (F.CHSEL_BCAST, 0, 1)], 0, {}, by decide +kernel⟩,
    ⟨wReady, 0, {}, by decide +kernel⟩⟩

/-- Each clause of `Obligations.TestWrapper` has a state and operands that meet its hypotheses. -/
theorem witness_test_wrapper :
    (∃ (bits : List Bool),
      bits ≠ []) ∧
    (∃ (s : State),
      s.dev.tst.testMode = true) ∧
    (∃ (s : State),
      s.dev.tst.testMode = true) ∧
    (∃ (s : State),
      s.dev.tst.testMode = true) ∧
    (∃ (s : State),
      s.dev.tst.testMode = true) ∧
    (∃ (s : State),
      s.dev.tst.testMode = true ∧ s.fuse.lock = false ∧ s.fuse.repairs.length < 256) ∧
    (∃ (s : State),
      s.dev.tst.testMode = true ∧ s.fuse.lock = false) ∧
    (∃ (s : State),
      s.fuse.lock = true) ∧
    (∃ (s : State) (o : Nat) (lo : Nat) (f : Fld),
      s.dev.live = true ∧ 2 ≤ s.dev.rd F.DBG_STAT_LEVEL ∧ (((fieldsAt o).bind fun fs => fs.find? fun g => g.lo == lo) = some f)) ∧
    (∃ (s : State) (o : Nat) (lo : Nat) (i : Nat) (v : Nat) (f : Fld),
      s.dev.live = true ∧ s.dev.rd F.DBG_STAT_LEVEL = 3 ∧ (((fieldsAt o).bind fun fs => fs.find? fun g => g.lo == lo) = some f) ∧
      illegalAt o lo i (v % 2 ^ f.w) = none) ∧
    (∃ (s : State),
      s.dev.live = true ∧ s.dev.rd F.DBG_STAT_LEVEL = 3 ∧ s.dev.on F.FS_STAT_ACTIVE = false) :=
  ⟨⟨[true, false, true], by decide +kernel⟩,
    ⟨{ wReady with dev.tst.testMode := true }, by decide +kernel⟩,
    ⟨{ wReady with dev.tst.testMode := true }, by decide +kernel⟩,
    ⟨{ wReady with dev.tst.testMode := true }, by decide +kernel⟩,
    ⟨{ wReady with dev.tst.testMode := true }, by decide +kernel⟩,
    ⟨{ wReady with dev.tst.testMode := true }, by decide +kernel⟩,
    ⟨{ wReady with dev.tst.testMode := true }, by decide +kernel⟩,
    ⟨{ wReady with dev.tst.testMode := true, fuse.lock := true }, by decide +kernel⟩,
    ⟨wWith [(F.DBG_STAT_LEVEL, 0, 2)], 0xB010, 2, F.RG_STAT_OPEN, by decide +kernel⟩,
    ⟨wWith [(F.DBG_STAT_LEVEL, 0, 3)], 0xB010, 2, 0, 1, F.RG_STAT_OPEN, by decide +kernel⟩,
    ⟨wWith [(F.DBG_STAT_LEVEL, 0, 3)], by decide +kernel⟩⟩

/-- Each clause of `Obligations.RegisterAccess` has a state and operands that meet its hypotheses. -/
theorem witness_register_access :
    (∃ (s : State) (n : Fin 16) (a : Acc),
      s.dev.takes (0xA200 + 4 * n.val) a = true) ∧
    (∃ (s : State) (v : Word) (a : Acc),
      s.dev.takes 0xC100 a = true ∧ (5 < fld v.toNat 0 3 ∨ fld v.toNat 16 16 = 0)) ∧
    (∃ (s : State) (o : Nat) (v : Word) (a : Acc) (e : PortEnv) (fs : List Fld),
      s.dev.takes o a = true ∧ fieldsAt o = some fs ∧ (fs.all (fun f => f.ty == .ro) = false) ∧ o ≠ 8 ∧ o ≠ 0x10 ∧ o ≠ 0xA240 ∧ o ≠ 0xC200 ∧
      sprRefuses { wr := true, off := o, data := v.toNat, acc := a, env := e } s.dev = false ∧
      ignored { off := o, v := v.toNat, inst := s.dev.named o a, acc := a, env := e } s.dev = none ∧
      dropCause { off := o, v := v.toNat, inst := s.dev.named o a, acc := a, env := e } fs s.dev ≠ 0) ∧
    (∃ (s : State) (n : Fin 16),
      portRoute (0xA200 + 4 * n.val) s.dev = .refused) ∧
    (∃ (s : State),
      s.dev.portReady = true) ∧
    (∃ (s : State) (o : Nat),
      s.dev.portReady = true ∧ fieldsAt o = none ∧ o ≠ 0xA240) ∧
    (∃ (s : State) (n : Fin 16) (a : Acc),
      s.dev.portReady = true ∧ masked (0xA200 + 4 * n.val) a s.dev = true) ∧
    (∃ (s : State) (n : Fin 16) (a : Acc),
      s.dev.takes (0xA200 + 4 * n.val) a = true ∧ look s.dev.port.latched (a.dom.val * 65536 + (0xA200 + 4 * n.val)) = none) ∧
    (∃ (s : State) (n : Fin 16) (a : Acc),
      s.dev.portReady = true ∧ masked (0xA200 + 4 * n.val) a s.dev = true) ∧
    (∃ (s : State),
      s.dev.inReset = true) :=
  ⟨⟨wReady, 5, {}, by decide +kernel⟩,
    ⟨wReady, 6, {}, by decide +kernel⟩,
    ⟨wReady, 0xE408, 0xC, {}, {}, [F.SQ_CFG_EN, F.SQ_CFG_CRC, F.SQ_CFG_SIZE, F.SQ_CFG_WEIGHT, F.SQ_CFG_ERRCQ], by decide +kernel⟩,
    ⟨{ wWith [(F.BOOT_STAT_PHASE, 0, 5)] with dev := wSet [(F.BOOT_STAT_PHASE, 0, 5)] {} }, 5, by decide +kernel⟩,
    ⟨wReady, by decide +kernel⟩,
    ⟨wReady, 0xAFFC, by decide +kernel⟩,
    ⟨wWith [(F.REG_SECMASK_SEC, 0, 0x400)], 5, { ns := true }, by decide +kernel⟩,
    ⟨wReady, 5, {}, by decide +kernel⟩,
    ⟨wWith [(F.REG_SECMASK_SEC, 0, 0x400)], 5, { ns := true }, by decide +kernel⟩,
    ⟨{ wReady with dev.pins.porstN := false }, by decide +kernel⟩⟩

/-- Each clause of `Obligations.StepRunsTheFrontCommand` has a state and operands that meet its hypotheses. -/
theorem witness_step_runs_the_front_command :
    (∃ (c : Instr) (r : List Instr) (s : State), s.pending = c :: r) ∧
    (∃ (s : State), s.pending = [] ∧ s.dev.pins.porstN = true ∧ s.dev.pins.aonLost = false ∧ s.dev.ring.hold = 0) :=
  ⟨⟨.aonclkWatch, [], { wReady with pending := [.aonclkWatch] }, by decide⟩,
    ⟨wReady, by decide⟩⟩

/-- Each clause of `Obligations.EveryCommandCompletes` has a state and operands that meet its hypotheses. -/
theorem witness_every_command_completes :
    (∃ (s : State) (j : Fin 64) (v : Word) (a : Acc),
      s.dev.takes (0xE808 + 0x10 * j.val) a = true ∧ s.dev.on (F.CQ_CFG_EN.ix j) = false ∧ fld v.toNat 0 1 = 1 ∧ 4 ≤ fld v.toNat 2 5 ∧ fld v.toNat 2 5 ≤ 16 ∧
      (s.dev.cqs j).held = [] ∧ (s.dev.cqs j).first = 0) ∧
    (∃ (s : State) (j : Fin 64) (v : Word) (a : Acc),
      s.dev.takes (0xE80C + 0x10 * j.val) a = true ∧ cqHeadOk s.dev j (v.toNat % 2 ^ 16) = true) ∧
    (∃ (s : State) (c : Nat) (x : Cell) (o : Outcome),
      s.dev.live = true ∧ look s.dev.cells c = some x ∧ x.started = true ∧ x.out = some o ∧ x.writes = 0 ∧ x.rxLeft = 0 ∧ x.taking = false ∧
      x.manifest = false ∧ s.dev.on (F.CQ_CFG_EN.ix (tCq x.tkt)) = true ∧ (s.dev.cqs (tCq x.tkt)).busy = none ∧ (s.dev.cqs (tCq x.tkt)).held = [] ∧
      (s.dev.cqs (tCq x.tkt)).first = 0 ∧ cqFull s.dev (tCq x.tkt) = false) ∧
    (∃ (s : State) (j : Fin 64) (k : Nat) (a : Answer) (r : List Answer) (slot : Nat) (n : Nat),
      s.dev.live = true ∧ s.dev.answers = a :: r ∧ a.what = .record j slot ∧ a.code = 0 ∧ (s.dev.cqs j).busy = some (.reject k) ∧ (s.dev.cqs j).held = [] ∧
      k ≠ 0xFF ∧ n = (s.dev.rd (F.CQ_DB_TAIL.ix j) + 1) % 2 ^ s.dev.rd (F.CQ_CFG_SIZE.ix j)) ∧
    (∃ (s : State) (a : Acc),
      s.dev.takes 0xF000 a = true ∧ s.dev.on F.PAT_STAT_BUSY (s.dev.named 0xF000 a) = false ∧ s.dev.rd F.UPD_SWAP_STATE ≠ 1 ∧ s.dev.rd F.UPD_SWAP_STATE ≠ 2) ∧
    (∃ (s : State) (a : Acc),
      s.dev.takes 0xF000 a = true ∧ s.dev.on F.PAT_STAT_BUSY (s.dev.named 0xF000 a) = false ∧ s.dev.rd F.UPD_SWAP_STATE ≠ 1 ∧ s.dev.rd F.UPD_SWAP_STATE ≠ 2) ∧
    (∃ (s : State) (cl : Fin 4) (p : PatLoad),
      s.dev.live = true ∧ (s.dev.clu cl).pat = some p ∧ p.phase = 1 ∧ p.clear = true ∧ clusterQuiet s.dev cl = true) ∧
    (∃ (s : State) (cl : Fin 4) (p : PatLoad),
      s.dev.live = true ∧ (s.dev.clu cl).pat = some p ∧ p.phase = 2 ∧ p.swap = false ∧ p.err = false ∧ s.dev.rd F.PAT_LEN_LEN cl ≤ p.pos ∧
      imgCheck (some cl.val) (s.dev.rd F.PAT_LEN_LEN cl) (s.dev.rd F.PAT_MINVER_MINVER cl) (keyInForce s.dev) p.got = none) ∧
    (∃ (s : State) (v : Word) (a : Acc),
      s.dev.takes 0xF018 a = true ∧ s.dev.rd F.PAT_MINVER_MINVER (s.dev.named 0xF018 a) ≤ v.toNat) ∧
    (∃ (s : State) (c : Fin 32) (b : Bool) (d : Dev) (g : Dev) (f : Dev),
      s.dev.live = true ∧ s.dev.on F.FS_STAT_ACTIVE = false ∧ s.dev.fs.pfail = false ∧ (s.dev.chn c).run = none ∧
      d = rateGo c (liftCycle b (beforeSelect c s.dev)) ∧ d.live = true ∧ d.on F.FS_STAT_ACTIVE = false ∧ d.fs.pfail = false ∧ (d.chn c).run = none ∧
      g = beforeChoice c d ∧ f = starveIdle c (candidates g c) (clearIdleGroups c (candidates g c) g) ∧ (f.chn c).run = none ∧
      (f.chn c).cal.forced = false ∧ waitingClass f c = none ∧ candidate f c = none ∧ candidates g c ≠ []) ∧
    (∃ (s : State) (k : Fin 1048576) (x : Cell),
      s.dev.live = true ∧ look s.dev.cells k = some x ∧ tOpc x.tkt = opRead ∧ x.started = false ∧ x.out = none ∧ x.prof = none ∧
      (s.dev.queue (cellKey x)).head? = some k.val ∧ s.dev.adm.halted = false ∧ check10 s.dev x = true ∧
      stagingFits s.dev (dixCh x.dix) (stagingNeed s.dev x.tkt) = true) ∧
    (∃ (s : State) (r : LReq) (ga : Nat) (gi : Nat) (e : Dev),
      s.dev.live = true ∧ s.dev.on F.FS_STAT_ACTIVE = false ∧ s.dev.fs.pfail = false ∧ e = beforeGrant s.dev ∧ pickGrant e ga gi = some r ∧ r.who = .wake ∧
      costA e r.cost ≤ e.rd F.LIFT_BUDGET_ARRAY ∧ costI e r.cost ≤ e.rd F.LIFT_BUDGET_IO) ∧
    (∃ (s : State) (c : Fin 32) (w : Bool) (q : LReq),
      s.dev.live = true ∧ s.dev.lift.reqs = [q] ∧ q.ch = c ∧ isWake q = w ∧ s.dev.lift.resv = none) ∧
    (∃ (s : State) (c : Fin 32) (a : List Tok) (k : Tok) (b : List Tok),
      s.dev.live = true ∧ s.dev.lift.toks = a ++ k :: b ∧ k.ch = c ∧ k.ctx = none ∧ (a.all (fun j => !(j.ch == c.val && j.ctx.isNone)) = true)) ∧
    (∃ (s : State) (c : Fin 32) (id : Nat),
      s.dev.live = true ∧ s.dev.ctx c id = none) ∧
    (∃ (s : State) (a : Acc),
      s.dev.takes 0x983C a = true ∧ look s.dev.port.latched (a.dom.val * 65536 + 0x983C) = none) ∧
    (∃ (s : State) (cl : Fin 4) (w : Cw) (r : List Cw) (n : Nat),
      s.dev.live = true ∧ (s.dev.clu cl).staged = w :: r ∧ w.whole = true ∧ freeDecoder s.dev cl = some n ∧ (s.dev.cell w.cell).rxUe = false ∧
      s.dev.unswept = true) ∧
    (∃ (s : State) (cl : Fin 4) (n : Fin 10) (f : DecodeFound) (w : Cw) (y : Cell) (x : Ctx),
      s.dev.live = true ∧ s.dev.unswept = true ∧ decoderHead s.dev cl n = some w ∧ look s.dev.cells w.cell = some y ∧ y.out = none ∧ tOpc y.tkt = opRead ∧
      s.dev.ctx w.ch w.ctx = some x ∧ x.cells = [w.cell] ∧ x.work = .first ∧
      ((y.cws.any fun p => p.2 == .pending && p.1 != w.plane * 8 + w.idx) = true) ∧ f.ok = true ∧ f.iters ≤ (cellProf s.dev y).hiter ∧ w.first = true) ∧
    (∃ (s : State) (cl : Nat) (c : Nat) (id : Nat) (p : Nat) (r : List (Nat × Nat × Nat × Nat)) (x : Ctx),
      s.dev.live = true ∧ s.dev.unswept = true ∧ s.dev.sdp.queue = (cl, c, id, p) :: r ∧ s.dev.sdp.held = [] ∧ 0 < s.dev.rd F.SDP_CFG_CLMAX ∧
      s.dev.ctx c id = some x) ∧
    (∃ (s : State) (n : Fin 8) (cl : Nat) (c : Nat) (id : Nat) (p : Nat) (x : Ctx) (k : Nat) (y : Cell) (w : Nat) (w2 : Nat) (ws : List Nat),
      s.dev.live = true ∧ s.dev.unswept = true ∧ look s.dev.sdp.held n = some (cl, c, id, p) ∧ s.dev.ctx c id = some x ∧ x.st = .decoding ∧
      cellOfPlane s.dev x p = some k ∧ look s.dev.cells k = some y ∧ tOpc y.tkt = opRead ∧ wantedCws y false p = w :: w2 :: ws) ∧
    (∃ (s : State) (l : Nat) (a : Answer) (r : List Answer),
      s.dev.live = true ∧ s.dev.answers = a :: r ∧ a.what = .mapRead l ∧ a.code = 0 ∧ a.ue = false ∧ s.dev.lm.seeds = [] ∧ s.dev.chs = []) ∧
    (∃ (s : State) (l : Nat) (a : Answer) (r : List Answer) (w : LmWrite) (ws : List LmWrite),
      s.dev.live = true ∧ s.dev.answers = a :: r ∧ a.what = .mapWrite l ∧ a.code = 0 ∧ s.dev.lm.writes = w :: ws ∧ w.line = l ∧ w.moves = [] ∧
      s.dev.lm.seeds = [] ∧ s.dev.chs = []) ∧
    (∃ (s : State) (cl : Fin 4) (x : Track) (r : List Track) (b : List Byte),
      s.dev.live = true ∧ s.dev.pfSeen = false ∧ s.dev.on F.FS_STAT_ACTIVE = false ∧ (s.dev.clu cl).trk = x :: r ∧ s.dev.on F.LM_CTL_TRKEN = true ∧
      s.dev.on F.LM_CTL_EN = true ∧ s.dev.on F.LM_DIE_TRK x.dix = true ∧ lineLocked s.dev (pageLine s.dev x.dix x.blk x.page) = false ∧
      cacheGet s.dev (pageLine s.dev x.dix x.blk x.page) = some b) ∧
    (∃ (s : State) (a : Acc),
      s.dev.takes 0xD100 a = true) ∧
    (∃ (s : State),
      s.dev.live = true ∧ s.dev.on F.LM_CTL_EN = false ∧ s.dev.on F.LM_STAT_IDLE = true) ∧
    (∃ (s : State) (v : Word) (a : Acc),
      s.dev.takes 0xD160 a = true ∧ fld v.toNat 1 1 = 0 ∧ s.dev.on F.LM_STAT_SEEDBUSY = false ∧ s.dev.on F.LM_DIE_MODE (s.dev.rd F.LM_SADDR_DIX) = false ∧
      s.dev.lm = {}) ∧
    (∃ (s : State),
      s.dev.live = true ∧ s.dev.on F.LM_STAT_SEEDBUSY = true ∧ s.dev.lm.seeds = [] ∧ s.dev.lm.writes = []) ∧
    (∃ (s : State) (v : Word) (a : Acc),
      s.dev.takes 0xD180 a = true ∧ fld v.toNat 1 1 = 0 ∧ fld v.toNat 16 8 ≠ 0 ∧ s.dev.on F.LM_STAT_SWPBUSY = false ∧
      s.dev.rd F.LM_SWP_DIX_FIRST ≤ s.dev.rd F.LM_SWP_DIX_LAST ∧ s.dev.rd F.LM_SWP_BLK_FIRST ≤ s.dev.rd F.LM_SWP_BLK_LAST) ∧
    (∃ (s : State) (x : Nat) (b : Nat),
      s.dev.live = true ∧ s.dev.lm.sweep = some (x, b) ∧ s.dev.lm.unitBusy = false ∧ s.dev.lm.stop = false ∧ s.dev.lm.writes = []) ∧
    (∃ (s : State) (v : Word) (a : Acc),
      s.dev.takes 0xD180 a = true ∧ fld v.toNat 0 1 = 0 ∧ fld v.toNat 2 1 = s.dev.rd F.LM_SWP_CTL_MODE ∧ fld v.toNat 8 4 = s.dev.rd F.LM_SWP_CTL_CONFMAX ∧
      fld v.toNat 16 8 = s.dev.rd F.LM_SWP_CTL_RATE ∧ fld v.toNat 16 8 ≠ 0 ∧ s.dev.on F.LM_STAT_SWPBUSY = true ∧ s.dev.lm.unitBusy = false) ∧
    (∃ (s : State),
      s.dev.live = true ∧ s.dev.on F.LM_STAT_SWPBUSY = true ∧ s.dev.lm.sweep = none) ∧
    (∃ (s : State) (a : Acc),
      s.dev.takes 0xE210 a = true ∧ s.dev.on F.FS_STAT_ACTIVE = false ∧ s.dev.fs.pfail = false ∧ s.dev.rd F.ACC_STAT_STATE (s.dev.named 0xE210 a) = 0 ∧
      s.dev.on F.ACC_STAT_ABORTING (s.dev.named 0xE210 a) = false ∧ regionReady s.dev 3 = true) ∧
    (∃ (s : State) (a : Acc),
      s.dev.takes 0xE210 a = true ∧ s.dev.on F.FS_STAT_ACTIVE = false ∧ s.dev.fs.pfail = false ∧ s.dev.rd F.ACC_STAT_STATE (s.dev.named 0xE210 a) = 1 ∧
      s.dev.on F.ACC_STAT_ABORTING (s.dev.named 0xE210 a) = false ∧ accClaim s.dev (s.dev.named 0xE210 a) = 0 ∧
      isSender s.dev (s.dev.named 0xE210 a) = false) ∧
    (∃ (s : State) (a : Acc),
      s.dev.takes 0xE210 a = true ∧ s.dev.on F.FS_STAT_ACTIVE = false ∧ s.dev.fs.pfail = false ∧
      ((s.dev.rd F.ACC_STAT_STATE (s.dev.named 0xE210 a) = 1 ∨ s.dev.rd F.ACC_STAT_STATE (s.dev.named 0xE210 a) = 3 ∨ s.dev.rd F.ACC_STAT_STATE (s.dev.named 0xE210 a) = 5)) ∧
      s.dev.on F.ACC_STAT_ABORTING (s.dev.named 0xE210 a) = false ∧ accClaim s.dev (s.dev.named 0xE210 a) = 0) ∧
    (∃ (s : State) (a : Acc),
      s.dev.takes 0xE210 a = true ∧ s.dev.on F.FS_STAT_ACTIVE = false ∧ s.dev.fs.pfail = false ∧ s.dev.rd F.ACC_STAT_STATE (s.dev.named 0xE210 a) = 1 ∧
      s.dev.on F.ACC_STAT_ABORTING (s.dev.named 0xE210 a) = false ∧ accClaim s.dev (s.dev.named 0xE210 a) = 0) ∧
    (∃ (s : State) (a : Acc),
      s.dev.takes 0xE210 a = true ∧ s.dev.on F.FS_STAT_ACTIVE = false ∧ s.dev.fs.pfail = false ∧ s.dev.rd F.ACC_STAT_STATE (s.dev.named 0xE210 a) = 0 ∧
      s.dev.on F.ACC_STAT_ABORTING (s.dev.named 0xE210 a) = false ∧ regionReady s.dev 3 = true) ∧
    (∃ (s : State) (a : Acc),
      s.dev.takes 0xE210 a = true ∧ s.dev.on F.FS_STAT_ACTIVE = false ∧ s.dev.fs.pfail = false ∧
      ((s.dev.rd F.ACC_STAT_STATE (s.dev.named 0xE210 a) = 3 ∨ s.dev.rd F.ACC_STAT_STATE (s.dev.named 0xE210 a) = 5)) ∧
      s.dev.on F.ACC_STAT_ABORTING (s.dev.named 0xE210 a) = false) ∧
    (∃ (s : State) (n : Fin 64) (m : Fin 64) (k : Take) (r : List Take),
      s.dev.live = true ∧ (s.dev.accu n).takes = k :: r ∧ k.member = m ∧
      xchTurn s.dev 4 (takeClusters s.dev) = some (dixCl (startedDie (s.dev.cell k.cell))) ∧ k.lost = false ∧ bit (accClaim s.dev n) m = true ∧
      s.dev.on F.ACC_STAT_ABORTING n = false ∧ s.dev.rd F.ACC_STAT_STATE n = 1 ∧ s.dev.on F.ACC_STAT_CLOSED n = false) ∧
    (∃ (s : State) (n : Fin 64),
      s.dev.live = true ∧ s.dev.rd F.ACC_STAT_STATE n = 2 ∧ (s.dev.accu n).left = 0 ∧ (s.dev.accu n).waitAck = false ∧ (s.dev.accu n).bad = false) ∧
    (∃ (s : State) (n : Fin 64),
      s.dev.live = true ∧ s.dev.rd F.ACC_STAT_STATE n = 4 ∧ (s.dev.accu n).left = 0 ∧ (s.dev.accu n).bad = false ∧ (s.dev.accu n).spilling = true) ∧
    (∃ (s : State) (v : Word) (a : Acc) (k : Fin 4),
      s.dev.takes 0x1318 a = true ∧ fld v.toNat 0 4 = 2 ^ k.val) ∧
    (∃ (s : State) (k : Fin 1048576) (x : Cell) (d : Dev) (n : Nat),
      s.dev.live = true ∧ look s.dev.cells k = some x ∧ tOpc x.tkt = opCopy ∧ x.started = false ∧ x.out = none ∧ d = commitPoint 1 (dixCl x.dix) 0 s.dev ∧
      s.dev.adm.halted = false ∧ s.dev.rd F.PM_STAT_STATE ≠ 2 ∧ (s.dev.queue (cellKey x)).head? = some k.val ∧ x.stream = none ∧ x.tprof = none ∧
      d.on F.TRV_CFG_EN (dixCl x.dix) = true ∧ popc 4 (d.rd F.TRV_STAT_BUSY (dixCl x.dix)) < d.rd F.TRV_CFG_STREAMS (dixCl x.dix) + 1 ∧
      ((List.range 4).find? (fun j => !bit (d.rd F.TRV_STAT_BUSY (dixCl x.dix)) j) = some n) ∧ x.prof = none ∧ check10 d x = true ∧
      (profile d (tCprof x.tkt)).raw = false ∧ (profile d (tTprof x.tkt)).raw = false ∧ stagingFits d (dixCh x.dix) (stagingNeed d x.tkt) = false) ∧
    (∃ (s : State) (k : Fin 1048576) (x : Cell) (a : Answer) (r : List Answer) (b : Nat),
      s.dev.live = true ∧ s.dev.answers = a :: r ∧ a.what = .bitmap k ∧ a.code = 0 ∧ look s.dev.cells k = some x ∧ x.stream.isSome = true ∧
      x.started = false ∧ x.out = none ∧ b = leAt a.bytes 0 8 % 2 ^ cwTotal x.tkt ∧ (b ≠ 0 ∨ s.dev.on F.TRV_CFG_EMPTY (dixCl x.dix) = false)) ∧
    (∃ (s : State) (k : Fin 1048576) (x : Cell) (p : Prof),
      s.dev.live = true ∧ look s.dev.cells k = some x ∧ x.started = true ∧ x.between = true ∧ x.ready = false ∧ x.out = none ∧ x.tprof = some p ∧
      encodeNext s.dev (dixCh x.tdix) = some k.val ∧
      (dixCl x.dix = dixCl x.tdix ∨ xchTurn s.dev (dixCl x.tdix) (encodeClusters s.dev (dixCl x.tdix)) = some (dixCl x.dix)) ∧
      s.dev.on F.TRV_CFG_RECHECK (dixCl x.dix) = false ∧ dieFenced s.dev x.tdix = false) ∧
    (∃ (s : State) (k : Fin 1048576) (x : Cell) (p : Prof) (a : Answer) (r : List Answer) (g : List Nat),
      s.dev.live = true ∧ s.dev.answers = a :: r ∧ a.what = .bitmapAgain k ∧ a.code = 0 ∧ look s.dev.cells k = some x ∧ x.recheck = true ∧ x.out = none ∧
      x.tprof = some p ∧ dieFenced s.dev x.tdix = false ∧
      (g = (List.range (cwTotal x.tkt)).filter (fun m => bit (x.bitmap.getD 0) m && !bit (leAt a.bytes 0 8) m))) ∧
    (∃ (s : State) (a : Acc),
      s.dev.takes 0x100C a = true ∧ s.dev.on F.CH_STAT_ENUMBUSY (s.dev.named 0x100C a) = false ∧ chHolds s.dev (s.dev.named 0x100C a) = false ∧
      (((List.range 4).all fun l => !dieFenced s.dev (32 * (s.dev.named 0x100C a) + l)) = true) ∧ ((s.dev.chs).all (fun p => p.2.ctxs.isEmpty) = true)) ∧
    (∃ (s : State) (x : Fin 1024) (st : Nat),
      s.dev.live = true ∧ rbSampled s.dev (dixCh x) = true ∧ s.dev.rd F.DIE_STAT_STATE x = 2 ∧ st.testBit 6 = true ∧
      (s.dev.on F.DIE_CFG_AUTOFENCE x = false ∨ satAdd 8 (s.dev.rd F.DIE_STAT_TOCONS x) 1 < s.dev.rd F.DIE_CFG_TOLIM x)) ∧
    (∃ (s : State) (x : Fin 1024),
      s.dev.live = true ∧ s.dev.chs = [] ∧ s.dev.cells = [] ∧ s.dev.rd F.DIE_STAT_STATE x = 2 ∧ s.dev.lift.reqs = [] ∧ s.dev.dq = []) ∧
    (∃ (s : State) (a : Acc),
      s.dev.takes 0x3004 a = true ∧ s.dev.rd F.DIE_STAT_STATE (s.dev.named 0x3004 a) ≠ 3 ∧ s.dev.live = true ∧ s.dev.chs = [] ∧ s.dev.cells = [] ∧
      s.dev.lift.reqs = [] ∧ s.dev.dq = []) ∧
    (∃ (s : State) (a : Acc),
      s.dev.takes 0x3004 a = true ∧ s.dev.rd F.DIE_STAT_STATE (s.dev.named 0x3004 a) = 4) ∧
    (∃ (s : State) (a : Acc),
      s.dev.takes 0x3004 a = true) ∧
    (∃ (s : State) (c : Fin 32) (g : Fin 2),
      s.dev.live = true ∧ rbSampled s.dev c = true ∧ bit (s.dev.rd F.CH_RB_FB c) g = false ∧ bit (s.dev.chn c).rb g = false ∧ groupBusy s.dev c g = []) ∧
    (∃ (s : State) (c : Fin 32) (g : Fin 2),
      s.dev.live = true ∧ rbSampled s.dev c = true ∧ bit (s.dev.chn c).rb g = true ∧ s.dev.on F.CH_RB_AUTOEXIT c = true) ∧
    (∃ (s : State) (v : Word) (a : Acc),
      s.dev.takes 0x1010 a = true ∧ fld v.toNat 8 8 ≠ 0 ∧ fld v.toNat 16 8 ≠ 0 ∧ fld v.toNat 24 8 ≠ 0) ∧
    (∃ (s : State) (a : Acc),
      s.dev.takes 0x2300 a = true ∧ s.dev.on F.PZQ_STAT_BUSY (s.dev.named 0x2300 a) = false) ∧
    (∃ (s : State) (cl : Fin 4) (pu : Fin 64) (pd : Fin 64),
      s.dev.live = true ∧ s.dev.on F.PZQ_STAT_BUSY cl = true ∧ pu ≠ 0 ∧ pu ≠ 63 ∧ pd ≠ 0 ∧ pd ≠ 63 ∧ s.dev.chs = []) ∧
    (∃ (s : State) (cl : Fin 4),
      s.dev.live = true ∧ s.dev.on F.PZQ_STAT_ABORTS cl = true ∧ s.dev.on F.PZQ_STAT_BUSY cl = false ∧ s.dev.on F.PZQ_STAT_GIVEUP cl = false) ∧
    (∃ (s : State) (a : Acc),
      s.dev.takes 0x140C a = true ∧ s.dev.rd F.CAL_STAT_STATE (s.dev.named 0x140C a) = 1 ∧ s.dev.lift.reqs = []) ∧
    (∃ (s : State) (a : Acc),
      s.dev.takes 0x140C a = true ∧ s.dev.rd F.CAL_STAT_STATE (s.dev.named 0x140C a) = 1 ∧ s.dev.lift.reqs = []) ∧
    (∃ (s : State) (a : Acc),
      s.dev.takes 0x140C a = true ∧ s.dev.rd F.CAL_STAT_STATE (s.dev.named 0x140C a) = 5 ∧ s.dev.lift.reqs = []) ∧
    (∃ (s : State) (a : Acc) (c : Nat),
      s.dev.takes 0x1408 a = true ∧ c = s.dev.named 0x1408 a) ∧
    (∃ (s : State) (c : Fin 32),
      s.dev.live = true ∧ s.dev.rd F.CAL_STAT_STATE c = 1 ∧ s.dev.on F.CAL_CFG2_PERIOD c = true ∧ s.dev.on F.CAL_CFG_AUTO c = true ∧
      s.dev.on F.TST_LBCTL_DEPTH c = false ∧ s.dev.lift.reqs = []) ∧
    (∃ (s : State) (c : Fin 32) (h : Ch),
      s.dev.live = true ∧ s.dev.rd F.CAL_STAT_STATE c = 3 ∧ s.dev.chn c = h ∧ calCtx s.dev c = none ∧ 1 < h.cal.step ∧ s.dev.lift.reqs = []) ∧
    (∃ (s : State) (c : Fin 32) (h : Ch),
      s.dev.live = true ∧ (s.dev.rd F.CAL_STAT_STATE c = 2 ∨ s.dev.rd F.CAL_STAT_STATE c = 3) ∧ s.dev.chn c = h ∧ h.cal.forced = false) ∧
    (∃ (s : State) (c : Fin 32) (h : Ch),
      s.dev.live = true ∧ s.dev.rd F.CAL_STAT_STATE c = 4 ∧ s.dev.chn c = h) ∧
    (∃ (s : State) (c : Fin 32) (f : Fld) (g : Fld),
      s.dev.live = true ∧ (s.dev.chn c).run = none ∧ trimsDiffer s.dev c = true ∧ phyAwake s.dev c = true ∧ s.dev.on F.FS_STAT_ACTIVE = false ∧
      s.dev.fs.pfail = false ∧ s.dev.on F.CAL_CFG_GLIDE c = true ∧ (f, g, false) ∈ trims) ∧
    (∃ (s : State) (c : Fin 32),
      s.dev.live = true ∧ s.dev.on F.PM_CFG_PHYIDLE = true ∧ phyAwake s.dev c = true ∧ phyBusy s.dev c = false ∧ s.dev.on F.FS_STAT_ACTIVE = false) ∧
    (∃ (s : State) (c : Fin 32),
      s.dev.live = true ∧ (s.dev.chn c).waking = true ∧ s.dev.on F.FS_STAT_ACTIVE = false ∧ s.dev.on F.CAL_CFG_AUTO c = false) ∧
    (∃ (s : State) (p : Fin 4) (tag : Fin 256) (o : Outst),
      s.dev.live = true ∧ look (s.dev.prt p).rd.out tag = some o ∧ o.err = 0) ∧
    (∃ (s : State) (p : Fin 4) (tag : Fin 256) (o : Outst) (l : Nat),
      s.dev.live = true ∧ look (s.dev.prt p).wr.out tag = some o ∧ o.req.what = .mapWrite l) ∧
    (∃ (s : State) (p : Fin 4) (tag : Fin 256) (o : Outst) (l : Nat),
      s.dev.live = true ∧ look (s.dev.prt p).rd.out tag = some o ∧ o.req.what = .mapRead l) ∧
    (∃ (s : State) (a : Acc),
      s.dev.takes 0x2418 a = true) ∧
    (∃ (s : State) (p : Fin 4) (w : Bool) (tag : Fin 256) (r : Req) (q : List Req),
      s.dev.live = true ∧ (p ≠ 0 ∨ w = false) ∧ look ((s.dev.prt p).dir w).out tag = none ∧ tag.val ∉ ((s.dev.prt p).dir w).quar ∧
      ((s.dev.prt p).dir w).gCtrl ≠ 0 ∧ ((s.dev.prt p).dir w).ctrl = r :: q ∧ r.kind = .ctrl ∧ 0 < ((s.dev.prt p).dir w).free ∧
      overlaps s.dev w r = false) :=
  ⟨⟨wReady, 9, 0x17, {}, by decide +kernel⟩,
    ⟨wWith [(F.CQ_CFG_EN.ix 9, 0, 1), (F.CQ_DB_TAIL.ix 9, 0, 13), (F.CQ_DB_HEAD.ix 9, 0, 10)], 9, 12, {}, by decide +kernel⟩,
    ⟨{ wWith [(F.CQ_CFG_EN.ix 2, 0, 1)] with dev.cells := [(7, { tkt := leBytes 1 0x05 ++ leBytes 1 0 ++ leBytes 1 1 ++ leBytes 1 2 ++ List.replicate 44 0 ++ leBytes 8 9 ++ leBytes 8 0, started := true, st := 4, out := some { status := 0 } })] }, 7, { tkt := leBytes 1 0x05 ++ leBytes 1 0 ++ leBytes 1 1 ++ leBytes 1 2 ++ List.replicate 44 0 ++ leBytes 8 9 ++ leBytes 8 0, started := true, st := 4, out := some { status := 0 } }, { status := 0 }, by decide +kernel⟩,
    ⟨{ wWith [(F.CQ_CFG_EN.ix 2, 0, 1), (F.CQ_DB_TAIL.ix 2, 0, 15)] with dev.answers := [{ what := .record 2 15, code := 0, req := { what := .record 2 15, addr := 0, len := 32 } }], dev.cq := [(2, { busy := some (.reject 3), reserved := 1 })] }, 2, 3, { what := .record 2 15, code := 0, req := { what := .record 2 15, addr := 0, len := 32 } }, [], 15, 0, by decide +kernel⟩,
    ⟨wReady, {}, by decide +kernel⟩,
    ⟨wReady, {}, by decide +kernel⟩,
    ⟨{ wReady with dev.cls := [(2, { pat := some { clear := true }, pmw := [(0, 1)] })] }, 2, { clear := true }, by decide +kernel⟩,
    ⟨{ wWith [(F.PAT_LEN_LEN, 2, 96), (F.SC_KEY_KV, 0, 1)] with dev.cls := [(2, { pat := some { phase := 2, got := wImage, pos := 96 } })], dev.upd.key := some wKey }, 2, { phase := 2, got := wImage, pos := 96 }, by decide +kernel⟩,
    ⟨wWith [(F.PAT_MINVER_MINVER, 0, 5)], 9, {}, by decide +kernel⟩,
    ⟨{ wWith [(F.PM_PHYSTAT_ON, 0, 1)] with dev.chs := [(0, { ctxs := [(4, { mw := 0x4000, st := .ready, dix := 1, cells := [7], committed := true })] })] }, 0, false, rateGo (0 : Fin 32) (liftCycle (false : Bool) (beforeSelect (0 : Fin 32) ({ wWith [(F.PM_PHYSTAT_ON, 0, 1)] with dev.chs := [(0, { ctxs := [(4, { mw := 0x4000, st := .ready, dix := 1, cells := [7], committed := true })] })] } : State).dev)), beforeChoice (0 : Fin 32) (rateGo (0 : Fin 32) (liftCycle (false : Bool) (beforeSelect (0 : Fin 32) ({ wWith [(F.PM_PHYSTAT_ON, 0, 1)] with dev.chs := [(0, { ctxs := [(4, { mw := 0x4000, st := .ready, dix := 1, cells := [7], committed := true })] })] } : State).dev)) : Dev), starveIdle (0 : Fin 32) (candidates (beforeChoice (0 : Fin 32) (rateGo (0 : Fin 32) (liftCycle (false : Bool) (beforeSelect (0 : Fin 32) ({ wWith [(F.PM_PHYSTAT_ON, 0, 1)] with dev.chs := [(0, { ctxs := [(4, { mw := 0x4000, st := .ready, dix := 1, cells := [7], committed := true })] })] } : State).dev)) : Dev) : Dev) (0 : Fin 32)) (clearIdleGroups (0 : Fin 32) (candidates (beforeChoice (0 : Fin 32) (rateGo (0 : Fin 32) (liftCycle (false : Bool) (beforeSelect (0 : Fin 32) ({ wWith [(F.PM_PHYSTAT_ON, 0, 1)] with dev.chs := [(0, { ctxs := [(4, { mw := 0x4000, st := .ready, dix := 1, cells := [7], committed := true })] })] } : State).dev)) : Dev) : Dev) (0 : Fin 32)) (beforeChoice (0 : Fin 32) (rateGo (0 : Fin 32) (liftCycle (false : Bool) (beforeSelect (0 : Fin 32) ({ wWith [(F.PM_PHYSTAT_ON, 0, 1)] with dev.chs := [(0, { ctxs := [(4, { mw := 0x4000, st := .ready, dix := 1, cells := [7], committed := true })] })] } : State).dev)) : Dev) : Dev)), by decide +kernel⟩,
    ⟨{ wWith [(F.DIE_GEOM1_PGLEN, 0, 18432)] with dev.cells := [(7, { tkt := leBytes 1 0x01 ++ leBytes 1 0 ++ leBytes 1 1 ++ leBytes 1 2 ++ leBytes 2 0 ++ leBytes 6 0 ++ leBytes 1 0 ++ leBytes 1 1 ++ leBytes 2 0 ++ List.replicate 32 0 ++ leBytes 8 9 ++ leBytes 8 0 })], dev.dq := [(0, [7])] }, 7, { tkt := leBytes 1 0x01 ++ leBytes 1 0 ++ leBytes 1 1 ++ leBytes 1 2 ++ leBytes 2 0 ++ leBytes 6 0 ++ leBytes 1 0 ++ leBytes 1 1 ++ leBytes 2 0 ++ List.replicate 32 0 ++ leBytes 8 9 ++ leBytes 8 0 }, by decide +kernel⟩,
    ⟨{ wReady with dev.lift.reqs := [{ ch := 5, who := .wake, cost := 4, rank := 2 }] }, { ch := 5, who := .wake, cost := 4, rank := 2 }, 100000, 100000, beforeGrant ({ wReady with dev.lift.reqs := [{ ch := 5, who := .wake, cost := 4, rank := 2 }] } : State).dev, by decide +kernel⟩,
    ⟨{ wReady with dev.lift.reqs := [{ ch := 5, who := .wake, cost := 4, rank := 2 }] }, 5, true, { ch := 5, who := .wake, cost := 4, rank := 2 }, by decide +kernel⟩,
    ⟨{ wReady with dev.lift.toks := [{ ch := 5, ctx := none, array := 3, io := 4, pgm := false }, { ch := 6, ctx := some 1, array := 7, io := 8, pgm := false }] }, 5, [], { ch := 5, ctx := none, array := 3, io := 4, pgm := false }, [{ ch := 6, ctx := some 1, array := 7, io := 8, pgm := false }], by decide +kernel⟩,
    ⟨{ wReady with dev.lift.toks := [{ ch := 5, ctx := none, array := 3, io := 4, pgm := false }, { ch := 6, ctx := some 1, array := 7, io := 8, pgm := false }] }, 6, 1, by decide +kernel⟩,
    ⟨wWith [(F.LIFT_WAIT_MAXWAIT, 0, 77)], {}, by decide +kernel⟩,
    ⟨{ wReady with dev.cls := [(0, { staged := [{ cell := 7, ten := 0, ch := 0, ctx := 4, plane := 0, idx := 0, first := true, zeros := 9999, bytes := [], offs := [] }, { cell := 7, ten := 0, ch := 0, ctx := 4, plane := 0, idx := 0, first := true, zeros := 9999, bytes := [], offs := [] }] })] }, 0, { cell := 7, ten := 0, ch := 0, ctx := 4, plane := 0, idx := 0, first := true, zeros := 9999, bytes := [], offs := [] }, [{ cell := 7, ten := 0, ch := 0, ctx := 4, plane := 0, idx := 0, first := true, zeros := 9999, bytes := [], offs := [] }], 0, by decide +kernel⟩,
    ⟨{ wReady with dev.cells := [(7, { tkt := leBytes 1 0x01 ++ leBytes 1 0 ++ leBytes 1 1 ++ leBytes 1 2 ++ leBytes 2 0 ++ leBytes 6 0 ++ leBytes 1 0 ++ leBytes 1 2 ++ leBytes 2 0 ++ List.replicate 32 0 ++ leBytes 8 9 ++ leBytes 8 0, started := true, st := 2, cws := [(0, .pending), (1, .pending)] })], dev.chs := [(0, { ctxs := [(4, { cells := [7], st := .decoding, planes := 1 })] })], dev.cls := [(0, { hdec := [(0, [{ cell := 7, ten := 0, ch := 0, ctx := 4, plane := 0, idx := 0, first := true, zeros := 9999, bytes := [], offs := [] }])] })] }, 0, 0, { ok := true, iters := 1, corrected := 5, user := [1], mdata := [2], n1 := 3, n0 := 2 }, { cell := 7, ten := 0, ch := 0, ctx := 4, plane := 0, idx := 0, first := true, zeros := 9999, bytes := [], offs := [] }, { tkt := leBytes 1 0x01 ++ leBytes 1 0 ++ leBytes 1 1 ++ leBytes 1 2 ++ leBytes 2 0 ++ leBytes 6 0 ++ leBytes 1 0 ++ leBytes 1 2 ++ leBytes 2 0 ++ List.replicate 32 0 ++ leBytes 8 9 ++ leBytes 8 0, started := true, st := 2, cws := [(0, .pending), (1, .pending)] }, { cells := [7], st := .decoding, planes := 1 }, by decide +kernel⟩,
    ⟨{ wReady with dev.sdp.queue := [(1, 9, 4, 0), (2, 17, 1, 3)], dev.chs := [(9, { ctxs := [(4, { cells := [7], st := .decoding, work := .soft, planes := 1 })] })] }, 1, 9, 4, 0, [(2, 17, 1, 3)], { cells := [7], st := .decoding, work := .soft, planes := 1 }, by decide +kernel⟩,
    ⟨{ wReady with dev.sdp.held := [(0, (0, 0, 4, 0))], dev.cells := [(7, { tkt := leBytes 1 0x01 ++ leBytes 1 0 ++ leBytes 1 1 ++ leBytes 1 2 ++ leBytes 2 0 ++ leBytes 6 0 ++ leBytes 1 0 ++ leBytes 1 2 ++ leBytes 2 0 ++ List.replicate 32 0 ++ leBytes 8 9 ++ leBytes 8 0, started := true, st := 2, cws := [(0, .failing), (1, .failing)] })], dev.chs := [(0, { ctxs := [(4, { cells := [7], st := .decoding, work := .soft, planes := 1 })] })] }, 0, 0, 0, 4, 0, { cells := [7], st := .decoding, work := .soft, planes := 1 }, 7, { tkt := leBytes 1 0x01 ++ leBytes 1 0 ++ leBytes 1 1 ++ leBytes 1 2 ++ leBytes 2 0 ++ leBytes 6 0 ++ leBytes 1 0 ++ leBytes 1 2 ++ leBytes 2 0 ++ List.replicate 32 0 ++ leBytes 8 9 ++ leBytes 8 0, started := true, st := 2, cws := [(0, .failing), (1, .failing)] }, 0, 1, [], by decide +kernel⟩,
    ⟨{ wReady with dev.answers := [{ what := .mapRead 5, code := 0, bytes := List.replicate 16 1, req := { what := .mapRead 5, addr := 0, len := 16 } }], dev.lm.fetching := [5, 6] }, 5, { what := .mapRead 5, code := 0, bytes := List.replicate 16 1, req := { what := .mapRead 5, addr := 0, len := 16 } }, [], by decide +kernel⟩,
    ⟨{ wReady with dev.answers := [{ what := .mapWrite 5, code := 0, req := { what := .mapWrite 5, addr := 0, len := 16 } }], dev.lm.writes := [{ line := 5, bytes := List.replicate 16 2, dix := 0 }] }, 5, { what := .mapWrite 5, code := 0, req := { what := .mapWrite 5, addr := 0, len := 16 } }, [], { line := 5, bytes := List.replicate 16 2, dix := 0 }, [], by decide +kernel⟩,
    ⟨{ wWith [(F.LM_CTL_EN, 0, 1), (F.LM_CTL_TRKEN, 0, 1), (F.LM_DIE_TRK, 1, 1)] with dev.cls := [(0, { trk := [{ dix := 1, blk := 2, page := 3, offs := List.replicate 8 0, n1 := 30, n0 := 10, first := true, cell := 7, tlm := false }] })], dev.lm.cache := [(cacheSet (pageLine wDev 1 2 3), [(pageLine wDev 1 2 3, List.replicate 16 0)])] }, 0, { dix := 1, blk := 2, page := 3, offs := List.replicate 8 0, n1 := 30, n0 := 10, first := true, cell := 7, tlm := false }, [], List.replicate 16 0, by decide +kernel⟩,
    ⟨wReady, {}, by decide +kernel⟩,
    ⟨wReady, by decide +kernel⟩,
    ⟨wReady, 0x301, {}, by decide +kernel⟩,
    ⟨wWith [(F.LM_STAT_SEEDBUSY, 0, 1)], by decide +kernel⟩,
    ⟨wReady, 0x400F04, {}, by decide +kernel⟩,
    ⟨{ wReady with dev.lm.sweep := some (3, 8) }, 3, 8, by decide +kernel⟩,
    ⟨{ wWith [(F.LM_STAT_SWPBUSY, 0, 1)] with dev.lm.sweep := some (3, 8) }, 0x400F02, {}, by decide +kernel⟩,
    ⟨wWith [(F.LM_STAT_SWPBUSY, 0, 1)], by decide +kernel⟩,
    ⟨{ wWith [(F.ACC_STAT_STATE, 0, 0)] with dev.acc := [(0, { slots := [(0, [1, 2])] })] }, {}, by decide +kernel⟩,
    ⟨wWith [(F.ACC_STAT_STATE, 0, 1)], {}, by decide +kernel⟩,
    ⟨{ wWith [(F.ACC_STAT_STATE, 0, 5), (F.ACC_STAT_UE, 0, 1)] with dev.acc := [(0, { slots := [(0, [1, 2])] })] }, {}, by decide +kernel⟩,
    ⟨wWith [(F.ACC_STAT_STATE, 0, 1)], {}, by decide +kernel⟩,
    ⟨wReady, {}, by decide +kernel⟩,
    ⟨{ wWith [(F.ACC_STAT_STATE, 0, 3)] with dev.acc := [(0, { slots := [(0, [1, 2])] })] }, {}, by decide +kernel⟩,
    ⟨{ wWith [(F.ACC_STAT_STATE, 0, 1), (F.ACC_CLAIM_LO_MASK, 0, 6)] with dev.acc := [(0, { takes := [{ member := 2, cell := 7, cws := [[5, 6]] }], slots := [(0, [1])] })] }, 0, 2, { member := 2, cell := 7, cws := [[5, 6]] }, [], by decide +kernel⟩,
    ⟨wWith [(F.ACC_STAT_STATE, 33, 2)], 33, by decide +kernel⟩,
    ⟨{ wWith [(F.ACC_STAT_STATE, 33, 4)] with dev.acc := [(33, { spilling := true })] }, 33, by decide +kernel⟩,
    ⟨{ wWith [(F.WR_HOLD_V.ix 2, 0, 1), (F.WR_STAT_HELD, 0, 7)] with dev.chs := [(0, { holds := [(1, []), (2, [(0, [1])])], holdStg := [(2, 99)] })] }, 4, {}, 2, by decide +kernel⟩,
    ⟨{ wWith [(F.TRV_CFG_EN, 0, 1), (F.TRV_CFG_STREAMS, 0, 3), (F.TRV_STAT_BUSY, 0, 3), (F.DIE_GEOM1_PGLEN, 0, 18432)] with dev.cells := [(7, { tkt := leBytes 1 0x04 ++ leBytes 1 0 ++ leBytes 1 1 ++ leBytes 1 2 ++ leBytes 2 0 ++ leBytes 6 0 ++ leBytes 1 0 ++ leBytes 1 1 ++ leBytes 2 0 ++ List.replicate 32 0 ++ leBytes 8 9 ++ leBytes 8 0 }), (8, { stg := 131072 })], dev.dq := [(0, [7])] }, 7, { tkt := leBytes 1 0x04 ++ leBytes 1 0 ++ leBytes 1 1 ++ leBytes 1 2 ++ leBytes 2 0 ++ leBytes 6 0 ++ leBytes 1 0 ++ leBytes 1 1 ++ leBytes 2 0 ++ List.replicate 32 0 ++ leBytes 8 9 ++ leBytes 8 0 }, commitPoint 1 0 0 ({ wWith [(F.TRV_CFG_EN, 0, 1), (F.TRV_CFG_STREAMS, 0, 3), (F.TRV_STAT_BUSY, 0, 3), (F.DIE_GEOM1_PGLEN, 0, 18432)] with dev.cells := [(7, { tkt := leBytes 1 0x04 ++ leBytes 1 0 ++ leBytes 1 1 ++ leBytes 1 2 ++ leBytes 2 0 ++ leBytes 6 0 ++ leBytes 1 0 ++ leBytes 1 1 ++ leBytes 2 0 ++ List.replicate 32 0 ++ leBytes 8 9 ++ leBytes 8 0 }), (8, { stg := 131072 })], dev.dq := [(0, [7])] } : State).dev, 2, by decide +kernel⟩,
    ⟨{ wReady with dev.answers := [{ what := .bitmap 7, code := 0, bytes := leBytes 8 1, req := { what := .bitmap 7, addr := 0, len := 8 } }], dev.cells := [(7, { tkt := leBytes 1 0x04 ++ leBytes 1 0 ++ leBytes 1 1 ++ leBytes 1 2 ++ leBytes 2 0 ++ leBytes 6 0 ++ leBytes 1 0 ++ leBytes 1 1 ++ leBytes 2 0 ++ List.replicate 32 0 ++ leBytes 8 9 ++ leBytes 8 0, stream := some 1, prof := some { cwpp := 4 }, tprof := some { cwpp := 4 }, stg := 100 })] }, 7, { tkt := leBytes 1 0x04 ++ leBytes 1 0 ++ leBytes 1 1 ++ leBytes 1 2 ++ leBytes 2 0 ++ leBytes 6 0 ++ leBytes 1 0 ++ leBytes 1 1 ++ leBytes 2 0 ++ List.replicate 32 0 ++ leBytes 8 9 ++ leBytes 8 0, stream := some 1, prof := some { cwpp := 4 }, tprof := some { cwpp := 4 }, stg := 100 }, { what := .bitmap 7, code := 0, bytes := leBytes 8 1, req := { what := .bitmap 7, addr := 0, len := 8 } }, [], 1, by decide +kernel⟩,
    ⟨{ wReady with dev.cells := [(7, { tkt := leBytes 1 0x04 ++ leBytes 1 0 ++ leBytes 1 1 ++ leBytes 1 2 ++ leBytes 2 0 ++ leBytes 6 0 ++ leBytes 1 0 ++ leBytes 1 1 ++ leBytes 2 0 ++ List.replicate 32 0 ++ leBytes 8 9 ++ leBytes 8 0, stream := some 1, prof := some { cwpp := 4 }, tprof := some { cwpp := 4 }, stg := 100, started := true, between := true, plain := [(0, [1])], bitmap := some 1 })] }, 7, { tkt := leBytes 1 0x04 ++ leBytes 1 0 ++ leBytes 1 1 ++ leBytes 1 2 ++ leBytes 2 0 ++ leBytes 6 0 ++ leBytes 1 0 ++ leBytes 1 1 ++ leBytes 2 0 ++ List.replicate 32 0 ++ leBytes 8 9 ++ leBytes 8 0, stream := some 1, prof := some { cwpp := 4 }, tprof := some { cwpp := 4 }, stg := 100, started := true, between := true, plain := [(0, [1])], bitmap := some 1 }, { cwpp := 4 }, by decide +kernel⟩,
    ⟨{ wReady with dev.answers := [{ what := .bitmapAgain 7, code := 0, bytes := leBytes 8 0, req := { what := .bitmapAgain 7, addr := 0, len := 8 } }], dev.cells := [(7, { tkt := leBytes 1 0x04 ++ leBytes 1 0 ++ leBytes 1 1 ++ leBytes 1 2 ++ leBytes 2 0 ++ leBytes 6 0 ++ leBytes 1 0 ++ leBytes 1 1 ++ leBytes 2 0 ++ List.replicate 32 0 ++ leBytes 8 9 ++ leBytes 8 0, stream := some 1, prof := some { cwpp := 4 }, tprof := some { cwpp := 4 }, ready := true, recheck := true, relocated := 1, coded := [(0, [3])], bitmap := some 1 })] }, 7, { tkt := leBytes 1 0x04 ++ leBytes 1 0 ++ leBytes 1 1 ++ leBytes 1 2 ++ leBytes 2 0 ++ leBytes 6 0 ++ leBytes 1 0 ++ leBytes 1 1 ++ leBytes 2 0 ++ List.replicate 32 0 ++ leBytes 8 9 ++ leBytes 8 0, stream := some 1, prof := some { cwpp := 4 }, tprof := some { cwpp := 4 }, ready := true, recheck := true, relocated := 1, coded := [(0, [3])], bitmap := some 1 }, { cwpp := 4 }, { what := .bitmapAgain 7, code := 0, bytes := leBytes 8 0, req := { what := .bitmapAgain 7, addr := 0, len := 8 } }, [], [0], by decide +kernel⟩,
    ⟨wReady, {}, by decide +kernel⟩,
    ⟨wWith [(F.PM_PHYSTAT_ON, 0, 1), (F.DIE_STAT_STATE, 5, 2)], 5, 0x60, by decide +kernel⟩,
    ⟨wWith [(F.DIE_STAT_STATE, 5, 2)], 5, by decide +kernel⟩,
    ⟨wWith [(F.DIE_STAT_STATE, 0, 1)], {}, by decide +kernel⟩,
    ⟨wWith [(F.DIE_STAT_STATE, 0, 4)], {}, by decide +kernel⟩,
    ⟨wWith [(F.DIE_STAT_TOCONS, 0, 7)], {}, by decide +kernel⟩,
    ⟨{ wWith [(F.PM_PHYSTAT_ON, 0, 0x200)] with dev.chs := [(9, { rb := 1 })] }, 9, 1, by decide +kernel⟩,
    ⟨wWith [(F.PM_PHYSTAT_ON, 0, 0x200), (F.CH_RB_FB, 9, 3)], 9, 1, by decide +kernel⟩,
    ⟨wWith [(F.CH_RB_FB, 0, 3)], 0x0A0A0A04, {}, by decide +kernel⟩,
    ⟨wWith [(F.PZQ_STAT_GIVEUP, 0, 1), (F.PZQ_STAT_ABORTS, 0, 4)], {}, by decide +kernel⟩,
    ⟨wWith [(F.PZQ_STAT_BUSY, 2, 1), (F.PZQ_STAT_ABORTS, 2, 2)], 2, 31, 40, by decide +kernel⟩,
    ⟨wWith [(F.PZQ_STAT_ABORTS, 2, 1)], 2, by decide +kernel⟩,
    ⟨wWith [(F.CAL_STAT_STATE, 0, 1)], {}, by decide +kernel⟩,
    ⟨wWith [(F.CAL_STAT_STATE, 0, 1)], {}, by decide +kernel⟩,
    ⟨wWith [(F.CAL_STAT_STATE, 0, 5)], {}, by decide +kernel⟩,
    ⟨wReady, {}, 0, by decide +kernel⟩,
    ⟨wWith [(F.CAL_STAT_STATE, 9, 1), (F.CAL_CFG2_PERIOD, 9, 10)], 9, by decide +kernel⟩,
    ⟨{ wWith [(F.CAL_STAT_STATE, 9, 3)] with dev.chs := [(9, { cal := { step := 3, more := [1] } })] }, 9, { cal := { step := 3, more := [1] } }, by decide +kernel⟩,
    ⟨{ wWith [(F.CAL_STAT_STATE, 9, 3)] with dev.chs := [(9, { cal := { step := 3 } })] }, 9, { cal := { step := 3 } }, by decide +kernel⟩,
    ⟨{ wWith [(F.CAL_STAT_STATE, 9, 4)] with dev.chs := [(9, { cal := { step := 0 } })] }, 9, { cal := { step := 0 } }, by decide +kernel⟩,
    ⟨wWith [(F.PM_PHYSTAT_ON, 0, 0x3FF), (F.CAL_TSTRB_RDQS, 9, 5), (F.CAL_CFG_GLIDE, 9, 1)], 9, F.CAL_STRB_RDQS, F.CAL_TSTRB_RDQS, by decide +kernel⟩,
    ⟨wWith [(F.PM_PHYSTAT_ON, 0, 0x3FF), (F.PM_CFG_PHYIDLE, 0, 1)], 9, by decide +kernel⟩,
    ⟨{ wWith [(F.CAL_CFG_AUTO, 9, 0)] with dev.chs := [(9, { waking := true })] }, 9, by decide +kernel⟩,
    ⟨{ wReady with dev.fab := [(2, { rd := { out := [(7, { req := { what := .mapRead 5, addr := 64, len := 16 } })] }, wr := { out := [] } })] }, 2, 7, { req := { what := .mapRead 5, addr := 64, len := 16 } }, by decide +kernel⟩,
    ⟨{ wReady with dev.fab := [(2, { rd := { out := [] }, wr := { out := [(7, { req := { what := .mapWrite 5, addr := 64, len := 16 } })] } })] }, 2, 7, { req := { what := .mapWrite 5, addr := 64, len := 16 } }, 5, by decide +kernel⟩,
    ⟨{ wReady with dev.fab := [(2, { rd := { out := [(7, { req := { what := .mapRead 5, addr := 64, len := 16 } })] }, wr := { out := [] } })] }, 2, 7, { req := { what := .mapRead 5, addr := 64, len := 16 } }, 5, by decide +kernel⟩,
    ⟨{ wWith [(F.FP_QUAR_RDQ, 0, 2)] with dev.fab := [(0, { rd := { quar := [3, 4] } })] }, {}, by decide +kernel⟩,
    ⟨{ wReady with dev.fab := [(2, { rd := { ctrl := [{ what := .mapRead 5, addr := 64, len := 16 }, { what := .mapWrite 5, addr := 64, len := 16 }] } })] }, 2, false, 7, { what := .mapRead 5, addr := 64, len := 16 }, [{ what := .mapWrite 5, addr := 64, len := 16 }], by decide +kernel⟩⟩

/-- `Obligations.FusesAreNeverTakenBack` has a state and operands that meet its hypotheses. -/
theorem witness_fuses_are_never_taken_back :
    ∃ (s t : State), step s = .next t ∧ s.fuse.ok :=
  ⟨{ wReady with dev.pins.porstN := false }, { wReady with dev.pins.porstN := false }, rfl, by unfold Fuses.ok; decide⟩

/-- `Obligations.UnlistedOffsets` has a state and operands that meet its hypotheses. -/
theorem witness_unlisted_offsets :
    ∃ (s : State) (o : Nat), fieldsAt o = none ∧ (portRoute o s.dev = .served ∨ portRoute o s.dev = .refused) :=
  ⟨wReady, 0xAFFC, by decide +kernel, by decide +kernel⟩

/-- Each clause of `Obligations.RingIdentity` has a state and operands that meet its hypotheses. -/
theorem witness_ring_identity :
    (∃ (s : State) (a : Acc),
      s.dev.takes 0xB004 a = true ∧ s.dev.on F.RG_CTL_EN = false) ∧
    (∃ (s : State),
      s.dev.on F.RG_CTL_EN = false) ∧
    (∃ (s : State),
      s.dev.on F.RG_CTL_EN = false) ∧
    (∃ (s : State),
      s.dev.on F.RG_CTL_EN = false) ∧
    (∃ (s : State) (v : Word) (a : Acc),
      s.dev.takes 0xB000 a = true ∧ fld v.toNat 0 1 = 1 ∧ (s.dev.rd F.RG_ID_ID = 0 ∨ s.dev.rd F.RG_ID_ID = 0xFFFF)) ∧
    (∃ (s : State) (v : Word) (a : Acc),
      s.dev.takes 0xB000 a = true ∧ fld v.toNat 0 1 = 1 ∧ (s.dev.rd F.RG_ID_ID = 0 ∨ s.dev.rd F.RG_ID_ID = 0xFFFF)) :=
  ⟨⟨wReady, {}, by decide +kernel⟩,
    ⟨wReady, by decide +kernel⟩,
    ⟨wReady, by decide +kernel⟩,
    ⟨wReady, by decide +kernel⟩,
    ⟨wReady, 1, {}, by decide +kernel⟩,
    ⟨wReady, 1, {}, by decide +kernel⟩⟩

/-- Each clause of `Obligations.SporeSecurity` has a state and operands that meet its hypotheses. -/
theorem witness_spore_security :
    (∃ (s : State),
      s.dev.live = true ∧ s.dev.on F.SPR_CTL_EN = true) ∧
    (∃ (s : State) (x : Spore),
      s.dev.live = true ∧ s.dev.on F.SPR_CTL_EN = true ∧ s.dev.spr.stage = [x] ∧ x.ns = true ∧ consumerNs s.dev x.dst = false ∧ x.chan < 48 ∧ x.dst < 96) :=
  ⟨⟨{ wReady with dev.spr.stage := [{ chan := 4, dst := 3, ns := true }, { chan := 5, dst := 3, ns := false }, { chan := 5, dst := 0x13, ns := true }] }, by decide +kernel⟩,
    ⟨{ wReady with dev.spr.stage := [{ chan := 4, dst := 3, ns := true }] }, { chan := 4, dst := 3, ns := true }, by decide +kernel⟩⟩

/-- Each clause of `Obligations.BestInterruptCandidate` has a state and operands that meet its hypotheses. -/
theorem witness_best_interrupt_candidate :
    (∃ (s : State) (k : Fin 16) (skip : List Nat) (m : Nat) (r : Fin 256),
      bestFor s.dev k skip = some m ∧ presentable s.dev k r = true ∧ r.val ∉ skip) ∧
    (∃ (s : State) (k : Fin 16) (skip : List Nat) (r : Fin 256),
      bestFor s.dev k skip = none ∧ r.val ∉ skip) :=
  ⟨⟨{ wWith [(F.INT_GCTL_EN, 0, 1), (F.INT_SRC_EN.ix 0xF0, 0, 1), (F.INT_SRC_EN.ix 0xF1, 0, 1), (F.INT_SRC_ROUTE.ix 0xF0, 0, 0xFF), (F.INT_SRC_ROUTE.ix 0xF1, 0, 0xFF), (F.INT_SRC_PRI.ix 0xF0, 0, 9), (F.INT_SRC_PRI.ix 0xF1, 0, 9)] with dev.int.pend := 2 ^ 0xF0 + 2 ^ 0xF1 }, 3, [5], 0xF0, 0xF1, by decide +kernel⟩,
    ⟨wReady, 3, [5], 0xF1, by decide +kernel⟩⟩

end Sys2Proof.Tests
end

section
/-!
PROOFS. The scope family: the step (R8, R347) and what the commands do. Both statements fail. The step's third clause
leaves out captured shadows, and the clause of GLIDE_TIMER leaves out the loopback depths of R283.
-/

namespace Sys2Proof.Machine

/-! ### One cycle of AONCLK (R347, R412) -/

theorem step_of_pending_nil {s : State} (h : s.pending = []) : step s = .next (s.withDev (aonTick s.dev)) := by
  simp only [step, h, State.upd_eq]

/-- LG_TIME stands one µs before a multiple of LG_CFG.PERIOD, and a captured shadow of group 7 names LG_TIME_LO. LG_TIME is
no RWC field, so a commit of the part captures none (R18); but a `State` may hold one, and the statement excludes none. -/
def timeCaptured : State :=
  { dev := { ({} : Dev).wr F.LG_TIME_LO_TIME 999999 with captured := [(F.LG_TIME_LO_TIME.key 0, 5)] } }

/-- The scheduled swap at that multiple brings the captured shadows of group 7 into force (R412), and LG_TIME with them. -/
theorem time_aonTick_timeCaptured : (aonTick timeCaptured.dev).time = 5 := by decide +kernel

theorem time_timeCaptured : timeCaptured.dev.time = 999999 := by decide +kernel

/-- Refutes O53: with no command waiting LG_TIME goes from 999,999 not to 1,000,000 but to the value captured for it. -/
theorem not_stepRunsTheFrontCommand : ¬ Obligations.StepRunsTheFrontCommand := by
  rintro ⟨-, -, hTick⟩
  obtain ⟨t, ht, htime, -⟩ := hTick timeCaptured rfl rfl rfl rfl
  rw [step_of_pending_nil rfl] at ht
  rw [← Host.Outcome.next.inj ht, State.withDev_dev, time_aonTick_timeCaptured, time_timeCaptured] at htime
  exact absurd htime (by decide)

/-! ### GLIDE_TIMER in a loopback (R280, R283) -/

/-- In a loopback depth a Glide point moves no trim: it only shows whether one differs from its target (R283). -/
theorem glideMove_of_loopback {c : Nat} {d : Dev} (h : d.on F.TST_LBCTL_DEPTH c = true) : glideMove c d = gliding c d := by
  simp [glideMove, h]

theorem rd_gliding_ne {f : Fld} {c : Nat} (d : Dev) (h : F.CAL_STAT_GLIDING.key c ≠ f.key c) :
    (gliding c d).rd f c = d.rd f c :=
  d.rd_wr_ne _ h

theorem exec_glideTimer_of_loopback {s : State} {c : Fin 32} (hlive : s.dev.live = true) (hrun : (s.dev.chn c).run = none)
    (hdepth : s.dev.on F.TST_LBCTL_DEPTH c = true) :
    exec (.glideTimer c) s = .next (s.withDev (gliding c s.dev)) := by
  simp [exec, execGlideTimer, State.upd_eq, whenLive_live _ hlive, hrun, glideMove_of_loopback hdepth]

/-- What the statement's clause of GLIDE_TIMER says of a trim below its target: it takes one step up. -/
theorem glideTimer_steps_up (h : Obligations.EveryCommandCompletes) {s : State} {c : Fin 32} {f g : Fld}
    (hlive : s.dev.live = true) (hrun : (s.dev.chn c).run = none) (hdiff : trimsDiffer s.dev c = true)
    (hawake : phyAwake s.dev c = true) (hactive : s.dev.on F.FS_STAT_ACTIVE = false) (hpfail : s.dev.fs.pfail = false)
    (hglide : s.dev.on F.CAL_CFG_GLIDE c = true) (hmem : (f, g, false) ∈ trims) (hlt : s.dev.rd f c < s.dev.rd g c) :
    ∃ t, exec (.glideTimer c) s = .next t ∧ t.dev.rd f c = (s.dev.rd f c + 1) % 2 ^ f.w := by
  obtain ⟨-, -, -, -, -, -, -, -, -, -, -, -, -, -, -, -, -, -, -, -, -, -,
    -, -, -, -, -, -, -, -, -, -, -, -, -, -, -, -, -, -, -, -, -, -,
    -, -, -, -, -, -, -, -, -, -, -, -, -, -, -, -, -, -, -, -, -, -, hClause, -⟩ := h
  obtain ⟨t, ht, hstep, -⟩ := hClause s c f g hlive hrun hdiff hawake hactive hpfail hglide hmem
  exact ⟨t, ht, by rw [hstep, if_pos hlt]⟩

/-- Channel 0 in loopback depth 1, with one trim at 0 and its target at 1: the PHY is awake and GLIDE is 1 as after reset. -/
def loopbackGlide : State :=
  { dev := (({} : Dev).wr F.TST_LBCTL_DEPTH 1).wr (F.CAL_TRDLY_D.ix 0) 1 }

/-- Refutes O54: its clause of GLIDE_TIMER has no hypothesis on TST_LBCTL.DEPTH, and a channel in a loopback depth keeps its
trims (R283). The trim of `loopbackGlide` stays at 0 where the clause has it step to 1. -/
theorem not_everyCommandCompletes : ¬ Obligations.EveryCommandCompletes := by
  intro h
  obtain ⟨t, ht, hstep⟩ := glideTimer_steps_up h (s := loopbackGlide) (c := 0) (f := F.CAL_RDLY_D.ix 0)
    (g := F.CAL_TRDLY_D.ix 0) (by decide) (by decide) (by decide) (by decide) (by decide) (by decide) (by decide) (by decide)
    (by decide)
  rw [exec_glideTimer_of_loopback (by decide) (by decide) (by decide)] at ht
  rw [← Host.Outcome.next.inj ht, State.withDev_dev, rd_gliding_ne _ (by decide)] at hstep
  exact absurd hstep (by decide)

end Sys2Proof.Machine
end

section
/-!
PROOFS. The architecture family: losses of a clock and the supply warning (R32, R33, R392, R393, R455).
-/

namespace Sys2Proof.Machine

/-! ### What a source event leaves in the register file (R315, R323) -/

/-- The keys a source event may write: those of INT_MERGE and of MOD_STATg, for whatever group number INT_SRC.GRP holds. Their
offsets are 4 modulo 8 and their fields stand at bits 0, 8 and 16. -/
def eventKey (k : Nat) : Bool := keyOff k % 8 == 4 && k % 2 ^ 15 == 0

theorem eventKey_modStat (g : Nat) :
    eventKey ((F.MOD_STAT_HOLDOFF.ix g).key 0) = true ∧ eventKey ((F.MOD_STAT_EVENTS.ix g).key 0) = true ∧
      eventKey ((F.MOD_STAT_REMAIN.ix g).key 0) = true := by
  simp only [eventKey, keyOff, Fld.key, Fld.ix, F.MOD_STAT_HOLDOFF, F.MOD_STAT_EVENTS, F.MOD_STAT_REMAIN,
    Bool.and_eq_true, beq_iff_eq]
  omega

/-- A write at a key of `eventKey` leaves every field outside it as it was. -/
theorem rd_wr_of_eventKey {f g : Fld} {i j : Nat} (d : Dev) (v : Nat) (hf : eventKey (f.key i) = true)
    (hg : eventKey (g.key j) = false) : (d.wr f v i).rd g j = d.rd g j :=
  d.rd_wr_ne v fun h => by simp [h, hg] at hf

theorem rd_modEvent {f : Fld} {i : Nat} (s : Nat) (d : Dev) (h : eventKey (f.key i) = false) :
    (modEvent s d).rd f i = d.rd f i := by
  unfold modEvent
  split
  · rfl
  · next g _ =>
    obtain ⟨hHold, hEvents, hRemain⟩ := eventKey_modStat g
    dsimp only [Dev.inc]
    split
    · split
      · rw [rd_wr_of_eventKey _ _ hRemain h, rd_wr_of_eventKey _ _ hHold h, rd_wr_of_eventKey _ _ hEvents h]
      · rw [rd_wr_of_eventKey _ _ hEvents h]
    · rfl

theorem rd_latchEdge {f : Fld} {i : Nat} (s : Nat) (d : Dev) (h : eventKey (f.key i) = false) :
    (latchEdge s d).rd f i = d.rd f i := by
  rw [latchEdge, rd_modEvent s _ h]
  split
  · exact rd_wr_of_eventKey (f := F.INT_MERGE_CNT) (i := 0) d _ (by decide) h
  · rfl

theorem rd_raise {f : Fld} {i : Nat} (s : Nat) (d : Dev) (h : eventKey (f.key i) = false) :
    (raise s d).rd f i = d.rd f i := by
  unfold raise
  split
  · rfl
  · split
    · exact rd_latchEdge s d h
    · rfl

@[simp] theorem raise_pins (s : Nat) (d : Dev) : (raise s d).pins = d.pins := (congrArg Dev.pins (raise_only s d) :)
@[simp] theorem raise_pm (s : Nat) (d : Dev) : (raise s d).pm = d.pm := (congrArg Dev.pm (raise_only s d) :)
@[simp] theorem raise_cells (s : Nat) (d : Dev) : (raise s d).cells = d.cells := (congrArg Dev.cells (raise_only s d) :)

@[simp] theorem modEvent_int (s : Nat) (d : Dev) : (modEvent s d).int = d.int := (congrArg Dev.int (modEvent_only s d) :)

theorem bit_setBit_self (m i : Nat) : bit (setBit m i) i = true := by simp [bit, setBit]

/-- While CCLK runs an edge source's event is pending afterwards, merged with one that waited or latched anew (R315). -/
theorem bit_pend_raise {s : Nat} {d : Dev} (hs : isEdge s = true) (hc : d.cclkOn = true) :
    bit (raise s d).int.pend s = true := by
  simp only [raise, hs, hc, latchEdge, Bool.not_true, Bool.false_eq_true, if_false, if_true, modEvent_int]
  split
  · next hp => exact hp
  · exact bit_setBit_self _ _

/-! ### What a safety-link event leaves (R330) -/

@[simp] theorem safeLink_regs (i : Nat) (d : Dev) :
    (safeLink i d).regs = (d.wr F.SPR_SAFEST_ST (setBit (d.rd F.SPR_SAFEST_ST) i)).regs := by
  obtain ⟨o, h⟩ := safeLink_only i d; rw [h]

@[simp] theorem safeLink_pm (i : Nat) (d : Dev) : (safeLink i d).pm = d.pm := by
  obtain ⟨o, h⟩ := safeLink_only i d; rw [h]; rfl

@[simp] theorem safeLink_cells (i : Nat) (d : Dev) : (safeLink i d).cells = d.cells := by
  obtain ⟨o, h⟩ := safeLink_only i d; rw [h]; rfl

/-- Of the pins a safety-link event moves SAFE_OUT alone. -/
theorem safeLink_pins (i : Nat) (d : Dev) : ∃ o, (safeLink i d).pins = { d.pins with safeOut := o } := by
  obtain ⟨o, h⟩ := safeLink_only i d; exact ⟨o, by rw [h]⟩

theorem rd_safeLink_ne {f : Fld} {j : Nat} (i : Nat) (d : Dev) (h : F.SPR_SAFEST_ST.key 0 ≠ f.key j) :
    (safeLink i d).rd f j = d.rd f j := by
  rw [Dev.rd_regs _ _ (safeLink_regs i d), d.rd_wr_ne _ h]

theorem bit_rd_safeLink {i : Nat} (d : Dev) (h : i < 16) : bit ((safeLink i d).rd F.SPR_SAFEST_ST) i = true := by
  rw [Dev.rd_regs _ _ (safeLink_regs i d), Dev.rd_wr, bit, Nat.testBit_mod_two_pow, ← bit, bit_setBit_self, Bool.and_true]
  exact decide_eq_true h

/-! ### A block that a cause takes into the fail-safe state at once (R455) -/

/-- Out of reset, CCLK running, and not in the fail-safe state yet: `enterFailSafe` takes such a block in. -/
structure Enterable (d : Dev) : Prop where
  outOfReset : d.inReset = false
  clocked : d.cclkOn = true
  inactive : d.on F.FS_STAT_ACTIVE = false

/-- Entry of an enterable block: the pads' part alone for cause 5, the whole otherwise. -/
theorem Enterable.enterFailSafe_eq {d : Dev} (h : Enterable d) (c u i : Nat) :
    enterFailSafe c u i d = if c = 5 then failSafeMark c u i d else failSafeBody (failSafeMark c u i d) := by
  simp [enterFailSafe, h.outOfReset, h.clocked, h.inactive]

/-- Being enterable rests on the reset pins, the power manager's state and FS_STAT.ACTIVE alone. -/
theorem Enterable.of_eq {d e : Dev} (h : Enterable d) (hr : e.inReset = d.inReset) (hpm : e.pm = d.pm)
    (hstate : e.rd F.PM_STAT_STATE = d.rd F.PM_STAT_STATE) (hactive : e.rd F.FS_STAT_ACTIVE = d.rd F.FS_STAT_ACTIVE) :
    Enterable e where
  outOfReset := hr.trans h.outOfReset
  clocked := by simpa only [Dev.cclkOn, hpm, hstate] using h.clocked
  inactive := by simpa only [Dev.on, hactive] using h.inactive

theorem Enterable.raise {d : Dev} (h : Enterable d) (s : Nat) : Enterable (raise s d) :=
  h.of_eq (by simp only [Dev.inReset, raise_pins]) (raise_pm s d) (rd_raise s d (by decide)) (rd_raise s d (by decide))

@[simp] theorem inReset_safeLink (i : Nat) (d : Dev) : (safeLink i d).inReset = d.inReset := by
  obtain ⟨o, h⟩ := safeLink_pins i d; simp only [Dev.inReset, h]

theorem cclkOn_safeLink (i : Nat) (d : Dev) : (safeLink i d).cclkOn = d.cclkOn := by
  simp only [Dev.cclkOn, safeLink_pm, rd_safeLink_ne i d (f := F.PM_STAT_STATE) (j := 0) (by decide)]

theorem Enterable.safeLink {d : Dev} (h : Enterable d) (i : Nat) : Enterable (safeLink i d) :=
  h.of_eq (inReset_safeLink i d) (safeLink_pm i d) (rd_safeLink_ne i d (by decide)) (rd_safeLink_ne i d (by decide))

theorem Enterable.wr {d : Dev} (h : Enterable d) {f : Fld} {i : Nat} (v : Nat) (hs : f.key i ≠ F.PM_STAT_STATE.key 0)
    (ha : f.key i ≠ F.FS_STAT_ACTIVE.key 0) : Enterable (d.wr f v i) :=
  h.of_eq rfl rfl (d.rd_wr_ne v hs) (d.rd_wr_ne v ha)

/-- Pins other than the two resets do not matter to it. -/
theorem Enterable.setPins {d : Dev} (h : Enterable d) {p : Pins} (hp : p.porstN = d.pins.porstN)
    (hs : p.srstN = d.pins.srstN) : Enterable { d with pins := p } :=
  h.of_eq (by simp only [Dev.inReset, hp, hs]) rfl rfl rfl

/-! ### CLOCK_LOSS (R32, R393) -/

theorem porstN_of_inReset {d : Dev} (h : d.inReset = false) : d.pins.porstN = true := by
  simp only [Dev.inReset, Bool.or_eq_false_iff, Bool.not_eq_false'] at h
  exact h.1

theorem hib_of_cclkOn {d : Dev} (h : d.cclkOn = true) : d.pm.hib = false := by
  simp only [Dev.cclkOn, Bool.and_eq_true, Bool.not_eq_true'] at h
  exact h.2

/-- What every loss does first: safety link 2 and source 0x0A4. -/
def lossMarked (d : Dev) : Dev := raise 0xA4 (safeLink 2 d)

@[simp] theorem lossMarked_pins (d : Dev) : (lossMarked d).pins = (safeLink 2 d).pins := raise_pins _ _

@[simp] theorem lossMarked_cells (d : Dev) : (lossMarked d).cells = d.cells :=
  (raise_cells _ _).trans (safeLink_cells _ _)

theorem Enterable.lossMarked {d : Dev} (h : Enterable d) : Enterable (lossMarked d) := (h.safeLink 2).raise 0xA4

theorem rd_lossMarked {f : Fld} {i : Nat} (d : Dev) (he : eventKey (f.key i) = false) (hs : F.SPR_SAFEST_ST.key 0 ≠ f.key i) :
    (lossMarked d).rd f i = d.rd f i :=
  (rd_raise _ _ he).trans (rd_safeLink_ne _ _ hs)

/-- Out of reset and with CCLK running the loss of CCLK, of a link or of CFGCLK acts on the block so marked. -/
theorem clockLoss_running {d : Dev} (hr : d.inReset = false) (hc : d.cclkOn = true) (k : Nat) :
    clockLoss k d =
      if k = 0 then
        enterFailSafe 5 0 0 (({ lossMarked d with pins := { (lossMarked d).pins with cclkLost := true } } : Dev).wr
          F.PM_CLKMON_CCLK 1)
      else if k ≤ 4 then
        enterFailSafe 6 0 0
          (({ lossMarked d with pins := { (lossMarked d).pins with linkLost := setBit (lossMarked d).pins.linkLost (k - 1) } } :
            Dev).wr F.PM_CLKMON_LINK (setBit ((lossMarked d).rd F.PM_CLKMON_LINK) (k - 1)))
      else ({ lossMarked d with pins := { (lossMarked d).pins with cfgLost := true } } : Dev).wr F.PM_CLKMON_CFG 1 := by
  simp only [clockLoss, porstN_of_inReset hr, hib_of_cclkOn hc, hc, Bool.not_true, Bool.and_false, Bool.false_and,
    Bool.or_false, Bool.false_eq_true, if_false]
  rfl

theorem clockLoss_cclk {d : Dev} (h : Enterable d) :
    clockLoss 0 d = failSafeMark 5 0 0
      (({ lossMarked d with pins := { (safeLink 2 d).pins with cclkLost := true } } : Dev).wr F.PM_CLKMON_CCLK 1) := by
  have hin := (h.lossMarked.setPins (p := { (lossMarked d).pins with cclkLost := true }) rfl rfl).wr
    (f := F.PM_CLKMON_CCLK) (i := 0) 1 (by decide) (by decide)
  rw [clockLoss_running h.outOfReset h.clocked, if_pos rfl, hin.enterFailSafe_eq, if_pos rfl, lossMarked_pins]

theorem clockLoss_link {d : Dev} (h : Enterable d) {k : Nat} (hk : k < 4) :
    clockLoss (k + 1) d = failSafeBody (failSafeMark 6 0 0
      (({ lossMarked d with pins := { (safeLink 2 d).pins with linkLost := setBit d.pins.linkLost k } } : Dev).wr
        F.PM_CLKMON_LINK (setBit (d.rd F.PM_CLKMON_LINK) k))) := by
  have hlost : (safeLink 2 d).pins.linkLost = d.pins.linkLost := by
    obtain ⟨o, ho⟩ := safeLink_pins 2 d; rw [ho]
  have hmon : (lossMarked d).rd F.PM_CLKMON_LINK = d.rd F.PM_CLKMON_LINK := rd_lossMarked d (by decide) (by decide)
  have hin := (h.lossMarked.setPins (p := { (safeLink 2 d).pins with linkLost := setBit d.pins.linkLost k })
    (by rw [lossMarked_pins]) (by rw [lossMarked_pins])).wr (f := F.PM_CLKMON_LINK) (i := 0)
    (setBit (d.rd F.PM_CLKMON_LINK) k) (by decide) (by decide)
  rw [clockLoss_running h.outOfReset h.clocked, if_neg (by omega), if_pos (by omega), lossMarked_pins, hlost, hmon,
    Nat.add_sub_cancel, hin.enterFailSafe_eq, if_neg (by decide)]

theorem clockLoss_cfgclk {d : Dev} (hr : d.inReset = false) (hc : d.cclkOn = true) :
    clockLoss 5 d = ({ lossMarked d with pins := { (lossMarked d).pins with cfgLost := true } } : Dev).wr F.PM_CLKMON_CFG 1 := by
  rw [clockLoss_running hr hc, if_neg (by decide), if_neg (by decide)]

/-- The loss of CFGCLK alone: its mark at the port and in PM_CLKMON, link 2 and source 0x0A4; nothing of the fail-safe state. -/
theorem clockLoss_cfgclk_effects {d : Dev} (hr : d.inReset = false) (hc : d.cclkOn = true) :
    (clockLoss 5 d).pins.cfgLost = true ∧ (clockLoss 5 d).rd F.PM_CLKMON_CFG = 1 ∧ (clockLoss 5 d).portReady = false ∧
      bit ((clockLoss 5 d).rd F.SPR_SAFEST_ST) 2 = true ∧ bit (clockLoss 5 d).int.pend 0xA4 = true ∧
      (clockLoss 5 d).rd F.FS_STAT_ACTIVE = d.rd F.FS_STAT_ACTIVE ∧ (clockLoss 5 d).cells = d.cells := by
  have hother : ∀ {f : Fld}, F.PM_CLKMON_CFG.key 0 ≠ f.key 0 → (clockLoss 5 d).rd f = (lossMarked d).rd f := by
    intro f hf
    rw [clockLoss_cfgclk hr hc]
    exact Dev.rd_wr_ne _ 1 hf
  refine ⟨?_, ?_, ?_, ?_, ?_, ?_, ?_⟩
  · rw [clockLoss_cfgclk hr hc]; rfl
  · rw [clockLoss_cfgclk hr hc]; exact Dev.rd_wr _ _ _ _
  · simp [Dev.portReady, clockLoss_cfgclk hr hc]
  · rw [hother (by decide), lossMarked, rd_raise _ _ (by decide)]
    exact bit_rd_safeLink d (by decide)
  · rw [clockLoss_cfgclk hr hc]
    exact bit_pend_raise (by decide) ((cclkOn_safeLink 2 d).trans hc)
  · rw [hother (by decide), rd_lossMarked d (by decide) (by decide)]
  · rw [clockLoss_cfgclk hr hc]
    exact lossMarked_cells d

theorem clockLoss_of_porst {d : Dev} (h : d.pins.porstN = false) (k : Nat) : clockLoss k d = d := by
  simp [clockLoss, h]

/-! ### AONCLK_WATCH and SUPPLY_WARNING (R33, R392) -/

theorem aonWatch_enters {d : Dev} (h : Enterable d) :
    aonWatch d = failSafeBody (failSafeMark 7 0 0
      ((raise 0xA4 (safeLink 3 { d with pins := { d.pins with aonLost := true } })).wr F.PM_CLKMON_AON 1)) := by
  have hin := ((((h.setPins (p := { d.pins with aonLost := true }) rfl rfl).safeLink 3).raise 0xA4).wr
    (f := F.PM_CLKMON_AON) (i := 0) 1 (by decide) (by decide))
  rw [aonWatch, porstN_of_inReset h.outOfReset, Bool.not_true, if_neg (by decide), hin.enterFailSafe_eq, if_neg (by decide)]

theorem aonWatch_of_porst {d : Dev} (h : d.pins.porstN = false) : aonWatch d = d := by simp [aonWatch, h]

theorem supplyWarning_enters {d : Dev} (h : Enterable d) :
    supplyWarning d = failSafeBody (failSafeMark 8 0 0
      (raise 0xA7 (safeLink 8 { d with pins := { d.pins with supWarnN := false } }))) := by
  have hin := ((h.setPins (p := { d.pins with supWarnN := false }) rfl rfl).safeLink 8).raise 0xA7
  rw [supplyWarning, porstN_of_inReset h.outOfReset, Bool.not_true, if_neg (by decide), hin.enterFailSafe_eq,
    if_neg (by decide)]

theorem supplyWarning_of_porst {d : Dev} (h : d.pins.porstN = false) : supplyWarning d = d := by simp [supplyWarning, h]

/-! ### The commands -/

theorem exec_clockLoss (k : Fin 6) (s : State) : exec (.clockLoss k) s = .next (s.withDev (clockLoss k s.dev)) := rfl

theorem exec_aonclkWatch (s : State) : exec .aonclkWatch s = .next (s.withDev (aonWatch s.dev)) := rfl

theorem exec_supplyWarning (s : State) : exec .supplyWarning s = .next (s.withDev (supplyWarning s.dev)) := rfl

/-- Settles O35: each loss is marked in links, sources and pins without touching what entry rests on (`Enterable`), so entry
follows whole, or in the pads' part alone for CCLK. -/
theorem clocksAndSupply : Obligations.ClocksAndSupply := by
  refine ⟨?cclk, ?link, ?cfgclk, ?aonclk, ?supply, ?reset, ?cfgReturns⟩
  case cclk =>
    intro s hr hc ha
    rw [exec_clockLoss]
    exact congrArg (fun d => Host.Outcome.next (s.withDev d)) (clockLoss_cclk ⟨hr, hc, ha⟩)
  case link =>
    intro s k hr hc ha
    rw [exec_clockLoss]
    exact congrArg (fun d => Host.Outcome.next (s.withDev d)) (clockLoss_link ⟨hr, hc, ha⟩ k.isLt)
  case cfgclk =>
    intro s hr hc
    exact ⟨_, exec_clockLoss 5 s, clockLoss_cfgclk_effects hr hc⟩
  case aonclk =>
    intro s hr hc ha
    rw [exec_aonclkWatch, aonWatch_enters ⟨hr, hc, ha⟩]
  case supply =>
    intro s hr hc ha
    rw [exec_supplyWarning, supplyWarning_enters ⟨hr, hc, ha⟩]
  case reset =>
    intro s k h
    rw [exec_clockLoss, exec_aonclkWatch, exec_supplyWarning, clockLoss_of_porst h, aonWatch_of_porst h,
      supplyWarning_of_porst h]
    exact ⟨rfl, rfl, rfl⟩
  case cfgReturns =>
    intro s
    rfl

end Sys2Proof.Machine
end

section
/-!
PROOFS. The tickets-and-queues family: submission rings (R44, R45), the fetch (R46), admission (R49), the cell cache (R56),
completion rings (R63), telemetry queues (R71), power fail (R72) and the start of a ticket (R60, R87). The statement about
the submission-ring registers holds. Each of the others has one clause with a counterexample: a condition the clause leaves
out, or a number its state holds that no field can hold.
-/

namespace Sys2Proof.Machine

/-! ### Writes of the queue registers (R44, R45, R479, R488) -/

theorem fieldsAt_sqDb : ∀ k : Fin 64, fieldsAt (0xE40C + 0x10 * k.val) = some [F.SQ_DB_TAIL.ix k, F.SQ_DB_HEAD.ix k] := by
  decide +kernel

theorem fieldsAt_sqCfg : ∀ k : Fin 64, fieldsAt (0xE408 + 0x10 * k.val) =
    some [F.SQ_CFG_EN.ix k, F.SQ_CFG_CRC.ix k, F.SQ_CFG_SIZE.ix k, F.SQ_CFG_WEIGHT.ix k, F.SQ_CFG_ERRCQ.ix k] := by
  decide +kernel

/-- No select multiplies a register of the queue windows (R487). -/
theorem selOf_queues {o : Nat} (h : 0xE400 ≤ o) (h' : o < 0xF000) : selOf o = .one := by
  rw [selOf, if_neg (by omega), if_neg (by omega), if_neg (by omega), if_neg (by omega), if_neg (by omega), if_neg (by omega),
    if_neg (by omega)]

theorem named_queues {o : Nat} (h : 0xE400 ≤ o) (h' : o < 0xF000) (d : Dev) (a : Acc) : d.named o a = 0 := by
  rw [Dev.named, selOf_queues h h', selIndex]

/-- No unit's state refuses a write of a queue register. -/
theorem unitErr_queues {w : Wr} (h : 0xE400 ≤ w.off) (d : Dev) : unitErr w d = false := by
  have h10 : w.off ≠ 0x10 := by omega
  have h24 : w.off ≠ 0x24 := by omega
  have h3004 : w.off ≠ 0x3004 := by omega
  have hD180 : w.off ≠ 0xD180 := by omega
  have hB000 : w.off ≠ 0xB000 := by omega
  have hC200 : w.off ≠ 0xC200 := by omega
  have hC204 : w.off ≠ 0xC204 := by omega
  simp [unitErr, *]

/-- A submission ring owns its registers while it is enabled (R19). -/
theorem ownerBusy_sq (f : Fld) {w : Wr} (h : 0xE400 ≤ w.off) (h' : w.off < 0xE800) (d : Dev) :
    ownerBusy f w d = d.on (F.SQ_CFG_EN.ix (w.elem 0xE400 0x10)) := by
  simp only [ownerBusy]
  rw [if_neg (by omega), if_pos ⟨h, h'⟩]

/-- A write brings a field a value outside the limits of the field tables. -/
def Wr.outside (w : Wr) (f : Fld) : Bool := decide (w.get f < f.vmin) || f.vmax.any fun m => decide (m < w.get f)

theorem Wr.outside_of_unlimited {w : Wr} {f : Fld} (hmin : f.vmin = 0) (hmax : f.vmax = none) : w.outside f = false := by
  simp [Wr.outside, hmin, hmax]

/-- In the queue windows a value is out of range by the tables' limits, as a TAIL outside an enabled submission ring (R45), or
as a HEAD outside a completion ring's records (R63). -/
theorem rangeErr_queues {w : Wr} (fs : List Fld) (d : Dev) (h : 0xE400 ≤ w.off) (h' : w.off < 0xF000) :
    rangeErr w fs d = (fs.any w.outside ||
      (w.off < 0xE800 && w.off % 0x10 == 0xC && d.on (F.SQ_CFG_EN.ix (w.elem 0xE400 0x10)) &&
        2 ^ d.rd (F.SQ_CFG_SIZE.ix (w.elem 0xE400 0x10)) ≤ w.get F.SQ_DB_TAIL) ||
      (0xE800 ≤ w.off && w.off < 0xEC00 && w.off % 0x10 == 0xC && !cqHeadOk d (w.elem 0xE800 0x10) (w.get F.CQ_DB_HEAD))) := by
  have h913C : ¬ w.off ≤ 0x913C := by omega
  have h1000 : w.off ≠ 0x1000 := by omega
  have hF018 : w.off ≠ 0xF018 := by omega
  have hE210 : w.off ≠ 0xE210 := by omega
  have h10 : w.off ≠ 0x10 := by omega
  simp only [rangeErr, h, h913C, h1000, hF018, hE210, h10, decide_true, decide_false, beq_eq_false_iff_ne.mpr, ne_eq,
    not_false_eq_true, Bool.and_false, Bool.false_and, Bool.or_false, Bool.true_and]
  congr 3
  funext f
  unfold Wr.outside
  cases f.vmax <;> rfl

theorem dropCause_eq_zero {w : Wr} {fs : List Fld} {d : Dev} (hr : rangeErr w fs d = false) (hi : idleErr w fs d = false)
    (hu : unitErr w d = false) : dropCause w fs d = 0 := by
  simp [dropCause, hr, hi, hu]

theorem idleErr_of_unowned {w : Wr} {fs : List Fld} {d : Dev} (h : ∀ f ∈ fs, f.ty = .rwi → ownerBusy f w d = false) :
    idleErr w fs d = false := by
  simp only [idleErr, List.any_eq_false, Bool.and_eq_true, beq_iff_eq, not_and, Bool.not_eq_true]
  exact fun f hf hty => (h f hf hty.1)

/-- What an accepted write of a queue register does beyond its fields is admission's. -/
theorem regAction_queues {w : Wr} (fu : Fuses) (old d : Dev) (h : 0xE400 ≤ w.off) (h' : w.off < 0xF000) :
    regAction w fu old d = admAction w old d := by
  simp only [regAction]
  rw [if_neg (by omega), if_neg (by omega), if_neg (by omega), if_neg (by omega), if_neg (by omega), if_neg (by omega),
    if_neg (by omega), if_neg (by omega)]

/-- The error record of a dropped write of a register that no window select multiplies (R488). -/
theorem writeErr_eq_writeError (x : Access) (cause : Nat) (d : Dev) :
    writeErr x 0 cause false d = d.writeError x.off x.acc 0 cause := by
  have hcnt (n : Nat) : (d.wr F.REG_WERR_WIN n).inc F.REG_WCNT_CNT =
      (d.wr F.REG_WERR_WIN n).wr F.REG_WCNT_CNT (satAdd 16 (d.rd F.REG_WCNT_CNT) 1) := by
    rw [Dev.inc, d.rd_wr_ne (f := F.REG_WERR_WIN) (i := 0) n (by decide)]; rfl
  simp only [writeErr, hcnt]
  rfl

theorem isRgCfg_queues {o : Nat} (h : 0xE400 ≤ o) : isRgCfg o = false := by
  simp only [isRgCfg, Bool.or_eq_false_iff, beq_eq_false_iff_ne]; omega

/-- The elements of an array of registers lie at the same bits. -/
theorem Wr.get_ix {w : Wr} {f : Fld} (k : Nat) (h : f.bstep = 0) : w.get (f.ix k) = w.get f := by
  simp [Wr.get, Fld.ix, h]

/-- A read-write field takes its bits at once; only the ring's configuration waits (R17, R451). -/
theorem takeField_plain {w : Wr} {f : Fld} (d : Dev) (hty : f.ty = .rw ∨ f.ty = .rwi) (hrg : isRgCfg f.off = false) :
    takeField w f d = d.wr f (w.get f) w.inst := by
  rcases hty with hty | hty <;> simp [takeField, hty, hrg]

/-- A field that firmware does not write, or that only acts, keeps its value (R17). -/
theorem takeField_inert {w : Wr} {f : Fld} (d : Dev) (hty : f.ty = .ro ∨ f.ty = .wo ∨ f.ty = .w1s) : takeField w f d = d := by
  rcases hty with hty | hty | hty <;> simp [takeField, hty]

section QueueWrite

variable {d : Dev} {o : Nat} {a : Acc} (h : d.takes o a = true) (hlo : 0xE400 ≤ o) (hhi : o < 0xF000) (v : Nat) (e : PortEnv)
  (fu : Fuses) {fs : List Fld} (hf : fieldsAt o = some fs) (hro : fs.all (fun f => f.ty == .ro) = false)

include h hlo hhi hf hro

theorem regWrite_queue_takes (hi : ignored { off := o, v := v, acc := a, env := e } d = none)
    (hd : dropCause { off := o, v := v, acc := a, env := e } fs d = 0) (hr : fs.any (fun f => f.ty == .rwc) = false) :
    regWrite o v a e fu d =
      (admAction { off := o, v := v, acc := a, env := e } d
        (Dev.each fs (takeField { off := o, v := v, acc := a, env := e }) d)).acked 0 := by
  have hn := named_queues hlo hhi d a
  rw [regWrite_takes h v e fu hf hro (by omega) (sprRefuses_outside _ _ (.inr (by dsimp only; omega))) (by rw [hn]; exact hi)
    (by rw [hn]; exact hd) (by omega) (by omega) hr, hn, regAction_queues _ _ _ hlo hhi]

theorem regWrite_queue_dropped (hi : ignored { off := o, v := v, acc := a, env := e } d = none)
    (hd : dropCause { off := o, v := v, acc := a, env := e } fs d ≠ 0) :
    regWrite o v a e fu d = (d.writeError o a 0 (dropCause { off := o, v := v, acc := a, env := e } fs d)).acked 0 := by
  have hn := named_queues hlo hhi d a
  rw [regWrite_dropped h v e fu hf hro (by omega) (sprRefuses_outside _ _ (.inr (by dsimp only; omega))) (by rw [hn]; exact hi)
    (by rw [hn]; exact hd), hn, selOf_queues hlo hhi, errIndex, writeErr_eq_writeError]

theorem regWrite_queue_ignored {d' : Dev} (hi : ignored { off := o, v := v, acc := a, env := e } d = some d') :
    regWrite o v a e fu d = d'.acked 0 := by
  simp only [Dev.takes, Bool.and_eq_true, Bool.not_eq_true'] at h
  obtain ⟨⟨hready, hmask⟩, hbcast⟩ := h
  have hn := named_queues hlo hhi d a
  rw [Dev.named] at hn
  rw [regWrite_ready hready _ _ _ _ _ (by omega), servedWrite_one _ _ _ hf hro hmask (by dsimp only; omega)
    (sprRefuses_outside _ _ (.inr (by dsimp only; omega))) hbcast (by dsimp only; omega) (by dsimp only; omega), hn]
  simp only [writeInst, hi, if_true]

end QueueWrite

/-! ### The doorbell (R45) -/

section Doorbell

variable (k : Fin 64) (v : Nat) (a : Acc) (d : Dev)

/-- The write of SQk_DB. -/
def sqDbWr : Wr := { off := 0xE40C + 0x10 * k.val, v := v, acc := a }

theorem elem_sqDbWr : (sqDbWr k v a).elem 0xE400 0x10 = k := by simp only [sqDbWr, Wr.elem]; omega

theorem ignored_sqDbWr : ignored (sqDbWr k v a) d = if d.on (F.SQ_CFG_EN.ix k) then none else some d := by
  have hk := k.isLt
  have hoff : (sqDbWr k v a).off = 0xE40C + 0x10 * k.val := rfl
  rw [ignored, if_neg (by omega), elem_sqDbWr]
  cases hen : d.on (F.SQ_CFG_EN.ix k)
  · rw [if_pos ⟨by omega, by omega, by omega, rfl⟩]; rfl
  · rw [if_neg (by simp), if_neg (by omega), if_neg (by omega)]; rfl

theorem dropCause_sqDbWr (hen : d.on (F.SQ_CFG_EN.ix k) = true) :
    dropCause (sqDbWr k v a) [F.SQ_DB_TAIL.ix k, F.SQ_DB_HEAD.ix k] d =
      if 2 ^ d.rd (F.SQ_CFG_SIZE.ix k) ≤ v % 2 ^ 16 then 2 else 0 := by
  have hk := k.isLt
  have hoff : (sqDbWr k v a).off = 0xE40C + 0x10 * k.val := rfl
  have hget : (sqDbWr k v a).get F.SQ_DB_TAIL = v % 2 ^ 16 := rfl
  have hout : [F.SQ_DB_TAIL.ix k, F.SQ_DB_HEAD.ix k].any (sqDbWr k v a).outside = false := by
    simp only [List.any_cons, List.any_nil, Wr.outside_of_unlimited (f := F.SQ_DB_TAIL.ix k) rfl rfl,
      Wr.outside_of_unlimited (f := F.SQ_DB_HEAD.ix k) rfl rfl, Bool.or_false]
  have hrange : rangeErr (sqDbWr k v a) [F.SQ_DB_TAIL.ix k, F.SQ_DB_HEAD.ix k] d =
      decide (2 ^ d.rd (F.SQ_CFG_SIZE.ix k) ≤ v % 2 ^ 16) := by
    rw [rangeErr_queues _ _ (by omega) (by omega), hout, elem_sqDbWr, hget, hen, hoff]
    have hlt : 0xE40C + 0x10 * k.val < 0xE800 := by omega
    have hlo : (0xE40C + 0x10 * k.val) % 0x10 = 0xC := by omega
    have hcq : ¬ 0xE800 ≤ 0xE40C + 0x10 * k.val := by omega
    simp [hlt, hlo, hcq]
  have hidle : idleErr (sqDbWr k v a) [F.SQ_DB_TAIL.ix k, F.SQ_DB_HEAD.ix k] d = false := rfl
  rw [dropCause, hrange, hidle, unitErr_queues (by omega)]
  simp

/-- A doorbell takes TAIL; HEAD is read-only. -/
theorem each_takeField_sqDbWr :
    Dev.each [F.SQ_DB_TAIL.ix k, F.SQ_DB_HEAD.ix k] (takeField (sqDbWr k v a)) d = d.wr (F.SQ_DB_TAIL.ix k) (v % 2 ^ 16) := by
  rw [Dev.each_cons, Dev.each_cons, Dev.each_nil, takeField_inert _ (.inl rfl),
    takeField_plain _ (.inl rfl) (isRgCfg_queues (Nat.le_trans (by decide) (Nat.le_add_right 0xE40C _))), Wr.get_ix _ rfl]
  rfl

theorem wr_mod (f : Fld) (v i : Nat) : d.wr f (v % 2 ^ f.w) i = d.wr f v i := by simp only [Dev.wr, Nat.mod_mod]

theorem admAction_sqDbWr (old : Dev) : admAction (sqDbWr k v a) old d = d := by
  have hk := k.isLt
  have hoff : (sqDbWr k v a).off = 0xE40C + 0x10 * k.val := rfl
  simp only [admAction]
  rw [if_neg (by omega), if_neg (by omega), if_neg (by omega), if_neg (by omega), if_neg (by omega), if_neg (by omega),
    if_pos (by omega), if_neg (by omega)]

variable {a d} (h : d.takes (0xE40C + 0x10 * k.val) a = true) (fu : Fuses)
include h

theorem regWrite_doorbell (hen : d.on (F.SQ_CFG_EN.ix k) = true) (hin : v % 2 ^ 16 < 2 ^ d.rd (F.SQ_CFG_SIZE.ix k)) :
    regWrite (0xE40C + 0x10 * k.val) v a {} fu d = (d.wr (F.SQ_DB_TAIL.ix k) v).acked 0 := by
  have hk := k.isLt
  have hi := (ignored_sqDbWr k v a d).trans (if_pos hen)
  have hd := (dropCause_sqDbWr k v a d hen).trans (if_neg (by omega))
  rw [regWrite_queue_takes h (by omega) (by omega) v {} fu (fieldsAt_sqDb k) rfl hi hd rfl]
  change (admAction (sqDbWr k v a) d (Dev.each _ (takeField (sqDbWr k v a)) d)).acked 0 = _
  rw [each_takeField_sqDbWr, admAction_sqDbWr]
  exact congrArg (Dev.acked · 0) (wr_mod d (F.SQ_DB_TAIL.ix k) v 0)

theorem regWrite_doorbell_outside (hen : d.on (F.SQ_CFG_EN.ix k) = true) (hout : 2 ^ d.rd (F.SQ_CFG_SIZE.ix k) ≤ v % 2 ^ 16) :
    regWrite (0xE40C + 0x10 * k.val) v a {} fu d = (d.writeError (0xE40C + 0x10 * k.val) a 0 2).acked 0 := by
  have hk := k.isLt
  have hi := (ignored_sqDbWr k v a d).trans (if_pos hen)
  have hd := (dropCause_sqDbWr k v a d hen).trans (if_pos hout)
  rw [sqDbWr] at hd
  rw [regWrite_queue_dropped h (by omega) (by omega) v {} fu (fieldsAt_sqDb k) rfl hi (by rw [hd]; decide), hd]

theorem regWrite_doorbell_disabled (hen : d.on (F.SQ_CFG_EN.ix k) = false) :
    regWrite (0xE40C + 0x10 * k.val) v a {} fu d = d.acked 0 := by
  have hk := k.isLt
  have hi := (ignored_sqDbWr k v a d).trans (if_neg (by rw [hen]; decide))
  exact regWrite_queue_ignored h (by omega) (by omega) v {} fu (fieldsAt_sqDb k) rfl hi

end Doorbell

/-! ### Enabling a submission ring (R44) -/

section Enable

variable (k : Fin 64) (v : Nat) (a : Acc) (d : Dev)

/-- The write of SQk_CFG. -/
def sqCfgWr : Wr := { off := 0xE408 + 0x10 * k.val, v := v, acc := a }

/-- The fields of SQk_CFG. -/
def sqCfgFields : List Fld :=
  [F.SQ_CFG_EN.ix k, F.SQ_CFG_CRC.ix k, F.SQ_CFG_SIZE.ix k, F.SQ_CFG_WEIGHT.ix k, F.SQ_CFG_ERRCQ.ix k]

theorem elem_sqCfgWr : (sqCfgWr k v a).elem 0xE400 0x10 = k := by simp only [sqCfgWr, Wr.elem]; omega

theorem ignored_sqCfgWr : ignored (sqCfgWr k v a) d = none := by
  have hk := k.isLt
  have hoff : (sqCfgWr k v a).off = 0xE408 + 0x10 * k.val := rfl
  rw [ignored, if_neg (by omega), if_neg (by omega), if_neg (by omega), if_neg (by omega)]

theorem dropCause_sqCfgWr (hen : d.on (F.SQ_CFG_EN.ix k) = false) (hmin : 4 ≤ fld v 2 5) (hmax : fld v 2 5 ≤ 16) :
    dropCause (sqCfgWr k v a) (sqCfgFields k) d = 0 := by
  have hk := k.isLt
  have hoff : (sqCfgWr k v a).off = 0xE408 + 0x10 * k.val := rfl
  have hsize : (sqCfgWr k v a).outside (F.SQ_CFG_SIZE.ix k) = false := by
    have hget : (sqCfgWr k v a).get (F.SQ_CFG_SIZE.ix k) = fld v 2 5 := Wr.get_ix _ rfl
    have hlimits : (F.SQ_CFG_SIZE.ix k).vmin = 4 ∧ (F.SQ_CFG_SIZE.ix k).vmax = some 16 := ⟨rfl, rfl⟩
    simp [Wr.outside, hget, hlimits, hmin, hmax]
  have hout : (sqCfgFields k).any (sqCfgWr k v a).outside = false := by
    simp only [sqCfgFields, List.any_cons, List.any_nil, hsize, Wr.outside_of_unlimited (f := F.SQ_CFG_EN.ix k) rfl rfl,
      Wr.outside_of_unlimited (f := F.SQ_CFG_CRC.ix k) rfl rfl, Wr.outside_of_unlimited (f := F.SQ_CFG_WEIGHT.ix k) rfl rfl,
      Wr.outside_of_unlimited (f := F.SQ_CFG_ERRCQ.ix k) rfl rfl, Bool.or_false]
  have hrange : rangeErr (sqCfgWr k v a) (sqCfgFields k) d = false := by
    have hlo : (0xE408 + 0x10 * k.val) % 0x10 = 8 := by omega
    rw [rangeErr_queues _ _ (by omega) (by omega), hout, hoff, hlo]
    simp
  refine dropCause_eq_zero hrange (idleErr_of_unowned fun f _ _ => ?_) (unitErr_queues (by omega) d)
  rw [ownerBusy_sq f (by omega) (by omega), elem_sqCfgWr, hen]

/-- SQk_CFG takes its five fields. -/
theorem each_takeField_sqCfgWr :
    Dev.each (sqCfgFields k) (takeField (sqCfgWr k v a)) d =
      ((((d.wr (F.SQ_CFG_EN.ix k) (fld v 0 1)).wr (F.SQ_CFG_CRC.ix k) (fld v 1 1)).wr (F.SQ_CFG_SIZE.ix k) (fld v 2 5)).wr
        (F.SQ_CFG_WEIGHT.ix k) (fld v 8 4)).wr (F.SQ_CFG_ERRCQ.ix k) (fld v 16 6) := by
  have hrg : isRgCfg (0xE408 + 0x10 * (k / 1)) = false := isRgCfg_queues (Nat.le_trans (by decide) (Nat.le_add_right 0xE408 _))
  simp only [sqCfgFields, Dev.each_cons, Dev.each_nil]
  rw [takeField_plain _ (.inr rfl) hrg, takeField_plain _ (.inr rfl) hrg, takeField_plain _ (.inr rfl) hrg,
    takeField_plain _ (.inr rfl) hrg, takeField_plain _ (.inl rfl) hrg, Wr.get_ix _ rfl, Wr.get_ix _ rfl, Wr.get_ix _ rfl,
    Wr.get_ix _ rfl, Wr.get_ix _ rfl]
  rfl

theorem admAction_sqCfgWr {old : Dev} (hen : old.on (F.SQ_CFG_EN.ix k) = false) (hv : fld v 0 1 = 1) :
    admAction (sqCfgWr k v a) old d = sqEnable k d := by
  have hk := k.isLt
  have hoff : (sqCfgWr k v a).off = 0xE408 + 0x10 * k.val := rfl
  have hbit : (sqCfgWr k v a).bit F.SQ_CFG_EN = true := by
    have hget : (sqCfgWr k v a).get F.SQ_CFG_EN = 1 := hv
    rw [Wr.bit, hget]; rfl
  simp only [admAction, elem_sqCfgWr]
  rw [if_neg (by omega), if_neg (by omega), if_neg (by omega), if_neg (by omega), if_neg (by omega), if_neg (by omega),
    if_pos (by omega), if_pos ⟨by omega, hbit, by rw [hen]; rfl⟩]

variable {a d} (h : d.takes (0xE408 + 0x10 * k.val) a = true) (fu : Fuses)
include h

theorem regWrite_sqEnable (hen : d.on (F.SQ_CFG_EN.ix k) = false) (hv : fld v 0 1 = 1) (hmin : 4 ≤ fld v 2 5)
    (hmax : fld v 2 5 ≤ 16) :
    regWrite (0xE408 + 0x10 * k.val) v a {} fu d =
      (sqEnable k (((((d.wr (F.SQ_CFG_EN.ix k) 1).wr (F.SQ_CFG_CRC.ix k) (fld v 1 1)).wr (F.SQ_CFG_SIZE.ix k) (fld v 2 5)).wr
        (F.SQ_CFG_WEIGHT.ix k) (fld v 8 4)).wr (F.SQ_CFG_ERRCQ.ix k) (fld v 16 6))).acked 0 := by
  have hk := k.isLt
  rw [regWrite_queue_takes h (by omega) (by omega) v {} fu (fieldsAt_sqCfg k) rfl (ignored_sqCfgWr k v a d)
    (dropCause_sqCfgWr k v a d hen hmin hmax) rfl]
  change (admAction (sqCfgWr k v a) d (Dev.each (sqCfgFields k) (takeField (sqCfgWr k v a)) d)).acked 0 = _
  rw [each_takeField_sqCfgWr, admAction_sqCfgWr k v a _ hen hv, hv]

end Enable

/-! ### The two commands -/

theorem exec_sqDoorbell (k : Fin 64) (v : Word) (a : Acc) (s : State) :
    exec (.sqDoorbell k v a) s = .next (s.withDev (regWrite (0xE40C + 0x10 * k.val) v.toNat a {} s.fuse s.dev)) := rfl

theorem exec_sqEnable (k : Fin 64) (v : Word) (a : Acc) (s : State) :
    exec (.sqEnable k v a) s = .next (s.withDev (regWrite (0xE408 + 0x10 * k.val) v.toNat a {} s.fuse s.dev)) := rfl

/-- Settles O1: the port takes the write (`regWrite_queue_takes` and its two companions), the doorbell's drop cause and the
configuration's fields are those of the ring the offset names, and admission's action is the enable or nothing. -/
theorem submissionRingRegisters : Obligations.SubmissionRingRegisters := by
  refine ⟨?inside, ?outside, ?disabled, ?enable⟩
  case inside =>
    intro s k v a h hen hin
    rw [exec_sqDoorbell, regWrite_doorbell k _ h _ hen hin]
  case outside =>
    intro s k v a h hen hout
    rw [exec_sqDoorbell, regWrite_doorbell_outside k _ h _ hen hout]
  case disabled =>
    intro s k v a h hen
    rw [exec_sqDoorbell, regWrite_doorbell_disabled k _ h _ hen]
  case enable =>
    intro s k v a h hen hv hmin hmax
    rw [exec_sqEnable, regWrite_sqEnable k _ h _ hen hv hmin hmax]
    rfl

/-! ### The fetch while a memory region is not ready (R46, R372) -/

theorem ticketFetch_of_not_admReady {d : Dev} (h : admReady d = false) : ticketFetch d = d := by simp [ticketFetch, h]

theorem exec_ticketFetch_of_not_admReady {s : State} (h : admReady s.dev = false) : exec .ticketFetch s = .next s := by
  simp [exec, execTicketFetch, State.upd_eq, whenLive, ticketFetch_of_not_admReady h]

/-- Admission is enabled and ring 0 holds one ticket, but no memory region is ready (MP_STAT.READY 0). -/
def fetchUnready : State :=
  { dev := ((({} : Dev).wr F.ADM_CTL_EN 1).wr (F.SQ_CFG_EN.ix 0) 1).wr (F.SQ_DB_TAIL.ix 0) 1 }

/-- Refutes O2: the clause of a new visit does not ask that admission's memory regions are ready. In `fetchUnready` the fetch
waits for them (R372): it posts nothing, where the clause has ring 0 visited. -/
theorem not_ticketFetchAndDirectPath : ¬ Obligations.TicketFetchAndDirectPath := by
  rintro ⟨hVisit, -⟩
  have h := hVisit fetchUnready 0 1 1 (by decide) (by decide) (by decide) (by decide) (by decide) (by decide) (by decide)
    (by decide) (by decide) (by decide)
  rw [exec_ticketFetch_of_not_admReady (by decide)] at h
  have hRing := congrArg (fun t : State => t.dev.adm.lastRing) (Host.Outcome.next.inj h)
  exact absurd hRing (by decide)

/-! ### Admission with a DIE_MAP entry that names no die (R49, R53, R54) -/

/-- A STATUS ticket for die 0. -/
def statusTicket : List Byte := 5 :: List.replicate 63 0

def statusHand : Hand := { sq := 0, slot := 0, bytes := statusTicket }

/-- A number, far above what DIE_MAP.TGT holds, at which the register file keeps THL_FREE.FREE as a die queue's COUNT. -/
def strayDie : Nat := F.THL_FREE_FREE.key 0 - F.DQ_STAT_COUNT.key 0

theorem strayDie_key : F.DQ_STAT_COUNT.key strayDie = F.THL_FREE_FREE.key 0 := by decide

/-- Admission is ready with a STATUS ticket in hand, whose die the map sends to `strayDie`. -/
def strayMap : State :=
  { dev :=
      { regs :=
          [(F.DIE_STAT_STATE.key strayDie, 1), (F.DIE_GEOM0_PPB.key strayDie, 1), (F.DIE_GEOM1_PGLEN.key strayDie, 18432),
            (F.DIE_MAP_TGT.key 0, strayDie), (F.DIE_MAP_V.key 0, 1), (F.TN_CFG_EN.key 0, 1), (F.MP_STAT_READY.key 0, 0xFFF),
            (F.CQ_CFG_EN.key 0, 1)]
        adm := { hand := [statusHand] } } }

theorem exec_ticketAdmit_of_live {s : State} (m : Mem) (u : MemUse) (h : s.dev.live = true) :
    exec (.ticketAdmit m u) s = .next (s.withDev (ticketAdmit m u.m u.ws (latchAll (beforeAdmit s.dev)))) := by
  simp only [exec, execTicketAdmit, State.upd_eq, whenLive_live _ h]

theorem admitCheck_strayMap : admitCheck (latchAll (beforeAdmit strayMap.dev)) statusHand = none := by decide +kernel

theorem free_beforeAdmit_strayMap : (latchAll (beforeAdmit strayMap.dev)).rd F.THL_FREE_FREE = 1048576 := by decide +kernel

/-- The count of the queue, 1, lands in THL_FREE.FREE. -/
theorem free_ticketAdmit_strayMap :
    (ticketAdmit .clean .clean [] (latchAll (beforeAdmit strayMap.dev))).rd F.THL_FREE_FREE = 1 := by decide +kernel

/-- Refutes O3: the clause of a ticket that passes does not ask that DIE_MAP.TGT holds a die. In `strayMap` the COUNT of the
ticket's queue has the key of THL_FREE.FREE (`strayDie_key`), which then reads 1 and not one less than before. -/
theorem not_ticketAdmission : ¬ Obligations.TicketAdmission := by
  rintro ⟨-, hAdmit⟩
  obtain ⟨t, ht, -, -, -, -, hFree, -⟩ := hAdmit strayMap _ statusHand [] 0 1048576 false [] (by decide) rfl (by decide +kernel)
    rfl rfl rfl (by decide) rfl rfl admitCheck_strayMap (by decide +kernel) rfl (by decide) (by decide)
  rw [exec_ticketAdmit_of_live _ _ (by decide)] at ht
  rw [← Host.Outcome.next.inj ht, State.withDev_dev, free_beforeAdmit_strayMap] at hFree
  exact absurd (free_ticketAdmit_strayMap.symm.trans hFree) (by decide)

/-! ### Two fetches of one cell (R56, R365) -/

/-- A good queued cell. -/
def queuedFetch : Answer :=
  { what := .cellFetch 0 false, code := 0, bytes := cellBytes { tkt := List.replicate 56 0 } 0xFFFFF 1
    req := { what := .cellFetch 0 false, addr := 0, len := 64 } }

/-- The same cell fetched as a free one, by data found uncorrectable. -/
def freeFetch : Answer :=
  { what := .cellFetch 0 true, code := 0, req := { what := .cellFetch 0 true, addr := 0, len := 64 }, ue := true }

def fetchedCell : Cell := { cached := false, fetching := true }

def twoFetches : State := { dev := { cells := [(0, fetchedCell)], answers := [queuedFetch, freeFetch] } }

theorem exec_cellFetchReturn_of_live {s : State} (k : Fin 1048576) (h : s.dev.live = true) :
    exec (.cellFetchReturn k) s = .next (s.withDev (withdrawBroken k (cellReturned k s.dev))) := by
  simp only [exec, execCellFetchReturn, State.upd_eq, whenLive_live _ h]

theorem cellCheck_queuedFetch : cellCheck queuedFetch.bytes 1 = true := by decide +kernel

theorem active_cellReturned_twoFetches :
    (withdrawBroken (0 : Fin 1048576) (cellReturned (0 : Fin 1048576) twoFetches.dev)).rd F.FS_STAT_ACTIVE = 1 := by
  decide +kernel

/-- Refutes O4: the clause of a cell that arrives asks of its own answer alone that its data are correctable. In `twoFetches`
another answer for the same cell waits with uncorrectable data, and the return enters the fail-safe state (R365), where the
clause leaves FS_STAT as it was. -/
theorem not_cellTrafficAndSweep : ¬ Obligations.CellTrafficAndSweep := by
  rintro ⟨-, -, hFetched, -⟩
  have h := hFetched twoFetches 0 fetchedCell queuedFetch [freeFetch] (by decide) rfl rfl rfl rfl rfl rfl rfl cellCheck_queuedFetch
  rw [exec_cellFetchReturn_of_live 0 (by decide)] at h
  have hActive := congrArg (fun t : State => t.dev.rd F.FS_STAT_ACTIVE) (Host.Outcome.next.inj h)
  simp only [State.withDev_dev] at hActive
  rw [active_cellReturned_twoFetches] at hActive
  revert hActive
  decide +kernel

/-! ### A completion ring that failed is enabled again (R63, R67) -/

/-- Ring 0 is disabled, marked failed, and holds no records. -/
def failedRing : State :=
  { dev := { ({} : Dev).wr F.BOOT_STAT_PHASE 7 with cq := [(0, { failed := true })] } }

theorem failed_cqEnable_failedRing : ((regWrite 0xE808 0x11 {} {} {} failedRing.dev).cqs 0).failed = false := by decide +kernel

/-- Refutes O5: the clause of the enable changes nothing of the ring's state but its phase. In `failedRing` the ring is marked
failed, and the enable clears the mark. -/
theorem not_completionRings : ¬ Obligations.CompletionRings := by
  rintro ⟨hEnable, -⟩
  have h := hEnable failedRing 0 0x11 {} (by decide) (by decide) (by decide) (by decide) (by decide) rfl rfl
  have hFailed := congrArg (fun t : State => (t.dev.cqs 0).failed) (Host.Outcome.next.inj h)
  refine absurd (hFailed.symm.trans failed_cqEnable_failedRing) ?_
  decide +kernel

/-! ### TQ_POP of the last queue (R71) -/

/-- The port is ready and telemetry queue 15 holds one closed word, whose first record is 1. -/
def lastQueueClosed : State := { dev := { ({} : Dev).wr F.BOOT_STAT_PHASE 7 with tq := [(15, { closed := [[1]] })] } }

theorem keyOff_lastQueueWord : keyOff (((tqWord 0).ix 15).key 0) = 0xEFE0 := by decide

/-- Refutes O6: the frame of a closed word ends at 0xEFD0, TQ15_WTAG, and leaves out TQ15_WORD0 to WORD7 at 0xEFE0 to 0xEFFC
(`keyOff_lastQueueWord`), which the same clause says a pop of queue 15 shows its records in. -/
theorem not_telemetryPop : ¬ Obligations.TelemetryPop := by
  rintro ⟨hClosed, -⟩
  obtain ⟨t, -, hWords, -, -, -, -, -, hFrame⟩ := hClosed lastQueueClosed 15 {} { closed := [[1]] } [1] [] (by decide) rfl rfl
  have hShown : t.dev.rd ((tqWord 0).ix 15) = 1 := hWords 0
  have hKept : look t.dev.regs (((tqWord 0).ix 15).key 0) = look lastQueueClosed.dev.regs (((tqWord 0).ix 15).key 0) :=
    hFrame _ (by rw [keyOff_lastQueueWord]; decide)
  rw [Dev.rd, hKept] at hShown
  revert hShown
  decide

/-! ### A power fail in Nap with BOOT_STAT.PHASE at 9 (R72, R402) -/

theorem powerFailEvent_of_phase9 {d : Dev} (h : d.rd F.BOOT_STAT_PHASE = 9) : powerFailEvent d = d := by
  simp [powerFailEvent, h]

theorem exec_powerFailRecognised_of_phase9 {s : State} (h : s.dev.rd F.BOOT_STAT_PHASE = 9) :
    exec .powerFailRecognised s = .next s := by
  simp [exec, execPowerFailRecognised, State.upd_eq, powerFailEvent_of_phase9 h]

def napInPhase9 : State :=
  { dev := { (({} : Dev).wr F.PM_STAT_STATE 3).wr F.BOOT_STAT_PHASE 9 with pins := { pfailN := false } } }

/-- Refutes O7: the clause of Nap does not ask for a boot phase. In PHASE 9 the event does nothing (R402), so `napInPhase9`
keeps no cause for the wake, where the clause has cause 12. -/
theorem not_powerFailSequence : ¬ Obligations.PowerFailSequence := by
  rintro ⟨-, -, hNap, -⟩
  have h := hNap napInPhase9 rfl rfl (by decide) (by decide) rfl rfl rfl
  rw [exec_powerFailRecognised_of_phase9 (by decide)] at h
  have hCauses := congrArg (fun t : State => t.dev.pm.causes) (Host.Outcome.next.inj h)
  exact absurd hCauses (by decide)

/-! ### The grant of a ticket whose cell names no die (R60, R87, R138) -/

/-- A number, far above every die's, at which the register file keeps LIFT_WAIT.DELAYED as a die queue's BROKEN. -/
def strayCellDie : Nat := F.LIFT_WAIT_DELAYED.key 0 - F.DQ_STAT_BROKEN.key 0

theorem strayCellDie_key : F.DQ_STAT_BROKEN.key strayCellDie = F.LIFT_WAIT_DELAYED.key 0 := by decide

def statusCell : Cell := { tkt := statusTicket, dix := strayCellDie, prof := some {} }

def statusStart : LReq := { ch := dixCh strayCellDie, who := .start [0] false, cost := 6, rank := 0 }

/-- A queued STATUS ticket on a cell whose die is `strayCellDie` asks Lift to start. -/
def strayStart : State :=
  { dev :=
      { ({} : Dev).wr F.CQ_CFG_EN 1 with
        cells := [(0, statusCell)]
        dq := [(cellKey statusCell, [0])]
        lift := { reqs := [statusStart] } } }

theorem exec_liftGrant_of_live {s : State} (ga gi wt : Nat) (m fm lm : Mem) (h : s.dev.live = true) :
    exec (.liftGrant ga gi wt m fm lm) s = .next (s.withDev (liftGrant ga gi wt m fm lm (beforeGrant s.dev))) := by
  simp only [exec, execLiftGrant, State.upd_eq, whenLive_live _ h]

theorem started_liftGrant_strayStart :
    ((liftGrant 0 0 5 .clean .clean .clean (beforeGrant strayStart.dev)).cell 0).started = false := by decide +kernel

/-- Refutes O13: the statement does not ask that the cell's die is one. In `strayStart` the BROKEN of the cell's queue has the
key of LIFT_WAIT.DELAYED (`strayCellDie_key`): a grant after a wait of 5, counted as delayed (R138), reads the queue as broken,
and the ticket does not start. -/
theorem not_ticketStarts : ¬ Obligations.TicketStarts := by
  intro hStarts
  obtain ⟨t, ht, hStarted, -⟩ := hStarts strayStart 0 0 5 statusStart 0 statusCell [] _ (by decide) (by decide) rfl rfl
    (by decide +kernel) (by decide +kernel) (by decide +kernel) (by decide +kernel) (by decide +kernel) rfl rfl rfl rfl rfl
    (by decide) rfl rfl (by decide +kernel) (by decide) (by decide +kernel) (by decide +kernel) (by decide +kernel)
  rw [exec_liftGrant_of_live 0 0 5 _ _ _ (by decide)] at ht
  rw [← Host.Outcome.next.inj ht, State.withDev_dev, started_liftGrant_strayStart] at hStarted
  exact absurd hStarted (by decide)

end Sys2Proof.Machine
end

section
/-!
PROOFS. The sequencer family: nanowords (R81, R92), restarts (R93) and microcode patches (R106, R107, R109). The statement
about the patch registers holds. Each of the other two has one clause with a counterexample: a fence of another LUN of the
target, and an entry that loads the loop counter.
-/

namespace Sys2Proof.Machine

/-! ### A nanoword of an enumeration ends while another LUN of its target is fenced (R92, R258, R496) -/

theorem exec_nanowordEnd_of_live {s : State} (c : Fin 32) (n : NanoIn) (h : s.dev.live = true) :
    exec (.nanowordEnd c n) s = .next (s.withDev (latchAll (nanowordEnd c n (linkInjected c s.dev)))) := by
  simp only [exec, execNanowordEnd, State.upd_eq, whenLive_live _ h]

/-- An enumeration's READ ID of target 0, at the first of two microwords of a patch. -/
def enumRun : Ctx := { work := .enum, rix := 0x048, mw := 0x4000, st := .running, dix := 0, entry := 0x4000 }

/-- A CMD cycle of 0x90. -/
def cmdNano : Nat := 1 * 2 ^ 8 + 0x90 * 2 ^ 12

/-- `enumRun` holds the bus of channel 0, and die 1, on the same target, is fenced. -/
def fencedNeighbour : State :=
  { dev :=
      { (({} : Dev).wr F.DIE_STAT_STATE 3 1).wr F.CH_STAT_RATE 1 0 with
        cls := [(0, { pmw := [(0, 0x800), (1, 0x800)], pnw := [(0, cmdNano)] })]
        chs := [(0, { ctxs := [(4, enumRun)], run := some 4 })] } }

/-- The fence of die 1 ends the routine at the nanoword's end. -/
theorem ctx_nanowordEnd_fencedNeighbour :
    (latchAll (nanowordEnd 0 {} (linkInjected 0 fencedNeighbour.dev))).ctx 0 4 = none := by decide +kernel

/-- Refutes O8: the clause of the next microword asks that the context's own die is not fenced. A target-level routine of an
enumeration carries no LUN address and commands every LUN of its target (R496), so a fence of another one ends it before its
commit point (R92). In `fencedNeighbour` the context is gone where the clause has it at the next microword. -/
theorem not_nanowordEnds : ¬ Obligations.NanowordEnds := by
  rintro ⟨hOn, -⟩
  obtain ⟨t, ht, ⟨y, hy, -⟩, -⟩ := hOn fencedNeighbour 0 {} 4 enumRun 0x4000 0x800 cmdNano 0x4001 0x800 cmdNano
    (by decide) (by decide) rfl rfl rfl rfl rfl (by decide) (by decide) (by decide) rfl rfl (by decide +kernel) (by decide)
    (by decide) (by decide) (by decide) (by decide +kernel) (by decide) (by decide) (by decide)
  rw [exec_nanowordEnd_of_live 0 {} (by decide)] at ht
  rw [← Host.Outcome.next.inj ht, State.withDev_dev] at hy
  exact Option.some_ne_none y (hy.symm.trans ctx_nanowordEnd_fencedNeighbour)

/-! ### A restart whose entry loads the loop counter (R83, R93) -/

theorem exec_restartGapEnd_of_live {s : State} (c : Fin 32) (m : Mem) (h : s.dev.live = true) :
    exec (.restartGapEnd c m) s = .next (s.withDev (gapEnd c m s.dev)) := by
  simp only [exec, execRestartGapEnd, State.upd_eq, whenLive_live _ h]

/-- An IDLE cycle with LDLOOP and a CNT16 of 5. -/
def ldloopNano : Nat := 5 * 2 ^ 56 + 2 ^ 73

/-- A routine in the gap of a restart, its loop counter cleared. -/
def gapRun : Ctx := { mw := 0x4000, st := .gap, dix := 1, entry := 0x4000 }

/-- `gapRun` holds the bus of channel 0, and its entry microword names `ldloopNano`. -/
def ldloopEntry : State :=
  { dev :=
      { cls := [(0, { pmw := [(0, 0x800)], pnw := [(0, ldloopNano)] })]
        chs := [(0, { ctxs := [(4, gapRun)], run := some 4 })] } }

/-- The loop counter is loaded before the entry's cycle (R83). -/
theorem loop_gapEnd_ldloopEntry : ((gapEnd 0 .clean ldloopEntry.dev).ctx 0 4).map (·.loop) = some 5 := by decide +kernel

/-- Refutes O9: the clause of the gap leaves the loop counter as it was and does not ask that LDLOOP is 0 in the entry's
nanoword. In `ldloopEntry` the counter goes from 0 to 5 as the entry begins. -/
theorem not_readinessAndRestarts : ¬ Obligations.ReadinessAndRestarts := by
  rintro ⟨-, -, -, -, -, -, hGap, -⟩
  obtain ⟨t, ht, hCtx, -⟩ := hGap ldloopEntry 0 4 gapRun 0x4000 0x800 ldloopNano (by decide) rfl rfl rfl rfl rfl (by decide)
    (by decide) (by decide +kernel) (by decide) (by decide) (by decide)
  rw [exec_restartGapEnd_of_live 0 .clean (by decide)] at ht
  rw [← Host.Outcome.next.inj ht, State.withDev_dev] at hCtx
  have hLoop := congrArg (Option.map Ctx.loop) hCtx
  exact absurd (loop_gapEnd_ldloopEntry.symm.trans hLoop) (by decide)

/-! ### Writes of the patch window (R106, R109, R487) -/

/-- CLSEL multiplies the registers of the patch window (R487). -/
theorem selOf_patch {o : Nat} (h : 0xF000 ≤ o) : selOf o = .cl := by
  rw [selOf, if_neg (by omega), if_pos (by omega)]

theorem ignored_patch {w : Wr} (h : 0xF000 ≤ w.off) (d : Dev) : ignored w d = none := by
  rw [ignored, if_neg (by omega), if_neg (by omega), if_neg (by omega), if_neg (by omega)]

/-- In the patch window a value is out of range by the tables' limits, or as a lower PAT_MINVER (R109). -/
theorem rangeErr_patch {w : Wr} (fs : List Fld) (d : Dev) (h : 0xF000 ≤ w.off) :
    rangeErr w fs d = (fs.any w.outside || (w.off == 0xF018 && minverLowers d w.inst w.v)) := by
  have h913C : ¬ w.off ≤ 0x913C := by omega
  have h1000 : w.off ≠ 0x1000 := by omega
  have hE800 : ¬ w.off < 0xE800 := by omega
  have hEC00 : ¬ w.off < 0xEC00 := by omega
  have hE210 : w.off ≠ 0xE210 := by omega
  have h10 : w.off ≠ 0x10 := by omega
  simp only [rangeErr, h913C, h1000, hE800, hEC00, hE210, h10, decide_false, beq_eq_false_iff_ne.mpr, ne_eq,
    not_false_eq_true, Bool.and_false, Bool.false_and, Bool.or_false]
  congr 2
  funext f
  unfold Wr.outside
  cases f.vmax <;> rfl

/-- What an accepted write of a patch register does beyond its fields. -/
theorem regAction_patch {w : Wr} (fu : Fuses) (old d : Dev) (h : 0xF000 ≤ w.off) : regAction w fu old d = busAction w d := by
  simp only [regAction]
  rw [if_neg (by omega), if_neg (by omega), if_pos (by omega)]

/-- The error record of a dropped write (R488). -/
theorem writeErr_eq_writeError_at (x : Access) (i cause : Nat) (d : Dev) :
    writeErr x i cause false d = d.writeError x.off x.acc i cause := by
  have hcnt (n : Nat) : (d.wr F.REG_WERR_WIN n).inc F.REG_WCNT_CNT =
      (d.wr F.REG_WERR_WIN n).wr F.REG_WCNT_CNT (satAdd 16 (d.rd F.REG_WCNT_CNT) 1) := by
    rw [Dev.inc, d.rd_wr_ne (f := F.REG_WERR_WIN) (i := 0) n (by decide)]; rfl
  simp only [writeErr, hcnt]
  rfl

section PatchWrite

variable {d : Dev} {o : Nat} {a : Acc} (h : d.takes o a = true) (ho : 0xF000 ≤ o) (v : Nat) (fu : Fuses) {fs : List Fld}
  (hf : fieldsAt o = some fs) (hro : fs.all (fun f => f.ty == .ro) = false)

include h ho hf hro

theorem regWrite_patch_takes (hd : dropCause { off := o, v := v, inst := d.named o a, acc := a } fs d = 0)
    (hr : fs.any (fun f => f.ty == .rwc) = false) :
    regWrite o v a {} fu d =
      (busAction { off := o, v := v, inst := d.named o a, acc := a }
        (Dev.each fs (takeField { off := o, v := v, inst := d.named o a, acc := a }) d)).acked 0 := by
  rw [regWrite_takes h v {} fu hf hro (by omega) (sprRefuses_outside _ _ (.inr (by dsimp only; omega)))
    (ignored_patch (by exact ho) d) hd (by omega) (by omega) hr, regAction_patch _ _ _ (by exact ho)]

theorem regWrite_patch_dropped (hd : dropCause { off := o, v := v, inst := d.named o a, acc := a } fs d ≠ 0) :
    regWrite o v a {} fu d =
      (d.writeError o a (d.named o a) (dropCause { off := o, v := v, inst := d.named o a, acc := a } fs d)).acked 0 := by
  rw [regWrite_dropped h v {} fu hf hro (by omega) (sprRefuses_outside _ _ (.inr (by dsimp only; omega)))
    (ignored_patch (by exact ho) d) hd, selOf_patch ho, errIndex, writeErr_eq_writeError_at]

end PatchWrite

/-! ### PAT_CTL (R106, R109) -/

theorem fieldsAt_patCtl : fieldsAt 0xF000 = some [F.PAT_CTL_LOAD, F.PAT_CTL_CLEAR] := by decide +kernel

/-- No value is out of range for PAT_CTL, and it holds no field that waits for an idle owner. -/
theorem dropCause_patCtl {w : Wr} (h : w.off = 0xF000) (d : Dev) : dropCause w [F.PAT_CTL_LOAD, F.PAT_CTL_CLEAR] d = 0 := by
  have hrange : rangeErr w [F.PAT_CTL_LOAD, F.PAT_CTL_CLEAR] d = false := by
    rw [rangeErr_patch _ _ (by omega), h]
    simp only [List.any_cons, List.any_nil, Wr.outside_of_unlimited (f := F.PAT_CTL_LOAD) rfl rfl,
      Wr.outside_of_unlimited (f := F.PAT_CTL_CLEAR) rfl rfl]
    rfl
  exact dropCause_eq_zero hrange rfl (unitErr_queues (by omega) d)

theorem busAction_patCtl {w : Wr} (h : w.off = 0xF000) (d : Dev) :
    busAction w d = onBit w F.PAT_CTL_CLEAR (patGo true w.inst) (onBit w F.PAT_CTL_LOAD (patGo false w.inst) d) := by
  simp [busAction, h]

def patCtlWr (v : Nat) (a : Acc) (d : Dev) : Wr := { off := 0xF000, v := v, inst := d.named 0xF000 a, acc := a }

/-- A write of PAT_CTL takes no value into its fields: a bit that is 1 acts. -/
theorem regWrite_patCtl {d : Dev} {a : Acc} (h : d.takes 0xF000 a = true) (v : Nat) (fu : Fuses) :
    regWrite 0xF000 v a {} fu d = (busAction (patCtlWr v a d) d).acked 0 := by
  rw [regWrite_patch_takes h (by decide) v fu fieldsAt_patCtl rfl (dropCause_patCtl rfl d) rfl, Dev.each_cons, Dev.each_cons,
    Dev.each_nil, takeField_inert _ (.inr (.inr rfl)), takeField_inert _ (.inr (.inr rfl)), patCtlWr]

theorem onBit_of_set {w : Wr} {f : Fld} (g : Dev → Dev) (d : Dev) (h : w.bit f = true) : onBit w f g d = g d := by
  simp [onBit, h]

theorem onBit_of_clear {w : Wr} {f : Fld} (g : Dev → Dev) (d : Dev) (h : w.bit f = false) : onBit w f g d = d := by
  simp [onBit, h]

theorem exec_patLoad_of_takes {s : State} {a : Acc} (h : s.dev.takes 0xF000 a = true) :
    exec (.patLoad a) s = .next (s.withDev ((patGo false (s.dev.named 0xF000 a) s.dev).acked 0)) := by
  have hload : (patCtlWr 1 a s.dev).bit F.PAT_CTL_LOAD = true := by simp [patCtlWr, Wr.bit, Wr.get, fld, F.PAT_CTL_LOAD]
  have hclear : (patCtlWr 1 a s.dev).bit F.PAT_CTL_CLEAR = false := by simp [patCtlWr, Wr.bit, Wr.get, fld, F.PAT_CTL_CLEAR]
  rw [exec, execPatLoad, State.upd_eq, regWrite_patCtl h, busAction_patCtl rfl, onBit_of_clear _ _ hclear,
    onBit_of_set _ _ hload, patCtlWr]

theorem exec_patClear_of_takes {s : State} {a : Acc} (h : s.dev.takes 0xF000 a = true) :
    exec (.patClear a) s = .next (s.withDev ((patGo true (s.dev.named 0xF000 a) s.dev).acked 0)) := by
  have hload : (patCtlWr 2 a s.dev).bit F.PAT_CTL_LOAD = false := by simp [patCtlWr, Wr.bit, Wr.get, fld, F.PAT_CTL_LOAD]
  have hclear : (patCtlWr 2 a s.dev).bit F.PAT_CTL_CLEAR = true := by simp [patCtlWr, Wr.bit, Wr.get, fld, F.PAT_CTL_CLEAR]
  rw [exec, execPatClear, State.upd_eq, regWrite_patCtl h, busAction_patCtl rfl, onBit_of_set _ _ hclear,
    onBit_of_clear _ _ hload, patCtlWr]

/-- With the cluster idle and no warm swap in progress a load or a clear begins to drain it. -/
theorem patGo_idle {d : Dev} {cl : Nat} (clear : Bool) (hbusy : d.on F.PAT_STAT_BUSY cl = false)
    (hload : d.rd F.UPD_SWAP_STATE ≠ 1) (hrevert : d.rd F.UPD_SWAP_STATE ≠ 2) :
    patGo clear cl d =
      patBegin { clear := clear } cl (d.wr (if clear then F.PAT_CTL_CLEAR else F.PAT_CTL_LOAD) 1 cl) := by
  simp [patGo, swapping, hbusy, hload, hrevert]

/-- While a load or a clear is in progress another is counted and does nothing else. -/
theorem patGo_busy {d : Dev} {cl : Nat} (clear : Bool) (hbusy : d.on F.PAT_STAT_BUSY cl = true) :
    patGo clear cl d = d.inc F.PAT_STAT_DROP cl := by
  simp [patGo, hbusy]

/-! ### PAT_MINVER (R109) -/

theorem fieldsAt_patMinver : fieldsAt 0xF018 = some [F.PAT_MINVER_MINVER] := by decide +kernel

theorem dropCause_patMinver {w : Wr} (h : w.off = 0xF018) (d : Dev) :
    dropCause w [F.PAT_MINVER_MINVER] d = if w.v < d.rd F.PAT_MINVER_MINVER w.inst then 2 else 0 := by
  have hrange : rangeErr w [F.PAT_MINVER_MINVER] d = minverLowers d w.inst w.v := by
    rw [rangeErr_patch _ _ (by omega), h]
    simp only [List.any_cons, List.any_nil, Wr.outside_of_unlimited (f := F.PAT_MINVER_MINVER) rfl rfl, beq_self_eq_true,
      Bool.true_and, Bool.or_false, Bool.false_or]
  have hidle : idleErr w [F.PAT_MINVER_MINVER] d = false := rfl
  simp [dropCause, hrange, hidle, unitErr_queues (w := w) (by omega) d, minverLowers]

theorem busAction_patMinver {w : Wr} (h : w.off = 0xF018) (d : Dev) : busAction w d = d := by
  simp [busAction, h]

section Minver

variable {d : Dev} {a : Acc} (h : d.takes 0xF018 a = true) {v : Nat} (fu : Fuses)

include h

theorem regWrite_patMinver_rises (hv : d.rd F.PAT_MINVER_MINVER (d.named 0xF018 a) ≤ v) :
    regWrite 0xF018 v a {} fu d = (d.wr F.PAT_MINVER_MINVER v (d.named 0xF018 a)).acked 0 := by
  have hd := (dropCause_patMinver (w := { off := 0xF018, v := v, inst := d.named 0xF018 a, acc := a }) rfl d).trans
    (if_neg (Nat.not_lt.mpr hv))
  have hget : ({ off := 0xF018, v := v, inst := d.named 0xF018 a, acc := a } : Wr).get F.PAT_MINVER_MINVER = v % 2 ^ 32 := rfl
  rw [regWrite_patch_takes h (by decide) v fu fieldsAt_patMinver rfl hd rfl, busAction_patMinver rfl, Dev.each_cons,
    Dev.each_nil, takeField_plain _ (.inl rfl) rfl, hget]
  simp only [Dev.wr, F.PAT_MINVER_MINVER, Nat.mod_mod]

theorem regWrite_patMinver_falls (hv : v < d.rd F.PAT_MINVER_MINVER (d.named 0xF018 a)) :
    regWrite 0xF018 v a {} fu d = (d.writeError 0xF018 a (d.named 0xF018 a) 2).acked 0 := by
  have hd := (dropCause_patMinver (w := { off := 0xF018, v := v, inst := d.named 0xF018 a, acc := a }) rfl d).trans (if_pos hv)
  rw [regWrite_patch_dropped h (by decide) v fu fieldsAt_patMinver rfl (by rw [hd]; decide), hd]

end Minver

theorem exec_patMinverWrite (v : Word) (a : Acc) (s : State) :
    exec (.patMinverWrite v a) s = .next (s.withDev (regWrite 0xF018 v.toNat a {} s.fuse s.dev)) := rfl

/-! ### What the end of a load or a clear leaves (R106, R108) -/

/-- Fields of one window at different places do not share a key. -/
theorem rd_wr_place {f g : Fld} (d : Dev) (v i : Nat) (h : f.key 0 ≠ g.key 0) : (d.wr f v i).rd g i = d.rd g i :=
  d.rd_wr_ne v fun e => by
    simp only [Fld.key, Nat.add_right_cancel_iff] at e
    exact h (by rw [Fld.key, Fld.key, e])

theorem rd_patRelease {f : Fld} (cl : Nat) (d : Dev)
    (h : ∀ g ∈ [F.PAT_STAT_BUSY, F.PAT_STAT_PHASE, F.PAT_CTL_LOAD, F.PAT_CTL_CLEAR], g.key 0 ≠ f.key 0) :
    (patRelease cl d).rd f cl = d.rd f cl := by
  simp only [List.forall_mem_cons] at h
  obtain ⟨hbusy, hphase, hload, hclear, -⟩ := h
  simp only [patRelease, rd_wr_place _ _ _ hclear, rd_wr_place _ _ _ hload, Dev.rd_setClu, rd_wr_place _ _ _ hphase,
    rd_wr_place _ _ _ hbusy]

@[simp] theorem busy_patRelease (cl : Nat) (d : Dev) : (patRelease cl d).rd F.PAT_STAT_BUSY cl = 0 := by
  rw [patRelease, rd_wr_place _ _ _ (by decide), rd_wr_place _ _ _ (by decide), Dev.rd_setClu, rd_wr_place _ _ _ (by decide),
    Dev.rd_wr, Nat.zero_mod]

@[simp] theorem ctlClear_patRelease (cl : Nat) (d : Dev) : (patRelease cl d).rd F.PAT_CTL_CLEAR cl = 0 := by
  rw [patRelease, Dev.rd_wr, Nat.zero_mod]

@[simp] theorem clu_patRelease (cl : Nat) (d : Dev) : (patRelease cl d).clu cl = { d.clu cl with pat := none } := by
  simp [patRelease]

/-- Effects that keep the clusters keep them in turn. -/
theorem clu_each {α : Type} (f : α → Dev → Dev) (xs : List α) (d : Dev) (n : Nat)
    (h : ∀ x e, (f x e).clu n = e.clu n) :
    (Dev.each xs f d).clu n = d.clu n :=
  Dev.each_inv (fun e => e.clu n = d.clu n) f xs (fun x _ e he => (h x e).trans he) rfl

@[simp] theorem clu_romAlone (cl : Nat) (d : Dev) :
    (romAlone cl d).clu cl = { d.clu cl with pmw := [], pnw := [], rix := [] } := by
  rw [romAlone, Dev.clu_wr, Dev.clu_wr, clu_each, Dev.clu_setClu]
  exact fun _ _ => rfl

@[simp] theorem active_romAlone (cl : Nat) (d : Dev) : (romAlone cl d).rd F.PAT_STAT_ACTIVE cl = 0 := by
  rw [romAlone, rd_wr_place _ _ _ (by decide), Dev.rd_wr, Nat.zero_mod]

@[simp] theorem version_romAlone (cl : Nat) (d : Dev) : (romAlone cl d).rd F.PAT_VER_VERSION cl = 0 := by
  rw [romAlone, Dev.rd_wr, Nat.zero_mod]

@[simp] theorem active_patActivate (cl : Nat) (b : List Byte) (d : Dev) :
    (patActivate cl b d).rd F.PAT_STAT_ACTIVE cl = 1 := by
  rw [patActivate, rd_wr_place _ _ _ (by decide), Dev.rd_wr]; rfl

@[simp] theorem version_patActivate (cl : Nat) (b : List Byte) (d : Dev) :
    (patActivate cl b d).rd F.PAT_VER_VERSION cl = leAt b 8 4 % 2 ^ 32 := by
  rw [patActivate, Dev.rd_wr]; rfl

/-! ### What a clear leaves alone -/

/-- Beyond the clusters, only registers at the offsets of BOOT_STAT and of the patch window differ. -/
structure PatchOnly (d e : Dev) : Prop where
  rest : e = { d with regs := e.regs, cls := e.cls }
  regs : d.onlyAt [(0xA000, 0xA000), (0xF000, 0xF01C), (0xF100, 0xF1FC)] e

theorem PatchOnly.refl (d : Dev) : PatchOnly d d := ⟨rfl, Dev.onlyAt_refl _ d⟩

theorem PatchOnly.trans {d e f : Dev} (h : PatchOnly d e) (g : PatchOnly e f) : PatchOnly d f where
  rest := by
    have hf := g.rest
    rw [h.rest] at hf
    exact hf
  regs := Dev.onlyAt_trans h.regs g.regs

/-- The frame of a clear may name the DMA channels and the fabric ports besides. -/
theorem PatchOnly.eq_with_dma_fab {d e : Dev} (h : PatchOnly d e) :
    e = { d with regs := e.regs, cls := e.cls, dma := e.dma, fab := e.fab } := by
  have hdma : e.dma = d.dma := (congrArg Dev.dma h.rest :)
  have hfab : e.fab = d.fab := (congrArg Dev.fab h.rest :)
  rw [hdma, hfab]
  exact h.rest

theorem PatchOnly.setClu {d e : Dev} (h : PatchOnly d e) (n : Nat) (x : Cl) : PatchOnly d (e.setClu n x) :=
  h.trans ⟨rfl, Dev.onlyAt_regs _ rfl⟩

/-- The offset in a field's key is its register's. -/
theorem keyOff_key {f : Fld} {i : Nat} (hlo : f.lo < 32) (hi : i < 4096) : keyOff (f.key i) = f.off := by
  simp only [keyOff, Fld.key]; omega

theorem PatchOnly.wr {d e : Dev} (h : PatchOnly d e) {f : Fld} {i : Nat} (v : Nat) (hlo : f.lo < 32) (hi : i < 4096)
    (hoff : (0xF000 ≤ f.off ∧ f.off ≤ 0xF01C) ∨ (0xF100 ≤ f.off ∧ f.off ≤ 0xF1FC)) : PatchOnly d (e.wr f v i) := by
  refine h.trans ⟨rfl, Dev.onlyAt_wr (Dev.onlyAt_refl _ e) f v i ?_⟩
  rw [keyOff_key hlo hi]
  rcases hoff with hpat | hmatch
  · exact ⟨(0xF000, 0xF01C), by simp, hpat⟩
  · exact ⟨(0xF100, 0xF1FC), by simp, hmatch⟩

theorem PatchOnly.each {α : Type} {d e : Dev} (h : PatchOnly d e) {f : α → Dev → Dev} {xs : List α}
    (hf : ∀ x ∈ xs, ∀ e, PatchOnly e (f x e)) : PatchOnly d (Dev.each xs f e) :=
  h.trans (Dev.each_rel PatchOnly .refl (fun _ _ _ => .trans) f xs hf e)

theorem patchOnly_romAlone {cl : Nat} (h : cl < 4096) (d : Dev) : PatchOnly d (romAlone cl d) := by
  have hmatch : ∀ m ∈ List.range 64, ∀ e : Dev,
      PatchOnly e (((e.wr (F.MATCH_V.ix m) 0 cl).wr (F.MATCH_ROMADDR.ix m) 0 cl).wr (F.MATCH_PADDR.ix m) 0 cl) := by
    intro m hm e
    have hm' : m < 64 := List.mem_range.mp hm
    have hoff : 0xF100 ≤ 0xF100 + 4 * (m / 1) ∧ 0xF100 + 4 * (m / 1) ≤ 0xF1FC := by omega
    have hplace : ∀ n : Nat, n < 32 → n + 0 * (m % 1) < 32 := by omega
    exact (((PatchOnly.refl e).wr 0 (hplace 31 (by decide)) h (.inr hoff)).wr 0 (hplace 0 (by decide)) h (.inr hoff)).wr 0
      (hplace 16 (by decide)) h (.inr hoff)
  exact ((((PatchOnly.refl d).setClu _ _).each hmatch).wr 0 (by decide) h (.inl (by decide))).wr 0 (by decide) h
    (.inl (by decide))

theorem patchOnly_patRelease {cl : Nat} (h : cl < 4096) (d : Dev) : PatchOnly d (patRelease cl d) :=
  (((((PatchOnly.refl d).wr 0 (by decide) h (.inl (by decide))).wr 0 (by decide) h (.inl (by decide))).setClu _ _).wr 0
    (by decide) h (.inl (by decide))).wr 0 (by decide) h (.inl (by decide))

/-! ### PATCH_DRAIN_END and PATCH_READ_END (R106–R109) -/

theorem patDrainEnd_clear {d : Dev} {cl : Nat} {p : PatLoad} (hpat : (d.clu cl).pat = some p) (hphase : p.phase = 1)
    (hclear : p.clear = true) (hquiet : clusterQuiet d cl = true) :
    patDrainEnd cl d = patRelease cl (((romAlone cl d).wr F.PAT_STAT_ERR 0 cl).wr F.PAT_ERRPOS_POS 0 cl) := by
  simp [patDrainEnd, hpat, hphase, hclear, hquiet]

theorem exec_patchDrainEnd_of_live {s : State} (cl : Fin 4) (h : s.dev.live = true) :
    exec (.patchDrainEnd cl) s = .next (s.withDev (patDrainEnd cl s.dev)) := by
  simp only [exec, execPatchDrainEnd, State.upd_eq, whenLive_live _ h]

/-- The read of an image has ended, with an error or with every byte: the image is taken or not, and the cluster is
released. -/
theorem patReadEnd_of_ended {d : Dev} {cl : Nat} {p : PatLoad} (hpat : (d.clu cl).pat = some p) (hphase : p.phase = 2)
    (hswap : p.swap = false) (hended : p.err = true ∨ d.rd F.PAT_LEN_LEN cl ≤ p.pos) :
    patReadEnd cl .clean d = patRelease cl (patTake (keyInForce d) cl (d.rd F.PAT_LEN_LEN cl) p.got
      (if p.err then some (0xA, p.pos) else none) .clean d).2 := by
  have hgoes : ¬ (p.phase ≠ 2 ∨ p.swap ∨ (!p.err ∧ p.pos < d.rd F.PAT_LEN_LEN cl)) := by
    rcases hended with herr | hlen
    · simp [hphase, hswap, herr]
    · simp [hphase, hswap, Nat.not_lt.mpr hlen]
  rw [patReadEnd, hpat]
  exact if_neg hgoes

theorem exec_patchReadEnd_of_load {s : State} {cl : Fin 4} {p : PatLoad} (m : Mem) (hlive : s.dev.live = true)
    (hpat : (s.dev.clu cl).pat = some p) (hswap : p.swap = false) :
    exec (.patchReadEnd cl m) s = .next (s.withDev (patReadEnd cl m s.dev)) := by
  simp [exec, execPatchReadEnd, State.upd_eq, whenLive_live _ hlive, patchReadEnd, hpat, hswap]

theorem patTake_failed (key : Option (List Byte)) (cl len : Nat) (b : List Byte) (e : Nat × Nat) (m : Mem) (d : Dev) :
    (patTake key cl len b (some e) m d).2 = ((romAlone cl d).wr F.PAT_STAT_ERR e.1 cl).wr F.PAT_ERRPOS_POS e.2 cl := rfl

theorem patTake_good {key : Option (List Byte)} {cl len : Nat} {b : List Byte} {d : Dev}
    (h : imgCheck (some cl) len (d.rd F.PAT_MINVER_MINVER cl) key b = none) :
    (patTake key cl len b none .clean d).2 = (patActivate cl b d).wr F.PAT_STAT_ERR 0 cl := by
  simp [patTake, h, storeErrPos]

/-- The cluster has been released after a clear or a failed load: the code and the position are shown, and it runs on the
ROM alone. -/
def leftOnRom (cl code pos : Nat) (d : Dev) : Dev :=
  patRelease cl (((romAlone cl d).wr F.PAT_STAT_ERR code cl).wr F.PAT_ERRPOS_POS pos cl)

section LeftOnRom

variable (cl code pos : Nat) (d : Dev)

theorem err_leftOnRom : (leftOnRom cl code pos d).rd F.PAT_STAT_ERR cl = code % 2 ^ 4 := by
  rw [leftOnRom, rd_patRelease _ _ (by decide), rd_wr_place _ _ _ (by decide), Dev.rd_wr]; rfl

theorem errpos_leftOnRom : (leftOnRom cl code pos d).rd F.PAT_ERRPOS_POS cl = pos % 2 ^ 14 := by
  rw [leftOnRom, rd_patRelease _ _ (by decide), Dev.rd_wr]; rfl

theorem busy_leftOnRom : (leftOnRom cl code pos d).rd F.PAT_STAT_BUSY cl = 0 := busy_patRelease _ _

theorem ctlClear_leftOnRom : (leftOnRom cl code pos d).rd F.PAT_CTL_CLEAR cl = 0 := ctlClear_patRelease _ _

theorem active_leftOnRom : (leftOnRom cl code pos d).rd F.PAT_STAT_ACTIVE cl = 0 := by
  rw [leftOnRom, rd_patRelease _ _ (by decide), rd_wr_place _ _ _ (by decide), rd_wr_place _ _ _ (by decide),
    active_romAlone]

theorem version_leftOnRom : (leftOnRom cl code pos d).rd F.PAT_VER_VERSION cl = 0 := by
  rw [leftOnRom, rd_patRelease _ _ (by decide), rd_wr_place _ _ _ (by decide), rd_wr_place _ _ _ (by decide),
    version_romAlone]

theorem clu_leftOnRom :
    (leftOnRom cl code pos d).clu cl = { d.clu cl with pmw := [], pnw := [], rix := [], pat := none } := by
  simp [leftOnRom]

theorem patchOnly_leftOnRom (h : cl < 4096) : PatchOnly d (leftOnRom cl code pos d) :=
  (((patchOnly_romAlone h d).wr code (by decide) h (.inl (by decide))).wr pos (by decide) h (.inl (by decide))).trans
    (patchOnly_patRelease h _)

end LeftOnRom

/-- Settles O10: the port takes a write of the patch window (`regWrite_patch_takes`), LOAD and CLEAR act through `patGo`, and
the end of a clear, of a failed read and of a good image follow `patRelease`, whose writes lie at places of their own. -/
theorem patchRegisters : Obligations.PatchRegisters := by
  refine ⟨?load, ?clear, ?busy, ?cleared, ?failed, ?good, ?rises, ?falls⟩
  case load =>
    intro s a h hbusy hload hrevert
    rw [exec_patLoad_of_takes h, patGo_idle false hbusy hload hrevert]
    rfl
  case clear =>
    intro s a h hbusy hload hrevert
    rw [exec_patClear_of_takes h, patGo_idle true hbusy hload hrevert]
    rfl
  case busy =>
    intro s a h hbusy
    rw [exec_patLoad_of_takes h, patGo_busy false hbusy]
    rfl
  case cleared =>
    intro s cl p hlive hpat hphase hclear hquiet
    have hend : patDrainEnd cl s.dev = leftOnRom cl 0 0 s.dev := patDrainEnd_clear hpat hphase hclear hquiet
    have hkeeps : PatchOnly s.dev (leftOnRom cl 0 0 s.dev) := patchOnly_leftOnRom cl 0 0 s.dev (by omega)
    rw [exec_patchDrainEnd_of_live cl hlive, hend]
    refine ⟨_, rfl, busy_leftOnRom .., active_leftOnRom .., err_leftOnRom .., version_leftOnRom ..,
      ctlClear_leftOnRom .., ?_, ?_, ?_, ?_, ?_, hkeeps.regs⟩
    all_goals simp only [State.withDev_dev, clu_leftOnRom]
    exact congrArg s.withDev hkeeps.eq_with_dma_fab
  case failed =>
    intro s cl p hlive hpat hphase hswap herr
    have hend : patReadEnd cl .clean s.dev = leftOnRom cl 10 p.pos s.dev := by
      rw [patReadEnd_of_ended hpat hphase hswap (.inl herr), if_pos herr, patTake_failed]; rfl
    rw [exec_patchReadEnd_of_load .clean hlive hpat hswap, hend]
    refine ⟨_, rfl, err_leftOnRom .., busy_leftOnRom .., active_leftOnRom .., errpos_leftOnRom .., ?_, ?_⟩
    all_goals simp only [State.withDev_dev, clu_leftOnRom]
  case good =>
    intro s cl p hlive hpat hphase hswap herr hlen hgood
    rw [exec_patchReadEnd_of_load .clean hlive hpat hswap, patReadEnd_of_ended hpat hphase hswap (.inr hlen), herr,
      if_neg (by decide), patTake_good hgood]
    refine ⟨_, rfl, ?_, ?_, ?_, ?_, ?_⟩
    all_goals rw [State.withDev_dev]
    · rw [rd_patRelease _ _ (by decide), Dev.rd_wr, Nat.zero_mod]
    · rw [busy_patRelease]
    · rw [rd_patRelease _ _ (by decide), rd_wr_place _ _ _ (by decide), active_patActivate]
    · rw [rd_patRelease _ _ (by decide), rd_wr_place _ _ _ (by decide), version_patActivate]
    · rw [clu_patRelease]
  case rises =>
    intro s v a h hv
    rw [exec_patMinverWrite, regWrite_patMinver_rises h _ hv]
  case falls =>
    intro s v a h hv
    rw [exec_patMinverWrite, regWrite_patMinver_falls h _ hv]

end Sys2Proof.Machine
end

section
/-!
PROOFS. The scheduling family: Lift (R130–R132, R138). The statement fails: its clause of the tokens a grant takes lets the
request name a cost class beyond the eight of R130.
-/

namespace Sys2Proof.Machine

/-! ### The grant of a wake whose cost class is none of the eight (R130, R132, R138) -/

/-- LIFT_STAT stands where the LIFT_COSTk array, eight registers long, would have a LIFT_COST9: the ARRAY cost of a class 9
is the number of requests pending at Lift. -/
theorem costA_nine (d : Dev) : costA d 9 = d.rd F.LIFT_STAT_PEND := rfl

def strayWake : LReq := { ch := 0, who := .wake, cost := 9, rank := 0 }

/-- `strayWake` is the only request at Lift, as LIFT_STAT.PEND shows, and no token is held. -/
def strayWakePending : State := { dev := ({} : Dev).setLift { reqs := [strayWake] } }

theorem pickGrant_strayWakePending : pickGrant (beforeGrant strayWakePending.dev) 0 0 = some strayWake := by decide +kernel

theorem costA_strayWakePending : costA (beforeGrant strayWakePending.dev) strayWake.cost = 1 := by
  rw [strayWake, costA_nine]; decide +kernel

/-- The grant takes the request out before it takes the tokens, so that PEND is 0 by then. -/
theorem toks_liftGrant_strayWakePending :
    (liftGrant 0 0 0 .clean .clean .clean (beforeGrant strayWakePending.dev)).lift.toks =
      [{ ch := 0, ctx := none, array := 0, io := 0, pgm := false }] := by decide +kernel

/-- Refutes O12: the clause of the tokens a grant takes does not ask for a cost class of R130. In `strayWakePending` the class
is 9, whose ARRAY cost is LIFT_STAT.PEND (`costA_nine`): it is 1 as the request is picked, and the clause has one token held,
but the grant itself brings it to 0, and none is. -/
theorem not_liftTokens : ¬ Obligations.LiftTokens := by
  rintro ⟨-, hTokens, -⟩
  obtain ⟨t, ht, hToks, -⟩ := hTokens strayWakePending strayWake 0 0 0 _ (by decide) (by decide) rfl rfl
    pickGrant_strayWakePending rfl (by rw [costA_strayWakePending]; decide +kernel) (by decide +kernel)
  have hNone : strayWakePending.dev.lift.toks = [] := rfl
  rw [exec_liftGrant_of_live 0 0 0 _ _ _ (by decide)] at ht
  rw [← Host.Outcome.next.inj ht, State.withDev_dev, toks_liftGrant_strayWakePending, costA_strayWakePending, hNone] at hToks
  have hArray := congrArg (List.map Tok.array) hToks
  exact absurd hArray (by simp)

end Sys2Proof.Machine
end

section
/-!
PROOFS. The read-path family: hard decodes (R147–R150, R159) and the soft-decoder pool (R155–R158). Both statements fail, each by
its clause about a decode that fails: a register of a `State` may hold a number too wide for its field, and neither clause
excludes that.
-/

namespace Sys2Proof.Machine

/-! ### A hard decode fails, charged to a tenant with a poisoned ledger word (R148, R323, R346, R365) -/

theorem exec_hardDecodeEnd_of_live {s : State} (cl : Fin 4) (n : Fin 10) (f : DecodeFound) (h : s.dev.live = true) :
    exec (.hardDecodeEnd cl n f .clean) s = .next (s.withDev (latchAll (dueSweepCl cl
      (hardDecodeEnd (sourceSettledIn f.same) s.dev.fs.pfail cl n f false s.dev)))) := by
  simp only [exec, execHardDecodeEnd, State.upd_eq, whenLive_live _ h, memFinds, readMem, Mem.isUe]

/-- HD_FAILCNT of cluster 0 stands where the MOD_STAT array, 32 registers long, would have HOLDOFF of a group 4372. -/
theorem failcnt_eq_holdoff (d : Dev) : d.rd F.HD_FAILCNT_CNT = d.rd (F.MOD_STAT_HOLDOFF.ix 4372) := rfl

/-- A codeword of a first read, whole, with more 0 bits than ERTHR has after reset. -/
def zeroedCw : Cw :=
  { cell := 7, ten := 0, ch := 0, ctx := 4, plane := 0, idx := 0, first := true, zeros := 200, bytes := [], offs := [] }

/-- A started READ of codewords 0 and 1 of plane 0, both with the decoders. -/
def pendingRead : Cell :=
  { tkt := [1, 0, 1, 0, 0, 0, 0, 0, 0, 0, 0, 0, 0, 2], started := true, st := 2, cws := [(0, .pending), (1, .pending)] }

def pendingCtx : Ctx := { cells := [7], st := .decoding, planes := 1 }

/-- Decoder 0 of cluster 0 works on `zeroedCw`. An energy word of tenant 0 is poisoned, and INT_SRC of source 0x082, the event
of an uncorrectable word, names moderation group 4372, which its five bits cannot hold; one event ends that group's HOLDOFF. -/
def strayGroup : State :=
  { dev :=
      { regs := [((F.INT_SRC_GRP.ix 0x82).key 0, 4372), ((F.INT_SRC_MOD.ix 0x82).key 0, 1),
          ((F.MOD_STAT_HOLDOFF.ix 4372).key 0, 1)]
        int := { modCnt := [(4372, 1)] }
        mp := { bad := [(wordKey 5 7, 0)] }
        cells := [(7, pendingRead)]
        chs := [(0, { ctxs := [(4, pendingCtx)] })]
        cls := [(0, { hdec := [(0, [zeroedCw])] })] } }

/-- No zero syndrome after one iteration. -/
def notDecoded : DecodeFound := { ok := false, iters := 1, corrected := 0, user := [], mdata := [], n1 := 0, n0 := 0 }

theorem failcnt_strayGroup : strayGroup.dev.rd F.HD_FAILCNT_CNT = 1 := by rw [failcnt_eq_holdoff]; decide +kernel

/-- The decode's energy charge meets the poisoned word; its event ends HOLDOFF of group 4372, so that the failure is counted
from 0. -/
theorem failcnt_hardDecodeEnd_strayGroup :
    (latchAll (dueSweepCl 0 (hardDecodeEnd (sourceSettledIn false) false 0 0 notDecoded false strayGroup.dev))).rd
      F.HD_FAILCNT_CNT = 1 := by decide +kernel

/-- Refutes O14: the clause of a failed decode does not ask that INT_SRC.GRP of source 0x082 name one of the 32 groups. In
`strayGroup` HD_FAILCNT is also that group's HOLDOFF (`failcnt_eq_holdoff`): it is 1 before and after the decode, where the
clause has it rise to 2. -/
theorem not_hardDecodes : ¬ Obligations.HardDecodes := by
  rintro ⟨-, -, hFailed, -⟩
  obtain ⟨t, ht, -, -, -, hCount⟩ := hFailed strayGroup 0 0 notDecoded zeroedCw pendingRead pendingCtx (by decide +kernel)
    (by decide +kernel) rfl rfl rfl (by decide) rfl rfl rfl (by decide) (.inl rfl) rfl (by decide +kernel)
  rw [exec_hardDecodeEnd_of_live 0 0 _ (by decide +kernel)] at ht
  rw [← Host.Outcome.next.inj ht, State.withDev_dev] at hCount
  have hRises := (failcnt_hardDecodeEnd_strayGroup.symm.trans hCount).trans
    (congrArg (fun n => (n + 1) % 2 ^ F.HD_FAILCNT_CNT.w) failcnt_strayGroup)
  exact absurd hRises (by decide)

/-! ### A soft decode fails while SD_OKCNT holds 2 ^ 32 (R158) -/

theorem exec_softDecodeEnd_of_live {s : State} (n : Fin 8) (f : DecodeFound) (h : s.dev.live = true) :
    exec (.softDecodeEnd n f .clean) s = .next (s.withDev (latchAll (Dev.each (List.range 4) dueSweepCl
      (softDecodeEnd (sourceSettledIn f.same) s.dev.fs.pfail n f false s.dev)))) := by
  simp only [exec, execSoftDecodeEnd, State.upd_eq, whenLive_live _ h, memFinds, readMem, Mem.isUe]

/-- The READ with both codewords failing. -/
def failingRead : Cell := { pendingRead with cws := [(0, .failing), (1, .failing)] }

/-- Its context, with the soft reads of plane 0 at the soft decoder. -/
def softCtx : Ctx := { pendingCtx with work := .soft }

/-- `softCtx` holds soft decoder 0, and SD_OKCNT holds a number one too large for its 32 bits. -/
def wideCount : State :=
  { dev :=
      { regs := [(F.SD_OKCNT_CNT.key 0, 2 ^ 32)]
        sdp := { held := [(0, (0, 0, 4, 0))] }
        cells := [(7, failingRead)]
        chs := [(0, { ctxs := [(4, softCtx)] })] } }

theorem okcnt_wideCount : wideCount.dev.rd F.SD_OKCNT_CNT = 2 ^ 32 := rfl

theorem okcnt_softDecodeEnd_wideCount :
    (latchAll (Dev.each (List.range 4) dueSweepCl
      (softDecodeEnd (sourceSettledIn false) false 0 notDecoded false wideCount.dev))).rd F.SD_OKCNT_CNT = 2 ^ 32 := by
  decide +kernel

/-- Refutes O15: of a decode that fails its clause says that SD_OKCNT is the old value cut to 32 bits. The decode does not write
the register, and in `wideCount` it keeps the 2 ^ 32 it holds, where the clause has 0. -/
theorem not_softDecoders : ¬ Obligations.SoftDecoders := by
  rintro ⟨-, hDecode, -⟩
  obtain ⟨t, ht, -, -, -, hCount, -⟩ := hDecode wideCount 0 notDecoded 0 0 4 0 softCtx 7 failingRead 0 1 []
    (by decide +kernel) (by decide +kernel) rfl rfl rfl (by decide) rfl (by decide) (by decide)
  rw [exec_softDecodeEnd_of_live 0 _ (by decide +kernel)] at ht
  rw [← Host.Outcome.next.inj ht, State.withDev_dev] at hCount
  have hCut := (okcnt_softDecodeEnd_wideCount.symm.trans hCount).trans
    (congrArg (fun n => (n + 0) % 2 ^ F.SD_OKCNT_CNT.w) okcnt_wideCount)
  exact absurd hCut (by decide)

end Sys2Proof.Machine
end

section
/-!
PROOFS. The read-reference tracking family: the Lichen Map's lines and tracker (R176–R183) and its seeds and sweeps
(R186–R189). Both statements fail for one reason: the map unit waits while memory region 4, its cache, is not ready (R372),
and neither statement asks that it is.
-/

namespace Sys2Proof.Machine

/-! ### The tracker while region 4 is not ready (R183, R372) -/

theorem trackerResult_of_not_regionReady {d : Dev} (cl : Nat) (m : Mem) (stopped : Bool) (h : regionReady d 4 = false) :
    trackerResult cl m stopped d = d := by
  cases htrk : (d.clu cl).trk with
  | nil => simp only [trackerResult, htrk]
  | cons r rs => simp [trackerResult, htrk, h]

theorem exec_trackerResult_of_not_regionReady {s : State} (cl : Fin 4) (m : Mem) (h : regionReady s.dev 4 = false) :
    exec (.trackerResult cl m) s = .next s := by
  simp [exec, execTrackerResult, State.upd_eq, whenLive, trackerResult_of_not_regionReady cl m _ h]

/-- A first decode of die 1, block 2, page 3, read at offsets 0. -/
def waitingResult : Track :=
  { dix := 1, blk := 2, page := 3, offs := List.replicate 8 0, n1 := 30, n0 := 10, first := true, cell := 7, tlm := false }

/-- The map unit is enabled, die 1 is tracked, and cluster 0 holds one result, whose line is cached; but no memory region is
ready (MP_STAT.READY 0). -/
def trackerUnready : State :=
  { dev :=
      { ((({} : Dev).wr F.LM_CTL_EN 1).wr F.LM_CTL_TRKEN 1).wr F.LM_DIE_TRK 1 1 with
        cls := [(0, { trk := [waitingResult] })]
        lm := { cache := [(cacheSet (pageLine {} 1 2 3), [(pageLine {} 1 2 3, List.replicate 16 0)])] } } }

/-- Refutes O16: the clause of a result the tracker takes does not ask that region 4 is ready. In `trackerUnready` the tracker
waits for it (R372) and the result stays with its cluster, where the clause has it taken. -/
theorem not_lichenLines : ¬ Obligations.LichenLines := by
  rintro ⟨-, -, -, hTaken, -⟩
  obtain ⟨t, ht, hLeft, -⟩ := hTaken trackerUnready 0 waitingResult [] (List.replicate 16 0) (by decide) rfl (by decide) rfl
    (by decide) (by decide) (by decide) (by decide) (by decide)
  rw [exec_trackerResult_of_not_regionReady 0 _ (by decide)] at ht
  rw [← Host.Outcome.next.inj ht] at hLeft
  have hStays : (trackerUnready.dev.clu 0).trk = [waitingResult] := rfl
  exact absurd (hStays.symm.trans hLeft) (List.cons_ne_nil _ _)

/-! ### The sweep while region 4 is not ready (R187, R372) -/

theorem sweepUnit_of_not_regionReady {d : Dev} (h : regionReady d 4 = false) : sweepUnit d = d := by
  cases hsweep : d.lm.sweep with
  | none => simp only [sweepUnit, hsweep]
  | some u => simp [sweepUnit, hsweep, h]

theorem exec_lmSweepUnit_of_not_regionReady {s : State} (h : regionReady s.dev 4 = false) : exec .lmSweepUnit s = .next s := by
  simp [exec, execLmSweepUnit, State.upd_eq, whenLive, sweepUnit_of_not_regionReady h]

/-- A sweep stands before the unit of blocks 8 and 9 of die 3, but no memory region is ready (MP_STAT.READY 0). -/
def sweepUnready : State := { dev := { lm := { sweep := some (3, 8) } } }

/-- Refutes O17: the clause of a sweep's next unit does not ask that region 4 is ready. In `sweepUnready` the sweep waits for it
(R372) and reads nothing, where the clause has the unit busy. -/
theorem not_mapSeedsAndSweeps : ¬ Obligations.MapSeedsAndSweeps := by
  rintro ⟨-, -, -, -, hUnit, -⟩
  obtain ⟨t, ht, -, -, hBusy, -⟩ := hUnit sweepUnready 3 8 (by decide) rfl rfl rfl rfl
  rw [exec_lmSweepUnit_of_not_regionReady (by decide)] at ht
  rw [← Host.Outcome.next.inj ht] at hBusy
  have hIdle : sweepUnready.dev.lm.unitBusy = false := rfl
  exact absurd (hIdle.symm.trans (congrArg LmSt.unitBusy hBusy)) (by decide)

end Sys2Proof.Machine
end

section
/-!
PROOFS. The write-path family: the accumulators' commands (R210, R214, R215), their transfers and the hold slots (R205, R212).
Both statements fail for one reason: a register of a `State` may hold a number too wide for its field, and neither asks that
the select a write goes by (R487) names an accumulator or a channel there is. For one far enough beyond the last, a field has
another register's place in the register file (`Fld.key`).
-/

namespace Sys2Proof.Machine

/-! ### A refused OPEN through an ACC_SEL past its six bits (R210, R487) -/

theorem exec_accOpen (a : Acc) (s : State) :
    exec (.accOpen a) s = .next (s.withDev (regWrite 0xE210 1 a {} s.fuse s.dev)) := rfl

/-- The accumulator whose ACC_STAT.CMDERR would stand where ACC_CNT.CMDDROP does. -/
def cmderrAtCmddrop : Nat := F.ACC_CNT_CMDDROP.key 0 - F.ACC_STAT_CMDERR.key 0

/-- A block that has booted, with no memory region ready (MP_STAT.READY 0) and `cmderrAtCmddrop` in ACC_SEL. -/
def strayAccSel : State :=
  { dev := { regs := [(F.BOOT_STAT_PHASE.key 0, 7), (F.ACC_SEL_ACC.key 0, cmderrAtCmddrop)] } }

theorem cmddrop_strayAccSel : strayAccSel.dev.rd F.ACC_CNT_CMDDROP = 0 := by decide

/-- The 1 written to CMDERR is already in the count as the drop raises it. -/
theorem cmddrop_accOpen_strayAccSel :
    (regWrite 0xE210 1 {} {} strayAccSel.fuse strayAccSel.dev).rd F.ACC_CNT_CMDDROP = 2 := by decide +kernel

/-- Refutes O18: no clause asks that ACC_SEL names one of the 64 accumulators. In `strayAccSel` the CMDERR of the one it names
is ACC_CNT.CMDDROP: an OPEN, refused since region 3 is not ready, brings the count from 0 to 2, where the clause has 1. -/
theorem not_accumulatorCommands : ¬ Obligations.AccumulatorCommands := by
  rintro ⟨-, hRefused, -⟩
  have h := hRefused strayAccSel {} (by decide +kernel) (by decide) rfl (.inr (by decide))
  rw [exec_accOpen, cmddrop_strayAccSel] at h
  have hCount := congrArg (fun t : State => t.dev.rd F.ACC_CNT_CMDDROP) (Host.Outcome.next.inj h)
  have hOnce : ∀ d : Dev, ((d.wr F.ACC_CNT_CMDDROP (satAdd 16 0 1)).acked 0).rd F.ACC_CNT_CMDDROP = 1 :=
    fun d => d.rd_wr F.ACC_CNT_CMDDROP (satAdd 16 0 1) 0
  exact absurd (cmddrop_accOpen_strayAccSel.symm.trans (hCount.trans (hOnce _))) (by decide)

/-! ### WR_HOLDREL through a CHSEL past its five bits (R205, R487) -/

theorem exec_wrHoldrel (v : Word) (a : Acc) (s : State) :
    exec (.wrHoldrel v a) s = .next (s.withDev (regWrite 0x1318 v.toNat a {} s.fuse s.dev)) := rfl

/-- The channel whose WR_STAT.HELD would stand where WR_CNT.PFAIL of channel 0 does. -/
def heldAtPfail : Nat := F.WR_CNT_PFAIL.key 0 - F.WR_STAT_HELD.key 0

/-- A block that has booted, with one failed program counted on channel 0 and `heldAtPfail` in CHSEL. -/
def strayChSel : State :=
  { dev := { regs := [(F.CHSEL_INDEX.key 0, heldAtPfail), (F.WR_CNT_PFAIL.key 0, 1), (F.BOOT_STAT_PHASE.key 0, 7)] } }

theorem pfail_strayChSel : look strayChSel.dev.regs (F.WR_CNT_PFAIL.key 0) = some 1 := by decide

/-- The bit of HELD that the release of slot 0 clears is the count. -/
theorem pfail_wrHoldrel_strayChSel :
    look (regWrite 0x1318 1 {} {} strayChSel.fuse strayChSel.dev).regs (F.WR_CNT_PFAIL.key 0) = none := by decide +kernel

/-- Refutes O19: the clause of WR_HOLDREL does not ask that CHSEL names one of the 32 channels. In `strayChSel` the HELD of the
one it names is WR_CNT.PFAIL of channel 0: the release of slot 0 takes the count from 1 to 0, where the clause has every
register outside WR_STAT to WR_HOLDREL as it was. -/
theorem not_accumulatorTransfers : ¬ Obligations.AccumulatorTransfers := by
  rintro ⟨-, -, -, -, -, -, -, hRelease⟩
  obtain ⟨t, ht, -, -, -, -, -, -, hOnly⟩ := hRelease strayChSel 1 {} 0 (by decide +kernel) (by decide)
  have hKept := hOnly (F.WR_CNT_PFAIL.key 0) (by decide)
  rw [exec_wrHoldrel] at ht
  rw [← Host.Outcome.next.inj ht, pfail_strayChSel] at hKept
  exact Option.some_ne_none 1 (hKept.symm.trans pfail_wrHoldrel_strayChSel)

end Sys2Proof.Machine
end

section
/-!
PROOFS. The Traverse family (R223–R241). Its statement fails for the reason the write path's do: a cell of a `State` may
hold a number that names nothing, here a stream beyond the four of a cluster (R227).
-/

namespace Sys2Proof.Machine

/-! ### A second bitmap for a COPY whose stream is none of the four (R227, R234) -/

/-- The stream whose TRV_STRs.STATE would stand where TRV_RCHK.DROPPED does. -/
def strayStream : Nat := (F.TRV_RCHK_DROPPED.off - F.TRV_STR_STATE.off) / F.TRV_STR_STATE.stride

theorem strayStream_key (cl : Nat) : (F.TRV_STR_STATE.ix strayStream).key cl = F.TRV_RCHK_DROPPED.key cl := rfl

/-- An encoded COPY from die 0 to itself that waits for its second bitmap and holds `strayStream`. -/
def strayStreamCopy : Cell :=
  { started := true, between := true, ready := true, recheck := true, tprof := some {}, stream := some strayStream }

def secondBitmap : Answer :=
  { what := .bitmapAgain 0, code := 0, bytes := [], req := { what := .bitmapAgain 0, addr := 0, len := 8 } }

/-- The second bitmap of `strayStreamCopy` has come, and no codeword is invalid in it that was valid before. -/
def strayRecheck : State := { dev := { cells := [(0, strayStreamCopy)], answers := [secondBitmap] } }

theorem exec_bitmapRecheckReturn_of_live {s : State} (k : Fin 1048576) (h : s.dev.live = true) :
    exec (.bitmapRecheckReturn k) s = .next (s.withDev (latchAll (recheckReturn k s.dev))) := by
  simp only [exec, execBitmapRecheckReturn, State.upd_eq, whenLive_live _ h]

/-- The stream's new state, 4, is written over the count. -/
theorem dropped_recheckReturn_strayRecheck :
    (latchAll (recheckReturn 0 strayRecheck.dev)).rd F.TRV_RCHK_DROPPED (dixCl strayStreamCopy.dix) = 4 := by decide +kernel

/-- Refutes O20: the clause of the second bitmap does not ask that the COPY's stream is one of its cluster's four. In
`strayRecheck` the STATE of stream 8 has the key of TRV_RCHK.DROPPED (`strayStream_key`): a bitmap that drops nothing leaves
the count at 4, where the clause has it at 0. -/
theorem not_traverseSteps : ¬ Obligations.TraverseSteps := by
  rintro ⟨-, -, -, -, hSecond⟩
  obtain ⟨t, ht, -, -, -, hDropped, -⟩ := hSecond strayRecheck 0 strayStreamCopy {} secondBitmap [] [] (by decide) rfl rfl rfl
    rfl rfl rfl rfl (by decide) (by decide)
  rw [exec_bitmapRecheckReturn_of_live 0 (by decide)] at ht
  rw [← Host.Outcome.next.inj ht, State.withDev_dev] at hDropped
  exact absurd (dropped_recheckReturn_strayRecheck.symm.trans hDropped) (by decide)

end Sys2Proof.Machine
end

section
/-!
PROOFS. The flash bus and die family: the pads' part of a fail-safe entry (R246, R455, R461, R465), recovery polls (R256, R260)
and the fence (R258). The statement about the fail-safe entry holds. Each of the other two has a clause with a counterexample:
a recovery poll of a FENCED die, whose byte is counted, and a fence through a DSEL past its ten bits.
-/

namespace Sys2Proof.Machine

/-! ### The fail-safe row on the channels (R246) -/

@[simp] theorem setPads_regs (p : Pads) (c : Nat) (d : Dev) : (setPads p c d).regs = d.regs := rfl
@[simp] theorem setPads_cells (p : Pads) (c : Nat) (d : Dev) : (setPads p c d).cells = d.cells := rfl

theorem chn_setPads (p : Pads) (c : Nat) (d : Dev) (n : Nat) :
    (setPads p c d).chn n = if n = c then { d.chn n with pads := p } else d.chn n := by
  split
  · next h => subst h; exact d.chn_setCh n _
  · next h => exact d.chn_setCh_ne _ (Ne.symm h)

theorem each_setPads_regs_cells (p : Pads) (cs : List Nat) (d : Dev) :
    (Dev.each cs (setPads p) d).regs = d.regs ∧ (Dev.each cs (setPads p) d).cells = d.cells :=
  Dev.each_inv (fun e => e.regs = d.regs ∧ e.cells = d.cells) (setPads p) cs (fun _ _ _ he => he) ⟨rfl, rfl⟩

theorem chn_each_setPads (p : Pads) (cs : List Nat) (d : Dev) (n : Nat) :
    (Dev.each cs (setPads p) d).chn n = if n ∈ cs then { d.chn n with pads := p } else d.chn n := by
  induction cs generalizing d with
  | nil => simp
  | cons c cs ih =>
    rw [Dev.each_cons, ih, chn_setPads]
    by_cases hc : n = c <;> by_cases hcs : n ∈ cs <;> simp [hc, hcs]

/-! ### The registers of an entry (R455, R461, R465) -/

theorem rd_put_ne (d : Dev) {f g : Fld} {i j : Nat} (b : Bool) (h : f.key i ≠ g.key j) : (d.put f b i).rd g j = d.rd g j :=
  d.rd_wr_ne _ h

theorem rd_inc_ne (d : Dev) {f g : Fld} {i j : Nat} (n : Nat) (h : f.key i ≠ g.key j) : (d.inc f i n).rd g j = d.rd g j :=
  d.rd_wr_ne _ h

/-- FS_STAT, FS_LAST and FS_CNT as an entry leaves them, before it drives the pads. -/
def entryMarked (cause unit idx : Nat) (d : Dev) : Dev :=
  ((((((((((d.wr F.FS_STAT_ACTIVE 1).put F.FS_STAT_RESETONLY (resetOnly cause)).wr F.FS_STAT_CAUSE cause).wr
    F.FS_STAT_CLEARED 0).wr F.FS_STAT_DIEIDLE 0).wr F.FS_STAT_MANIFEST 0).wr F.FS_STAT_UNIT unit).wr F.FS_STAT_INDEX idx).wr
    F.FS_LAST_CAUSE cause).wr F.FS_LAST_TIME d.time).inc F.FS_CNT_ENTRIES

theorem entryMarked_cells (c u i : Nat) (d : Dev) : (entryMarked c u i d).cells = d.cells := by
  rw [entryMarked, Dev.inc, Dev.put]
  repeat rw [Dev.wr_cells]

theorem chn_entryMarked (c u i : Nat) (d : Dev) (n : Nat) : (entryMarked c u i d).chn n = d.chn n := by
  rw [entryMarked, Dev.inc, Dev.put]
  repeat rw [Dev.chn_wr]

/-- The entry's own writes of FS_STAT do not move the time it records. -/
theorem failSafeMark_eq (c u i : Nat) (d : Dev) :
    failSafeMark c u i d = Dev.each (List.range 32) (setPads padsFail) (entryMarked c u i d) := by
  have htime : (((((((d.wr F.FS_STAT_ACTIVE 1).put F.FS_STAT_RESETONLY (resetOnly c)).wr F.FS_STAT_CAUSE c).wr
      F.FS_STAT_CLEARED 0).wr F.FS_STAT_DIEIDLE 0).wr F.FS_STAT_MANIFEST 0).wr F.FS_STAT_UNIT u).time = d.time := by
    simp (disch := decide) only [Dev.time, Dev.rd64, Dev.rd_wr_ne, rd_put_ne]
  simp only [failSafeMark, entryMarked, htime]

theorem rd_failSafeMark (c u i : Nat) (d : Dev) (f : Fld) : (failSafeMark c u i d).rd f = (entryMarked c u i d).rd f := by
  rw [failSafeMark_eq, Dev.rd_regs _ _ (each_setPads_regs_cells _ _ _).1]

theorem failSafeMark_cells (c u i : Nat) (d : Dev) : (failSafeMark c u i d).cells = d.cells := by
  rw [failSafeMark_eq, (each_setPads_regs_cells _ _ _).2, entryMarked_cells]

theorem chn_failSafeMark (c u i : Nat) (d : Dev) {n : Nat} (h : n < 32) :
    (failSafeMark c u i d).chn n = { d.chn n with pads := padsFail } := by
  rw [failSafeMark_eq, chn_each_setPads, if_pos (List.mem_range.mpr h), chn_entryMarked]

section EntryMarked
variable (c u i : Nat) (d : Dev)

theorem rd_entryMarked_active : (entryMarked c u i d).rd F.FS_STAT_ACTIVE = 1 := by
  simp (disch := decide) only [entryMarked, rd_inc_ne, rd_put_ne, Dev.rd_wr_ne, Dev.rd_wr]; rfl

theorem rd_entryMarked_resetOnly : (entryMarked c u i d).rd F.FS_STAT_RESETONLY = b2n (resetOnly c) := by
  simp (disch := decide) only [entryMarked, rd_inc_ne, Dev.rd_wr_ne, Dev.rd_put]

theorem rd_entryMarked_cause (hc : c < 32) : (entryMarked c u i d).rd F.FS_STAT_CAUSE = c := by
  simp (disch := decide) only [entryMarked, rd_inc_ne, Dev.rd_wr_ne, Dev.rd_wr]
  exact Nat.mod_eq_of_lt hc

theorem rd_entryMarked_zeroed :
    (entryMarked c u i d).rd F.FS_STAT_CLEARED = 0 ∧ (entryMarked c u i d).rd F.FS_STAT_DIEIDLE = 0 ∧
      (entryMarked c u i d).rd F.FS_STAT_MANIFEST = 0 := by
  simp (disch := decide) only [entryMarked, rd_inc_ne, Dev.rd_wr_ne, Dev.rd_wr, Nat.zero_mod, and_self]

theorem rd_entryMarked_unit (hu : u < 32) : (entryMarked c u i d).rd F.FS_STAT_UNIT = u := by
  simp (disch := decide) only [entryMarked, rd_inc_ne, Dev.rd_wr_ne, Dev.rd_wr]
  exact Nat.mod_eq_of_lt hu

theorem rd_entryMarked_index (hi : i < 256) : (entryMarked c u i d).rd F.FS_STAT_INDEX = i := by
  simp (disch := decide) only [entryMarked, rd_inc_ne, Dev.rd_wr_ne, Dev.rd_wr]
  exact Nat.mod_eq_of_lt hi

theorem rd_entryMarked_lastCause (hc : c < 32) : (entryMarked c u i d).rd F.FS_LAST_CAUSE = c := by
  simp (disch := decide) only [entryMarked, rd_inc_ne, Dev.rd_wr_ne, Dev.rd_wr]
  exact Nat.mod_eq_of_lt hc

theorem rd_entryMarked_lastTime : (entryMarked c u i d).rd F.FS_LAST_TIME = d.time % 2 ^ 24 := by
  simp (disch := decide) only [entryMarked, rd_inc_ne, Dev.rd_wr]; rfl

theorem rd_entryMarked_entries : (entryMarked c u i d).rd F.FS_CNT_ENTRIES = satAdd 16 (d.rd F.FS_CNT_ENTRIES) 1 := by
  simp (disch := decide) only [entryMarked, Dev.rd_inc, rd_put_ne, Dev.rd_wr_ne]; rfl

end EntryMarked

/-! ### A further cause (R455) -/

theorem enterFailSafe_of_active {d : Dev} (hr : d.inReset = false) (hc : d.cclkOn = true) (ha : d.on F.FS_STAT_ACTIVE = true)
    (c u i : Nat) : enterFailSafe c u i d = furtherCause c u i d := by
  simp [enterFailSafe, hr, hc, ha]

/-- The three ways a further cause can go, by FS_STAT as it stood. -/
theorem furtherCause_eq (c u i : Nat) (d : Dev) :
    furtherCause c u i d =
      if d.on F.FS_STAT_RESETONLY = false ∧ resetOnly c = true then
        (((((d.inc F.FS_CNT_ENTRIES).wr F.FS_STAT_CAUSE c).wr F.FS_STAT_RESETONLY 1).wr F.FS_STAT_CLEARED 0).wr
          F.FS_STAT_UNIT u).wr F.FS_STAT_INDEX i
      else if d.rd F.FS_STAT_CAUSE = c then (d.inc F.FS_CNT_ENTRIES).wr F.FS_STAT_CLEARED 0
      else d.inc F.FS_CNT_ENTRIES := by
  simp (disch := decide) only [furtherCause, Dev.on, rd_inc_ne, Bool.and_eq_true, Bool.not_eq_true']
  congr

theorem furtherCause_cells (c u i : Nat) (d : Dev) : (furtherCause c u i d).cells = d.cells := by
  rw [furtherCause_eq]
  split
  · rfl
  · split <;> rfl

theorem rd_furtherCause_entries (c u i : Nat) (d : Dev) :
    (furtherCause c u i d).rd F.FS_CNT_ENTRIES = satAdd 16 (d.rd F.FS_CNT_ENTRIES) 1 := by
  have hcount : (d.inc F.FS_CNT_ENTRIES).rd F.FS_CNT_ENTRIES = satAdd 16 (d.rd F.FS_CNT_ENTRIES) 1 := d.rd_inc _ _ _
  rw [furtherCause_eq]
  split
  · simpa (disch := decide) only [Dev.rd_wr_ne]
  · split
    · simpa (disch := decide) only [Dev.rd_wr_ne]
    · exact hcount

theorem rd_furtherCause_active (c u i : Nat) (d : Dev) :
    (furtherCause c u i d).rd F.FS_STAT_ACTIVE = d.rd F.FS_STAT_ACTIVE := by
  rw [furtherCause_eq]
  split
  · simp (disch := decide) only [Dev.rd_wr_ne, rd_inc_ne]
  · split <;> simp (disch := decide) only [Dev.rd_wr_ne, rd_inc_ne]

/-- The first cause that needs a reset replaces one that does not. -/
theorem rd_furtherCause_cause {c : Nat} (hc : c < 32) (u i : Nat) (d : Dev) :
    (furtherCause c u i d).rd F.FS_STAT_CAUSE =
      if d.on F.FS_STAT_RESETONLY = false ∧ resetOnly c = true then c else d.rd F.FS_STAT_CAUSE := by
  rw [furtherCause_eq]
  split
  · simp (disch := decide) only [Dev.rd_wr_ne, Dev.rd_wr]
    exact Nat.mod_eq_of_lt hc
  · split <;> simp (disch := decide) only [Dev.rd_wr_ne, rd_inc_ne]

/-- Settles O36: an entry is its registers (`entryMarked`) and then the fail-safe row on each channel in turn, and a further
cause leaves a count and, where it is the first that needs a reset, its own CAUSE. -/
theorem failSafeEntry : Obligations.FailSafeEntry := by
  refine ⟨?entry, ?further⟩
  case entry =>
    intro s c u i
    have hc : c.val < 32 := by omega
    obtain ⟨hCleared, hDieidle, hManifest⟩ := rd_entryMarked_zeroed c u i s.dev
    simp only [rd_failSafeMark, failSafeMark_cells]
    refine ⟨rd_entryMarked_active _ _ _ _, rd_entryMarked_resetOnly _ _ _ _, rd_entryMarked_cause _ _ _ _ hc, hCleared,
      hDieidle, hManifest, rd_entryMarked_unit _ _ _ _ u.isLt, rd_entryMarked_index _ _ _ _ i.isLt,
      rd_entryMarked_lastCause _ _ _ _ hc, rd_entryMarked_lastTime _ _ _ _, rd_entryMarked_entries _ _ _ _, fun n => ?_, trivial⟩
    rw [chn_failSafeMark _ _ _ _ n.isLt]
    exact ⟨rfl, rfl⟩
  case further =>
    intro s c hr hclk ha
    dsimp only
    rw [enterFailSafe_of_active hr hclk ha]
    exact ⟨rd_furtherCause_entries _ _ _ _, rd_furtherCause_active _ _ _ _, rd_furtherCause_cause (by omega) _ _ _,
      furtherCause_cells _ _ _ _⟩

/-! ### A recovery poll of a FENCED die (R256, R260) -/

theorem ctxs_of_chs_nil {d : Dev} (h : d.chs = []) (c : Nat) : (d.chn c).ctxs = [] := by
  rw [Dev.chn, h]; rfl

theorem latchAll_of_chs_nil {d : Dev} (h : d.chs = []) : latchAll d = d :=
  Dev.each_inv (· = d) latchDue (List.range 32) (fun c _ e he => by subst he; simp only [latchDue, ctxs_of_chs_nil h c, Dev.each_nil])
    rfl

/-- With no context on any channel only fenced dies could drive the byte. -/
theorem fencedByte_of_chs_nil {d : Dev} (x : Nat) (hlive : d.live = true) (h : d.chs = []) :
    fencedByte x d = d.inc F.DIE_FSTAT_RESP x := by
  simp [fencedByte, hlive, ctxs_of_chs_nil h]

theorem exec_recoveryPoll_of_fenced {s : State} {x : Fin 1024} (st ns : Nat) (hlive : s.dev.live = true)
    (hx : dieFenced s.dev x = true) (h : s.dev.chs = []) :
    exec (.recoveryPoll x st ns) s = .next (s.withDev (s.dev.inc F.DIE_FSTAT_RESP x)) := by
  have hpoll : recoveryPoll x st ns s.dev = s.dev.inc F.DIE_FSTAT_RESP x := by
    rw [recoveryPoll, if_pos hx, fencedByte_of_chs_nil x hlive h]
  have hlatch : latchAll (s.dev.inc F.DIE_FSTAT_RESP x) = s.dev.inc F.DIE_FSTAT_RESP x := latchAll_of_chs_nil h
  simp only [exec, execRecoveryPoll, State.upd_eq, whenLive_live _ hlive, hpoll, hlatch]

/-- Die 5 is FENCED, and no channel has a context. -/
def fencedDie : State := { dev := ({} : Dev).wr F.DIE_STAT_STATE 3 5 }

/-- Refutes O21: the clause of a die that does not recover does not leave out a FENCED one. The byte of a recovery poll of die 5
in `fencedDie` is one that a fenced die drives: it is dropped and counted in DIE_FSTAT.RESP (R260), where the clause has nothing
change. -/
theorem not_enumerationAndRecovery : ¬ Obligations.EnumerationAndRecovery := by
  rintro ⟨-, -, -, -, hElsewhere, -⟩
  have h := hElsewhere fencedDie 5 0 0 (by decide)
  rw [exec_recoveryPoll_of_fenced 0 0 (by decide) (by decide) rfl, whenLive_live _ (by decide), latchAll_of_chs_nil rfl] at h
  have hResp := congrArg (fun t : State => t.dev.rd F.DIE_FSTAT_RESP 5) (Host.Outcome.next.inj h)
  have hBefore : fencedDie.dev.rd F.DIE_FSTAT_RESP 5 = 0 := by decide
  have hAfter : (fencedDie.dev.inc F.DIE_FSTAT_RESP 5).rd F.DIE_FSTAT_RESP 5 = 1 := by rw [Dev.rd_inc, hBefore]; rfl
  exact absurd (hAfter.symm.trans (hResp.trans hBefore)) (by decide)

/-! ### DIE_FENCE through a DSEL past its ten bits (R258, R487) -/

theorem exec_dieFence (a : Acc) (s : State) : exec (.dieFence a) s = .next (s.withDev (regWrite 0x3004 1 a {} s.fuse s.dev)) := rfl

/-- A block that has booted, with 1024, one past the last die, in DSEL. -/
def strayDsel : State := { dev := { regs := [(F.DSEL_INDEX.key 0, 1024), (F.BOOT_STAT_PHASE.key 0, 7)] } }

theorem named_strayDsel : strayDsel.dev.named 0x3004 {} = 1024 := by decide

/-- The fence raises the source of cluster 0: a die's cluster is counted modulo 4 (`dixCl`). -/
theorem pend_dieFence_strayDsel : (regWrite 0x3004 1 {} {} strayDsel.fuse strayDsel.dev).int.pend = 2 ^ 0x70 := by decide +kernel

/-- Refutes O22: the clause of the fence does not ask that DSEL names one of the 1024 dies. In `strayDsel` the fence of die 1024
raises source 0x070, where the clause has 0x074, the source of a cluster there is not. -/
theorem not_dieControl : ¬ Obligations.DieControl := by
  rintro ⟨hFence, -⟩
  obtain ⟨t, ht, -, -, hPend⟩ := hFence strayDsel {} (by decide +kernel) (by decide) (by decide) rfl rfl rfl rfl
  rw [exec_dieFence] at ht
  rw [← Host.Outcome.next.inj ht, State.withDev_dev, pend_dieFence_strayDsel, named_strayDsel] at hPend
  exact absurd hPend (by decide)

end Sys2Proof.Machine
end

section
/-!
PROOFS. The PHY-calibration family: the triggers and timeouts of a run (R275–R279, R287), pad impedance (R270, R271) and Glide
(R280). The statement about the triggers holds. Each of the other two has a clause with a counterexample: it leaves out the
loopback depths, in which a channel keeps its trims and gets no target (R283).
-/

namespace Sys2Proof.Machine

/-! ### Writes of the calibration windows (R479, R488) -/

/-- In the calibration windows a value is out of range by the tables' limits alone. -/
theorem rangeErr_calibration {w : Wr} (fs : List Fld) (d : Dev) (h : 0x1400 ≤ w.off) (h' : w.off < 0x3000) :
    rangeErr w fs d = fs.any w.outside := by
  have h9124 : ¬ 0x9124 ≤ w.off := by omega
  have h1000 : w.off ≠ 0x1000 := by omega
  have hE400 : ¬ 0xE400 ≤ w.off := by omega
  have hE800 : ¬ 0xE800 ≤ w.off := by omega
  have hF018 : w.off ≠ 0xF018 := by omega
  have hE210 : w.off ≠ 0xE210 := by omega
  have h10 : w.off ≠ 0x10 := by omega
  simp only [rangeErr, h9124, h1000, hE400, hE800, hF018, hE210, h10, decide_false, beq_eq_false_iff_ne.mpr, ne_eq,
    not_false_eq_true, Bool.false_and, Bool.or_false]
  congr 1
  funext f
  unfold Wr.outside
  cases f.vmax <;> rfl

theorem unitErr_calibration {w : Wr} (h : 0x1400 ≤ w.off) (h' : w.off < 0x3000) (d : Dev) : unitErr w d = false := by
  have h10 : w.off ≠ 0x10 := by omega
  have h24 : w.off ≠ 0x24 := by omega
  have h3004 : w.off ≠ 0x3004 := by omega
  have hD180 : w.off ≠ 0xD180 := by omega
  have hB000 : w.off ≠ 0xB000 := by omega
  have hC200 : w.off ≠ 0xC200 := by omega
  have hC204 : w.off ≠ 0xC204 := by omega
  simp [unitErr, *]

/-- A write of fields that take any value and wait for no owner is taken. -/
theorem dropCause_calibration {w : Wr} {fs : List Fld} (d : Dev) (h : 0x1400 ≤ w.off) (h' : w.off < 0x3000)
    (hfs : ∀ f ∈ fs, f.vmin = 0 ∧ f.vmax = none ∧ f.ty ≠ .rwi) : dropCause w fs d = 0 := by
  refine dropCause_eq_zero ?range (idleErr_of_unowned fun f hf hty => absurd hty (hfs f hf).2.2) (unitErr_calibration h h' d)
  rw [rangeErr_calibration fs d h h', List.any_eq_false]
  intro f hf
  obtain ⟨hmin, hmax, -⟩ := hfs f hf
  rw [Wr.outside_of_unlimited hmin hmax]
  decide

theorem ignored_calibration {w : Wr} (h : 0x1400 ≤ w.off) (h' : w.off < 0x3000) (d : Dev) : ignored w d = none := by
  rw [ignored, if_neg (by omega), if_neg (by omega), if_neg (by omega), if_neg (by omega)]

/-- What an accepted write of a calibration register does beyond its fields. -/
theorem regAction_calibration {w : Wr} (fu : Fuses) (old d : Dev) (h : 0x1400 ≤ w.off) (h' : w.off < 0x3000) :
    regAction w fu old d = busAction w d := by
  simp only [regAction]
  rw [if_neg (by omega), if_neg (by omega), if_pos (by omega)]

section CalibrationWrite

variable (o v : Nat) (a : Acc) (d : Dev)

/-- The write of a calibration register, to the channel or cluster that the select names. -/
def calWr : Wr := { off := o, v := v, inst := d.named o a, acc := a }

/-- What an accepted write of such a register leaves before its action: its fields, and the shadows of a policy. -/
def calFields (fs : List Fld) : Dev :=
  let n := policyAction (calWr o v a d) (Dev.each fs (takeField (calWr o v a d)) d)
  if fs.any (fun f => f.ty == .rwc) then commitStat n else n

theorem onBit_calWr (f : Fld) (g : Dev → Dev) (e : Dev) :
    onBit (calWr o v a d) f g e = if fld v f.lo f.w = 0 then e else g e := by
  simp [onBit, Wr.bit, Wr.get, calWr]

variable {o a d}

theorem regWrite_calibration (h : d.takes o a = true) (hlo : 0x1400 ≤ o) (hhi : o < 0x3000) (fu : Fuses) {fs : List Fld}
    (hf : fieldsAt o = some fs) (hro : fs.all (fun f => f.ty == .ro) = false)
    (hfs : ∀ f ∈ fs, f.vmin = 0 ∧ f.vmax = none ∧ f.ty ≠ .rwi) :
    regWrite o v a {} fu d = (busAction (calWr o v a d) (calFields o v a d fs)).acked 0 := by
  simp only [Dev.takes, Bool.and_eq_true, Bool.not_eq_true'] at h
  obtain ⟨⟨hready, hmask⟩, hbcast⟩ := h
  have htime : timeHalf (calWr o v a d) d = none := by
    rw [timeHalf, if_neg (by simp only [calWr]; omega), if_neg (by simp only [calWr]; omega)]
  have hinst : writeInst (calWr o v a d) fs fu d = (0, busAction (calWr o v a d) (calFields o v a d fs)) := by
    rw [writeInst, ignored_calibration hlo hhi, dropCause_calibration d hlo hhi hfs]
    simp only [htime]
    rw [regAction_calibration _ _ _ hlo hhi, calFields]
  rw [regWrite_ready hready _ _ _ _ _ (by omega), servedWrite_one _ _ _ hf hro hmask (by dsimp only; omega)
    (sprRefuses_outside _ _ (.inl (by dsimp only; omega))) hbcast (by dsimp only; omega) (by dsimp only; omega)]
  dsimp only
  rw [← Dev.named, ← calWr, hinst, if_pos rfl]

end CalibrationWrite

/-! ### CAL_CTL (R275, R277, R279) -/

theorem fieldsAt_calCtl : fieldsAt 0x140C = some [F.CAL_CTL_GO, F.CAL_CTL_FORCE, F.CAL_CTL_RETRY] := by decide +kernel

/-- A write of CAL_CTL takes no value into its fields: a bit that is 1 acts. -/
theorem regWrite_calCtl {d : Dev} {a : Acc} (h : d.takes 0x140C a = true) (v : Nat) (fu : Fuses) :
    regWrite 0x140C v a {} fu d =
      (onBit (calWr 0x140C v a d) F.CAL_CTL_RETRY (calRetry (d.named 0x140C a))
        (onBit (calWr 0x140C v a d) F.CAL_CTL_FORCE (calTrigger (d.named 0x140C a) 3 true)
          (onBit (calWr 0x140C v a d) F.CAL_CTL_GO (calTrigger (d.named 0x140C a) 3 false) d))).acked 0 := by
  have hfields : calFields 0x140C v a d [F.CAL_CTL_GO, F.CAL_CTL_FORCE, F.CAL_CTL_RETRY] = d := rfl
  rw [regWrite_calibration v h (by decide) (by decide) fu fieldsAt_calCtl rfl (by decide), hfields]
  rfl

section CalCtl

variable {s : State} {a : Acc} (h : s.dev.takes 0x140C a = true)

include h

theorem exec_calGo_of_takes :
    exec (.calGo a) s = .next (s.withDev ((calTrigger (s.dev.named 0x140C a) 3 false s.dev).acked 0)) := by
  rw [exec, execCalGo, State.upd_eq, regWrite_calCtl h]
  simp [onBit_calWr, fld, F.CAL_CTL_GO, F.CAL_CTL_FORCE, F.CAL_CTL_RETRY]

theorem exec_calForce_of_takes :
    exec (.calForce a) s = .next (s.withDev ((calTrigger (s.dev.named 0x140C a) 3 true s.dev).acked 0)) := by
  rw [exec, execCalForce, State.upd_eq, regWrite_calCtl h]
  simp [onBit_calWr, fld, F.CAL_CTL_GO, F.CAL_CTL_FORCE, F.CAL_CTL_RETRY]

theorem exec_calRetry_of_takes :
    exec (.calRetry a) s = .next (s.withDev ((calRetry (s.dev.named 0x140C a) s.dev).acked 0)) := by
  rw [exec, execCalRetry, State.upd_eq, regWrite_calCtl h]
  simp [onBit_calWr, fld, F.CAL_CTL_GO, F.CAL_CTL_FORCE, F.CAL_CTL_RETRY]

end CalCtl

/-! ### CAL_POL (R17, R21, R287) -/

theorem fieldsAt_calPol : fieldsAt 0x1408 = some [F.CAL_POL_POLICY] := by decide +kernel

/-- Fields at different places at one index do not share a key. -/
theorem key_ne_of_place {f g : Fld} (i : Nat) (h : f.key 0 ≠ g.key 0) : f.key i ≠ g.key i := fun e => by
  simp only [Fld.key, Nat.add_right_cancel_iff] at e
  exact h (by rw [Fld.key, Fld.key, e])

theorem look_setShadow_self (f : Fld) (v i : Nat) (d : Dev) :
    look (setShadow f v i d).shadow (f.key i) = some (v % 2 ^ f.w) := look_ins_self _ _ _

theorem look_setShadow_ne {f g : Fld} (v i : Nat) (d : Dev) (h : f.key 0 ≠ g.key 0) :
    look (setShadow f v i d).shadow (g.key i) = look d.shadow (g.key i) := look_ins_ne _ _ (key_ne_of_place i h)

/-- COMMIT_STAT lies below every register of the windows. -/
theorem rd_commitStat {f : Fld} {i : Nat} (d : Dev) (h : F.COMMIT_STAT_WAIT.key 0 < f.key i) :
    (commitStat d).rd f i = d.rd f i := by
  have hpend : F.COMMIT_STAT_PEND.key 0 < F.COMMIT_STAT_WAIT.key 0 := by decide
  rw [commitStat, Dev.rd_wr_ne _ _ (by omega), Dev.rd_wr_ne _ _ (by omega)]

/-- COMMIT_STAT is the only register that follows the shadows. -/
theorem onlyAt_commitStat {rs : List (Nat × Nat)} (d : Dev) (h : ∃ r ∈ rs, r.1 ≤ 0x14 ∧ 0x14 ≤ r.2) :
    d.onlyAt rs (commitStat d) :=
  Dev.onlyAt_wr (Dev.onlyAt_wr (d.onlyAt_refl rs) F.COMMIT_STAT_PEND _ 0 h) F.COMMIT_STAT_WAIT _ 0 h

/-- AUTO, DTEMP and PERIOD of a calibration policy (R287). -/
def polAuto (p : Nat) : Nat := if p = 3 then 0 else 1
def polDtemp (p : Nat) : Nat := if p = 1 then 12 else if p = 2 then 4 else 8
def polPeriod (p : Nat) : Nat := if p = 2 then 10 else 0

/-- The shadows that a write of policy `p` leaves on a channel. -/
def polShadows (p c : Nat) (d : Dev) : Dev :=
  setShadow F.CAL_CFG_AUTO (polAuto p) c (setShadow F.CAL_CFG_DTEMP (polDtemp p) c
    (setShadow F.CAL_CFG2_PERIOD (polPeriod p) c (setShadow F.CAL_POL_POLICY p c d)))

theorem look_polShadows (p c : Nat) (d : Dev) :
    look (polShadows p c d).shadow (F.CAL_CFG_AUTO.key c) = some (polAuto p) ∧
      look (polShadows p c d).shadow (F.CAL_CFG_DTEMP.key c) = some (polDtemp p) ∧
      look (polShadows p c d).shadow (F.CAL_CFG2_PERIOD.key c) = some (polPeriod p) ∧
      look (polShadows p c d).shadow (F.CAL_POL_POLICY.key c) = some (p % 4) := by
  have hAuto : polAuto p % 2 ^ F.CAL_CFG_AUTO.w = polAuto p := by unfold polAuto; split <;> rfl
  have hDtemp : polDtemp p % 2 ^ F.CAL_CFG_DTEMP.w = polDtemp p := by unfold polDtemp; split; rfl; split <;> rfl
  have hPeriod : polPeriod p % 2 ^ F.CAL_CFG2_PERIOD.w = polPeriod p := by unfold polPeriod; split <;> rfl
  refine ⟨?auto, ?dtemp, ?period, ?policy⟩
  case auto => rw [polShadows, look_setShadow_self, hAuto]
  case dtemp => rw [polShadows, look_setShadow_ne _ _ _ (by decide), look_setShadow_self, hDtemp]
  case period =>
    rw [polShadows, look_setShadow_ne _ _ _ (by decide), look_setShadow_ne _ _ _ (by decide), look_setShadow_self, hPeriod]
  case policy =>
    rw [polShadows, look_setShadow_ne _ _ _ (by decide), look_setShadow_ne _ _ _ (by decide),
      look_setShadow_ne _ _ _ (by decide), look_setShadow_self]
    rfl

theorem calFields_calPol (v : Nat) (a : Acc) (d : Dev) :
    calFields 0x1408 v a d [F.CAL_POL_POLICY] = commitStat (polShadows (v % 4) (d.named 0x1408 a) d) := by
  have hget : (calWr 0x1408 v a d).get F.CAL_POL_POLICY = v % 4 := by simp [calWr, Wr.get, fld, F.CAL_POL_POLICY]
  have hfield : takeField (calWr 0x1408 v a d) F.CAL_POL_POLICY d =
      setShadow F.CAL_POL_POLICY (v % 4) (d.named 0x1408 a) d := by rw [← hget]; rfl
  simp only [calFields, Dev.each_cons, Dev.each_nil, hfield]
  rfl

/-- A write of CAL_POL does nothing beyond its shadows and COMMIT_STAT. -/
theorem regWrite_calPol {d : Dev} {a : Acc} (h : d.takes 0x1408 a = true) (v : Nat) (fu : Fuses) :
    regWrite 0x1408 v a {} fu d = (commitStat (polShadows (v % 4) (d.named 0x1408 a) d)).acked 0 := by
  rw [regWrite_calibration v h (by decide) (by decide) fu fieldsAt_calPol rfl (by decide), calFields_calPol]
  rfl

theorem exec_calPolWrite_of_takes {s : State} {a : Acc} (h : s.dev.takes 0x1408 a = true) (v : Word) :
    exec (.calPolWrite v a) s =
      .next (s.withDev ((commitStat (polShadows (v.toNat % 4) (s.dev.named 0x1408 a) s.dev)).acked 0)) := by
  rw [exec, execCalPolWrite, State.upd_eq, regWrite_calPol h]

/-! ### A channel's calibration state -/

@[simp] theorem chn_setCal (d : Dev) (c : Nat) (x : CalSt) : (d.setCal c x).chn c = { d.chn c with cal := x } :=
  d.chn_setCh c _

@[simp] theorem rd_setCal (d : Dev) (c : Nat) (x : CalSt) (f : Fld) (i : Nat) : (d.setCal c x).rd f i = d.rd f i := rfl

theorem setCal_of_chn {d : Dev} {c : Nat} {h : Ch} (hc : d.chn c = h) (x : CalSt) :
    d.setCal c x = { d with chs := ins d.chs c { h with cal := x } } := by subst hc; rfl

/-- With no request at Lift there is none to withdraw. -/
theorem calUnask_of_reqs_nil {d : Dev} (h : d.lift.reqs = []) (c : Nat) : calUnask c d = d := by
  simp [calUnask, candidate, h]

/-! ### A new run (R275, R277) -/

/-- A channel's calibration state as a run that `trig` makes due begins. -/
def dueCal (c trig : Nat) (d : Dev) : CalSt :=
  { d.cal c with
    step := 1, trig := trig, forced := false
    wasValid := calState d c == 1 || (calState d c != 0 && (d.cal c).wasValid)
    long := (d.cal c).long || trig == 2 || trig == 4, more := [] }

/-- A run made due, before a force. -/
def calDue (c trig : Nat) (d : Dev) : Dev := (d.setCal c (dueCal c trig d)).wr F.CAL_STAT_STATE 2 c

theorem chn_calDue (c trig : Nat) (d : Dev) : (calDue c trig d).chn c = { d.chn c with cal := dueCal c trig d } := by
  rw [calDue, Dev.chn_wr, chn_setCal]

theorem state_calDue (c trig : Nat) (d : Dev) : (calDue c trig d).rd F.CAL_STAT_STATE c = 2 := by
  rw [calDue, Dev.rd_wr]; rfl

theorem rd_calDue {f : Fld} (c trig : Nat) (d : Dev) (h : F.CAL_STAT_STATE.key 0 ≠ f.key 0) :
    (calDue c trig d).rd f c = d.rd f c := by
  rw [calDue, rd_wr_place _ _ _ h, rd_setCal]

theorem calForce_of_unforced {d : Dev} {c : Nat} (h : (d.cal c).forced = false) :
    calForce c d = (d.setCal c { d.cal c with forced := true }).inc F.CAL_CNT2_FORCED c := by
  simp [calForce, h]

section Force

variable {d : Dev} {c : Nat} (h : (d.cal c).forced = false)

include h

theorem chn_calForce : (calForce c d).chn c = { d.chn c with cal := { d.cal c with forced := true } } := by
  rw [calForce_of_unforced h, Dev.inc, Dev.chn_wr, chn_setCal]

theorem forced_calForce : (calForce c d).rd F.CAL_CNT2_FORCED c = satAdd 16 (d.rd F.CAL_CNT2_FORCED c) 1 := by
  rw [calForce_of_unforced h, Dev.rd_inc, rd_setCal]
  rfl

theorem rd_calForce {f : Fld} (hf : F.CAL_CNT2_FORCED.key 0 ≠ f.key 0) : (calForce c d).rd f c = d.rd f c := by
  rw [calForce_of_unforced h, Dev.inc, rd_wr_place _ _ _ hf, rd_setCal]

end Force

theorem calBegin_of_idle {d : Dev} {c : Nat} (hs : calState d c ≠ 3) (hr : d.lift.reqs = []) (trig : Nat) (force : Bool) :
    calBegin c trig force d = if force then calForce c (calDue c trig d) else calDue c trig d := by
  simp only [calBegin, if_neg hs, calUnask_of_reqs_nil (d := d.setCal c _) hr]
  rfl

theorem calTrigger_of_gaveUp {d : Dev} {c trig : Nat} (ht : trig ≠ 2) (hs : calState d c = 5) (force : Bool) :
    calTrigger c trig force d = d := by
  simp [calTrigger, ht, hs]

/-- On a channel whose calibration is valid a trigger begins a run: firmware's always, an automatic one where AUTO is 1 and no
loopback holds the trims (R275, R283). -/
theorem calTrigger_of_valid {d : Dev} {c trig : Nat} (ht : trig ≠ 2) (hs : calState d c = 1)
    (ha : trig < 2 → d.on F.CAL_CFG_AUTO c = true ∧ d.on F.TST_LBCTL_DEPTH c = false) (hr : d.lift.reqs = [])
    (force : Bool) :
    calTrigger c trig force d = if force then calForce c (calDue c trig d) else calDue c trig d := by
  have hbegins : ¬ (trig < 2 ∧ (calState d c = 4 ∨ (!d.on F.CAL_CFG_AUTO c) = true ∨ d.on F.TST_LBCTL_DEPTH c = true)) := by
    rintro ⟨hlt, hbar⟩
    obtain ⟨hauto, hdepth⟩ := ha hlt
    simp [hs, hauto, hdepth] at hbar
  rw [← calBegin_of_idle (by rw [hs]; decide) hr]
  simp only [calTrigger, if_neg ht, if_neg hbegins]
  simp [hs]

/-- Trigger code 3, firmware's. -/
theorem calTrigger_three_of_valid {d : Dev} {c : Nat} (hs : calState d c = 1) (hr : d.lift.reqs = []) (force : Bool) :
    calTrigger c 3 force d = if force then calForce c (calDue c 3 d) else calDue c 3 d :=
  calTrigger_of_valid (by decide) hs (fun hlt => absurd hlt (by decide)) hr force

theorem calRetry_of_gaveUp {d : Dev} {c : Nat} (hs : calState d c = 5) (hr : d.lift.reqs = []) :
    calRetry c d = calDue c 3 (d.wr F.CAL_STAT_ABORTS 0 c) := by
  have hkept : calState (d.wr F.CAL_STAT_ABORTS 0 c) c = 5 := (rd_wr_place d 0 c (by decide)).trans hs
  rw [calRetry, if_pos hs, calBegin_of_idle (by omega) (by exact hr), if_neg (by decide)]

theorem calRetry_elsewhere {d : Dev} {c : Nat} (hs : calState d c ≠ 5) : calRetry c d = d := if_neg hs

/-! ### The timers (R275–R278) -/

section Timers

variable {s : State} {c : Fin 32} (hlive : s.dev.live = true)

include hlive

theorem exec_calPeriodExpiry_of_live : exec (.calPeriodExpiry c) s = .next (s.withDev (calPeriod c s.dev)) := by
  rw [exec, execCalPeriodExpiry, State.upd_eq, whenLive_live _ hlive]

theorem exec_calGapTimeout_of_live : exec (.calGapTimeout c) s = .next (s.withDev (calGapTimeout c s.dev)) := by
  rw [exec, execCalGapTimeout, State.upd_eq, whenLive_live _ hlive]

theorem exec_calForceTimeout_of_live : exec (.calForceTimeout c) s = .next (s.withDev (calForceTimeout c s.dev)) := by
  rw [exec, execCalForceTimeout, State.upd_eq, whenLive_live _ hlive]

theorem exec_calBackoffEnd_of_live : exec (.calBackoffEnd c) s = .next (s.withDev (calBackoffEnd c s.dev)) := by
  rw [exec, execCalBackoffEnd, State.upd_eq, whenLive_live _ hlive]

end Timers

/-- An effect that leaves the block as it is does so whether or not the CCLK domain acts. -/
theorem whenLive_of_eq {f : Dev → Dev} {d : Dev} (h : f d = d) : whenLive f d = d := by simp [whenLive, h]

theorem calPeriod_of_none {d : Dev} {c : Nat} (h : d.rd F.CAL_CFG2_PERIOD c = 0) : calPeriod c d = d := by
  simp [calPeriod, Dev.on, h]

theorem calGapTimeout_elsewhere {d : Dev} {c : Nat} (hs : calState d c ≠ 3) : calGapTimeout c d = d :=
  if_neg fun h => hs h.1

/-- Between two steps the run goes back to step 1. -/
theorem calGapTimeout_between {d : Dev} {c : Nat} (hs : calState d c = 3) (hctx : calCtx d c = none)
    (hstep : 1 < (d.cal c).step) (hr : d.lift.reqs = []) :
    calGapTimeout c d = d.setCal c { d.cal c with step := 1, more := [] } := by
  rw [calGapTimeout, if_pos ⟨hs, by rw [hctx]; rfl, hstep⟩, calRestart, calUnask_of_reqs_nil (by exact hr)]

theorem calForceTimeout_of_run {d : Dev} {c : Nat} (hs : calState d c = 2 ∨ calState d c = 3) :
    calForceTimeout c d = calForce c d := if_pos hs

theorem calBackoffEnd_of_backoff {d : Dev} {c : Nat} (hs : calState d c = 4) :
    calBackoffEnd c d = (d.setCal c { d.cal c with step := 1 }).wr F.CAL_STAT_STATE 2 c := if_pos hs

/-- Settles O24: on a valid channel a trigger is `calDue`, then the force where it has one; a retry is `calDue` after ABORTS;
a policy is four shadows; and each timer acts in the states its rule names. -/
theorem calibrationTriggers : Obligations.CalibrationTriggers := by
  refine ⟨?go, ?force, ?goGaveUp, ?retry, ?retryElsewhere, ?policy, ?period, ?noPeriod, ?gap, ?noRun, ?forceTime, ?backoff⟩
  case go =>
    intro s a h hs hr
    refine ⟨_, exec_calGo_of_takes h, ?_⟩
    rw [calTrigger_three_of_valid hs hr, if_neg (by decide)]
    have hchn := chn_calDue (s.dev.named 0x140C a) 3 s.dev
    exact ⟨state_calDue _ _ _, congrArg (·.cal.step) hchn, congrArg (·.cal.trig) hchn, congrArg (·.cal.forced) hchn,
      congrArg (·.ctxs) hchn⟩
  case force =>
    intro s a h hs hr
    refine ⟨_, exec_calForce_of_takes h, ?_⟩
    rw [calTrigger_three_of_valid hs hr, if_pos rfl]
    generalize s.dev.named 0x140C a = c
    have hdue := chn_calDue c 3 s.dev
    have hunforced : ((calDue c 3 s.dev).cal c).forced = false := congrArg (·.cal.forced) hdue
    have hforced := chn_calForce hunforced
    refine ⟨(rd_calForce hunforced (by decide)).trans (state_calDue _ _ _),
      (congrArg (·.cal.step) hforced).trans (congrArg (·.cal.step) hdue), congrArg (·.cal.forced) hforced, ?_⟩
    rw [State.withDev_dev, Dev.rd_acked, forced_calForce hunforced, rd_calDue _ _ _ (by decide)]
  case goGaveUp =>
    intro s a h hs
    rw [exec_calGo_of_takes h, calTrigger_of_gaveUp (by decide) hs]
  case retry =>
    intro s a h hs hr
    refine ⟨_, exec_calRetry_of_takes h, ?_⟩
    rw [calRetry_of_gaveUp hs hr]
    generalize s.dev.named 0x140C a = c
    refine ⟨state_calDue _ _ _, ?_, congrArg (·.cal.step) (chn_calDue c 3 _)⟩
    rw [State.withDev_dev, Dev.rd_acked, rd_calDue _ _ _ (by decide), Dev.rd_wr]
    rfl
  case retryElsewhere =>
    intro s a h hs
    rw [exec_calRetry_of_takes h, calRetry_elsewhere hs]
  case policy =>
    intro s v a c h hc
    subst hc
    obtain ⟨hAuto, hDtemp, hPeriod, hPolicy⟩ := look_polShadows (v.toNat % 4) (s.dev.named 0x1408 a) s.dev
    have hKept := onlyAt_commitStat (rs := [(0x14, 0x14), (0x1408, 0x1408)])
      (polShadows (v.toNat % 4) (s.dev.named 0x1408 a) s.dev) (by decide)
    have hAbove : F.COMMIT_STAT_WAIT.key 0 < F.CAL_CFG_AUTO.key (s.dev.named 0x1408 a) :=
      Nat.lt_of_lt_of_le (by decide) (Nat.le_add_right _ _)
    exact ⟨_, exec_calPolWrite_of_takes h v, hAuto, hDtemp, hPeriod, hPolicy.trans (by rw [Nat.mod_mod]),
      rd_commitStat _ hAbove, rfl, hKept⟩
  case period =>
    intro s c hlive hs hperiod hauto hdepth hr
    refine ⟨_, exec_calPeriodExpiry_of_live hlive, ?_⟩
    rw [calPeriod, if_pos hperiod, calTrigger_of_valid (by decide) hs (fun _ => ⟨hauto, hdepth⟩) hr, if_neg (by decide)]
    have hchn := chn_calDue c 1 s.dev
    exact ⟨state_calDue _ _ _, congrArg (·.cal.trig) hchn, congrArg (·.cal.step) hchn⟩
  case noPeriod =>
    intro s c h
    rw [exec, execCalPeriodExpiry, State.upd_eq, whenLive_of_eq (calPeriod_of_none h)]
  case gap =>
    intro s c h hlive hs hc hctx hstep hr
    have hcal : s.dev.cal c = h.cal := congrArg Ch.cal hc
    rw [exec_calGapTimeout_of_live hlive, calGapTimeout_between hs hctx (by rw [hcal]; exact hstep) hr, hcal, setCal_of_chn hc]
  case noRun =>
    intro s c h
    rw [exec, execCalGapTimeout, State.upd_eq, whenLive_of_eq (calGapTimeout_elsewhere h)]
  case forceTime =>
    intro s c h hlive hs hc hf
    have hcal : s.dev.cal c = h.cal := congrArg Ch.cal hc
    rw [exec_calForceTimeout_of_live hlive, calForceTimeout_of_run hs, calForce_of_unforced (by rw [hcal]; exact hf), hcal,
      setCal_of_chn hc]
    rfl
  case backoff =>
    intro s c h hlive hs hc
    have hcal : s.dev.cal c = h.cal := congrArg Ch.cal hc
    rw [exec_calBackoffEnd_of_live hlive, calBackoffEnd_of_backoff hs, hcal, setCal_of_chn hc]

/-! ### A search that passes while a channel is in a loopback (R270, R283) -/

theorem exec_pzqSearchEnd_of_live {s : State} (cl : Fin 4) (pu pd : Fin 64) (h : s.dev.live = true) :
    exec (.pzqSearchEnd cl pu pd) s = .next (s.withDev (pzqEnd cl pu pd s.dev)) := by
  rw [exec, execPzqSearchEnd, State.upd_eq, whenLive_live _ h]

/-- A search runs in cluster 0, and its channel 3 is in loopback depth 1. -/
def loopbackSearch : State := { dev := (({} : Dev).wr F.PZQ_STAT_BUSY 1 0).wr F.TST_LBCTL_DEPTH 1 3 }

theorem timpPu_pzqEnd_loopbackSearch : (pzqEnd 0 31 40 loopbackSearch.dev).rd F.CAL_TIMP_PU 3 = 0 := by decide +kernel

/-- Refutes O23: the clause of a search that passes has no hypothesis on TST_LBCTL.DEPTH, and a channel in a loopback depth gets
no target (R283). A search of `loopbackSearch` that ends at 31 leaves the target of channel 3 at 0, where the clause has 31. -/
theorem not_padImpedance : ¬ Obligations.PadImpedance := by
  rintro ⟨-, -, hPasses, -⟩
  obtain ⟨t, ht, -, -, -, -, -, -, hTargets, -⟩ := hPasses loopbackSearch 0 31 40 (by decide) (by decide) (by decide) (by decide)
    (by decide) (by decide) rfl
  have hTarget : t.dev.rd F.CAL_TIMP_PU 3 = 31 := (hTargets 3).1
  rw [exec_pzqSearchEnd_of_live 0 31 40 (by decide)] at ht
  rw [← Host.Outcome.next.inj ht, State.withDev_dev] at hTarget
  exact absurd (timpPu_pzqEnd_loopbackSearch.symm.trans hTarget) (by decide)

/-! ### A Glide step in a loopback (R280, R283) -/

/-- Refutes O25: its clause of a Glide step has no hypothesis on TST_LBCTL.DEPTH, and a channel in a loopback depth keeps its
trims (R283). The trim of `loopbackGlide` stays at 0 where the clause has it step to 1. -/
theorem not_glideAndPhys : ¬ Obligations.GlideAndPhys := by
  rintro ⟨hStep, -⟩
  obtain ⟨t, ht, hTrim, -⟩ := hStep loopbackGlide 0 (F.CAL_RDLY_D.ix 0) (F.CAL_TRDLY_D.ix 0) (by decide) (by decide) (by decide)
    (by decide) (by decide) (by decide) (by decide) (by decide)
  rw [exec_glideTimer_of_loopback (by decide) (by decide) (by decide)] at ht
  rw [← Host.Outcome.next.inj ht, State.withDev_dev, rd_gliding_ne _ (by decide)] at hTrim
  exact absurd hTrim (by decide)

end Sys2Proof.Machine
end

section
/-!
PROOFS. The family of interrupts, the register port, the ring identity and reset (R316, R342, R440, R480–R489): what a target's
best candidate is, the state reset leaves, and accesses at the port that take no unit's action.
-/

namespace Sys2Proof.Machine

-- The kernel evaluations below run one after another.
set_option Elab.async false

/-! ### A target's best candidate (R316) -/

theorem beats_total {d : Dev} {a b : Nat} (h : beats d a b = false) : a = b ∨ beats d b a = true := by
  simp only [beats, Bool.or_eq_false_iff, Bool.and_eq_false_iff, decide_eq_false_iff_not, Bool.or_eq_true, Bool.and_eq_true,
    decide_eq_true_eq, beq_iff_eq, beq_eq_false_iff_ne] at h ⊢
  omega

theorem beats_trans {d : Dev} {a b c : Nat} (h : beats d a b = true) (g : beats d b c = true) : beats d a c = true := by
  simp only [beats, Bool.or_eq_true, Bool.and_eq_true, decide_eq_true_eq, beq_iff_eq] at h g ⊢
  omega

theorem bestOf_eq_none {d : Dev} {xs : List Nat} : bestOf d xs = none ↔ xs = [] := by
  cases xs with
  | nil => simp [bestOf]
  | cons x xs =>
    simp only [bestOf]
    split
    · simp
    · split <;> simp

/-- The best of a list is one of it, and no other of the list beats it. -/
theorem bestOf_eq_some {d : Dev} {xs : List Nat} {m : Nat} (h : bestOf d xs = some m) :
    m ∈ xs ∧ ∀ x ∈ xs, x = m ∨ beats d m x = true := by
  induction xs generalizing m with
  | nil => cases h
  | cons x xs ih =>
    simp only [bestOf] at h
    split at h
    next hr =>
      obtain rfl := Option.some.inj h
      simp [bestOf_eq_none.mp hr]
    next b hr =>
      obtain ⟨hb, hall⟩ := ih hr
      split at h
      next hx =>
        obtain rfl := Option.some.inj h
        refine ⟨List.mem_cons_self, fun y hy => ?_⟩
        rcases List.mem_cons.mp hy with rfl | hy
        · exact .inl rfl
        · rcases hall y hy with rfl | hy
          · exact .inr hx
          · exact .inr (beats_trans hx hy)
      next hx =>
        obtain rfl := Option.some.inj h
        refine ⟨List.mem_cons_of_mem _ hb, fun y hy => ?_⟩
        rcases List.mem_cons.mp hy with rfl | hy
        · exact beats_total (Bool.eq_false_iff.mpr hx)
        · exact hall y hy

theorem mem_bitsOf {n m i : Nat} : i ∈ bitsOf n m ↔ i < n ∧ bit m i = true := by simp [bitsOf, bit]

theorem mem_levelIds {s : Nat} :
    s ∈ levelIds ↔ (0x40 ≤ s ∧ s < 0x60) ∨ s ∈ [0x66, 0x68, 0x69, 0x6A, 0x6B, 0x7D, 0x7F, 0x80, 0xA2] := by
  simp only [levelIds, List.mem_append, List.mem_map, List.mem_range]
  refine or_congr ⟨?_, fun h => ⟨s - 0x40, by omega⟩⟩ Iff.rfl
  rintro ⟨n, hn, rfl⟩
  omega

/-- A source outside the list of level sources has no level. -/
theorem mem_levelIds_of_rawLevel {d : Dev} {s : Nat} (h : rawLevel d s = true) : s ∈ levelIds := by
  refine Decidable.byContradiction fun hs => ?_
  simp only [mem_levelIds, List.mem_cons, List.not_mem_nil, or_false] at hs
  rw [rawLevel, if_neg (by omega), if_neg (by omega), if_neg (by omega), if_neg (by omega), if_neg (by omega), if_neg (by omega),
    if_neg (by omega), if_neg (by omega)] at h
  cases h

theorem lt_of_mem_levelIds {s : Nat} (h : s ∈ levelIds) : s < 256 := by
  simp only [mem_levelIds, List.mem_cons, List.not_mem_nil, or_false] at h
  omega

theorem mem_pendingIds_of_intPending {d : Dev} {s : Nat} (hs : s < 256) (h : intPending d s = true) : s ∈ pendingIds d := by
  simp only [intPending] at h
  simp only [pendingIds, List.mem_append, List.mem_filter, mem_bitsOf]
  split at h
  next hl =>
    rw [Bool.and_eq_true] at h
    exact .inr ⟨mem_levelIds_of_rawLevel h.2, h.2⟩
  next hl => exact .inl ⟨⟨hs, h⟩, by simp [hl]⟩

theorem lt_of_mem_pendingIds {d : Dev} {s : Nat} (h : s ∈ pendingIds d) : s < 256 := by
  simp only [pendingIds, List.mem_append, List.mem_filter, mem_bitsOf] at h
  rcases h with ⟨⟨h, -⟩, -⟩ | ⟨h, -⟩
  · exact h
  · exact lt_of_mem_levelIds h

theorem intPending_of_presentable {d : Dev} {t s : Nat} (h : presentable d t s = true) : intPending d s = true := by
  simp only [presentable, presentableRaw, Bool.and_eq_true] at h
  obtain ⟨⟨⟨⟨⟨⟨-, hp⟩, -⟩, -⟩, -⟩, -⟩, -⟩ := h
  exact hp

/-- What `bestFor` chooses among: the presentable sources that `skip` does not name. -/
theorem mem_candidates {d : Dev} {t s : Nat} {skip : List Nat} :
    s ∈ (pendingIds d).filter (fun s => presentable d t s && !skip.contains s) ↔
      s ∈ pendingIds d ∧ presentable d t s = true ∧ s ∉ skip := by
  simp [List.mem_filter]

/-- Settles O60: `bestOf` chooses a maximum of `beats`, and every presentable source is in the list it chooses from. -/
theorem bestInterruptCandidate : Obligations.BestInterruptCandidate := by
  unfold Obligations.BestInterruptCandidate
  refine ⟨fun s k skip m r hbest hr hskip => ?_, fun s k skip r hbest hskip => ?_⟩
  · obtain ⟨hm, hall⟩ := bestOf_eq_some hbest
    obtain ⟨hpend, hpres, hout⟩ := mem_candidates.mp hm
    have hmem := mem_pendingIds_of_intPending r.isLt (intPending_of_presentable hr)
    refine ⟨hpres, hout, lt_of_mem_pendingIds hpend, ?_⟩
    rcases hall r (mem_candidates.mpr ⟨hmem, hr, hskip⟩) with h | h
    · rw [h]; exact .inr ⟨rfl, Nat.le_refl m⟩
    · simp only [beats, Bool.or_eq_true, Bool.and_eq_true, decide_eq_true_eq, beq_iff_eq] at h
      exact h.imp id fun h => ⟨h.1.symm, Nat.le_of_lt h.2⟩
  · rw [Bool.eq_false_iff]
    intro hr
    have hmem := mem_pendingIds_of_intPending r.isLt (intPending_of_presentable hr)
    have := mem_candidates.mpr ⟨hmem, hr, hskip⟩
    rw [bestOf_eq_none.mp hbest] at this
    cases this

/-! ### Reset (R342) -/

/-- The register file reset leaves holds one entry: tenant 0 is enabled, and every other tenant's EN reads its reset value. -/
theorem rd_tnCfgEn_reset (n : Nat) : State.reset.dev.rd F.TN_CFG_EN n = if n = 0 then 1 else 0 := by
  cases n with
  | zero => rfl
  | succ n =>
    have hkey : F.TN_CFG_EN.key 0 ≠ F.TN_CFG_EN.key (n + 1) := by simp [Fld.key]
    simp only [Dev.rd, State.reset, look, if_neg hkey, Option.getD_none]
    rfl

/-- Settles O56: the state is a closed term, but for the tenants, of which there is one for each number. -/
theorem resetState : Obligations.ResetState := by
  unfold Obligations.ResetState
  exact ⟨rfl, by decide, by decide, by decide, by decide, rfl, by decide, by decide, rd_tnCfgEn_reset, rfl, rfl, rfl,
    by unfold Fuses.ok; decide, by decide, rfl⟩

/-! ### Accesses that take no action (R480, R481) -/

/-- Only a write of SC_GO may blow a fuse. -/
theorem portWrite_fst {o : Nat} (ho : o ≠ 0xA240) (v : Nat) (a : Acc) (e : PortEnv) (fu : Fuses) (d : Dev) :
    (portWrite o v a e fu d).1 = fu := by
  have hgo : (o == 0xA240) = false := by simp [ho]
  simp only [portWrite, portAccess, accessNow, writeNow, hgo, Bool.false_and, Bool.false_eq_true, if_false, if_true]
  split
  · rfl
  · split
    · rfl
    · rfl
    · split <;> rfl
    · rfl

theorem exec_registerWrite {o : Nat} (ho : o ≠ 0xA240) (v : Word) (a : Acc) (e : PortEnv) (s : State) :
    exec (.registerWrite o v a e) s = .next (s.withDev (regWrite o v.toNat a e s.fuse s.dev)) := by
  show Host.Outcome.next (s.updF (portWrite o v.toNat a e)) = _
  rw [State.updF]
  simp only [portWrite_fst ho]
  rfl

theorem exec_registerRead (o : Nat) (a : Acc) (m : Mem) (s : State) :
    exec (.registerRead o a m) s = .next (s.withDev (portRead o a m s.dev)) := rfl

theorem portDone_zero (d : Dev) : portDone 0 d = d.acked 0 := rfl

/-- A write of an offset without a register is acknowledged and does nothing else (R481). -/
theorem regWrite_unlisted {o : Nat} {d : Dev} (hf : fieldsAt o = none) (hr : portRoute o d = .served ∨ portRoute o d = .refused)
    (v : Nat) (a : Acc) (e : PortEnv) (fu : Fuses) : regWrite o v a e fu d = d.acked 0 := by
  have hgo : (o == 0xA240) = false := by
    rw [beq_eq_false_iff_ne]
    rintro rfl
    exact absurd hf (by decide +kernel)
  rcases hr with hr | hr <;>
    simp [regWrite, portWrite, portAccess, accessNow, writeNow, hr, servedWrite, hf, hgo, portDone_zero]

/-- A read of an offset without a register gives 0 and does nothing else (R481). -/
theorem portRead_unlisted {o : Nat} {d : Dev} (hf : fieldsAt o = none) (hr : portRoute o d = .served ∨ portRoute o d = .refused)
    (a : Acc) (m : Mem) : portRead o a m d = d.acked 0 := by
  rcases hr with hr | hr <;> simp [portRead, portAccess, accessNow, readNow, hr, servedRead, hf, portDone_zero]

theorem ne_scGo_of_unlisted {o : Nat} (hf : fieldsAt o = none) : o ≠ 0xA240 := by
  rintro rfl
  exact absurd hf (by decide +kernel)

/-- Settles O57: `fieldsAt` names no register, and the port answers 0. -/
theorem unlistedOffsets : Obligations.UnlistedOffsets := by
  unfold Obligations.UnlistedOffsets
  refine ⟨fun s o v a e hf hr => ?_, fun s o a m hf hr => ?_⟩
  · rw [exec_registerWrite (ne_scGo_of_unlisted hf), regWrite_unlisted hf hr]
  · rw [exec_registerRead, portRead_unlisted hf hr]

/-! ### The ring identity (R440) -/

theorem length_leBytes (n v : Nat) : (leBytes n v).length = n := by
  induction n generalizing v with
  | zero => rfl
  | succ n ih => simp [leBytes, ih]

theorem leBytes_zero (n : Nat) : leBytes n 0 = List.replicate n 0 := by
  induction n with
  | zero => rfl
  | succ n ih => simp [leBytes, ih, List.replicate_succ]

/-- A two-byte field of 0 that `a` bytes precede reads 0. -/
theorem leAt_append_zero {x y : List Byte} {n : Nat} (h : x.length = n) : leAt (x ++ leBytes 2 0 ++ y) n 2 = 0 := by
  subst h
  simp [leAt, leBytes_zero, leNat]

theorem instId_of_ringOff {d : Dev} (h : d.on F.RG_CTL_EN = false) : d.instId = 0 := by simp [Dev.instId, h]

theorem leAt_manifestHead {d : Dev} (n : Nat) (h : d.on F.RG_CTL_EN = false) : leAt (manifestHead d n) 8 2 = 0 := by
  simp only [manifestHead, instId_of_ringOff h, List.append_assoc]
  rw [← List.append_assoc, ← List.append_assoc, leAt_append_zero (by simp [length_leBytes])]

theorem leAt_exportHead {d : Dev} (e : Export) (b : Bool) (h : d.on F.RG_CTL_EN = false) : leAt (exportHead d e b) 8 2 = 0 := by
  simp only [exportHead, instId_of_ringOff h, List.append_assoc]
  rw [← List.append_assoc, ← List.append_assoc, leAt_append_zero (by simp [length_leBytes])]

theorem leAt_logRecord {d : Dev} (n v : Nat) (h : d.on F.RG_CTL_EN = false) : leAt (logRecord d n v) 24 2 = 0 := by
  simp only [logRecord, instId_of_ringOff h]
  rw [List.append_assoc, leAt_append_zero (by simp [length_leBytes])]

/-! ### Accepted and dropped writes of registers outside the windows (R482, R488) -/

/-- The error record of a dropped write of a register that only the block has one of. -/
theorem regWrite_dropped_one {d : Dev} {o : Nat} {a : Acc} (h : d.takes o a = true) (v : Nat) (e : PortEnv) (fu : Fuses) {fs : List Fld}
    (hf : fieldsAt o = some fs) (hro : fs.all (fun f => f.ty == .ro) = false) (ho : o ≠ 8 ∧ o ≠ 0xA240 ∧ o ≠ 0xC200 ∧ o ≠ 0x10)
    (hs : sprRefuses { wr := true, off := o, data := v, acc := a, env := e } d = false)
    (hi : ignored { off := o, v := v, inst := d.named o a, acc := a, env := e } d = none)
    (hd : dropCause { off := o, v := v, inst := d.named o a, acc := a, env := e } fs d ≠ 0) :
    regWrite o v a e fu d = (d.writeError o a (errIndex (d.named o a) (selOf o))
      (dropCause { off := o, v := v, inst := d.named o a, acc := a, env := e } fs d)).acked 0 := by
  rw [regWrite_dropped h v e fu hf hro ho hs hi hd, writeErr_eq_writeError_at]

theorem fieldsAt_rgId : fieldsAt 0xB004 = some [F.RG_ID_ID] := by decide +kernel

theorem fieldsAt_rgCtl : fieldsAt 0xB000 = some [F.RG_CTL_EN] := by decide +kernel

/-- Outside the ring nothing owns RG_ID. -/
theorem dropCause_rgId {w : Wr} (ho : w.off = 0xB004) {d : Dev} (h : d.on F.RG_CTL_EN = false) : dropCause w [F.RG_ID_ID] d = 0 := by
  refine dropCause_eq_zero ?_ (idleErr_of_unowned fun f _ _ => ?_) ?_
  · simp [rangeErr, ho, F.RG_ID_ID]
  · simp [ownerBusy, ho, h]
  · simp [unitErr, ho]

/-- Without an ID the ring's unit refuses EN (R440). -/
theorem dropCause_rgCtl {w : Wr} (ho : w.off = 0xB000) {d : Dev} (hen : w.bit F.RG_CTL_EN = true)
    (hid : d.rd F.RG_ID_ID = 0 ∨ d.rd F.RG_ID_ID = 0xFFFF) : dropCause w [F.RG_CTL_EN] d = 3 := by
  have hr : rangeErr w [F.RG_CTL_EN] d = false := by simp [rangeErr, ho, F.RG_CTL_EN]
  have hi : idleErr w [F.RG_CTL_EN] d = false := rfl
  have hu : unitErr w d = true := by rcases hid with hid | hid <;> simp [unitErr, ho, hen, hid]
  simp [dropCause, hr, hi, hu]

theorem regWrite_rgId {d : Dev} {a : Acc} (h : d.takes 0xB004 a = true) (hen : d.on F.RG_CTL_EN = false) (v : Nat) (e : PortEnv)
    (fu : Fuses) : regWrite 0xB004 v a e fu d = (d.wr F.RG_ID_ID (fld v 0 16)).acked 0 := by
  rw [regWrite_takes h v e fu fieldsAt_rgId rfl (by decide) (sprRefuses_outside _ _ (.inr (by dsimp only; omega))) rfl
    (dropCause_rgId rfl hen) (by decide) (by decide) rfl, Dev.each_cons, Dev.each_nil, takeField_plain _ (.inr rfl) rfl]
  rfl

theorem regWrite_rgCtl_noId {d : Dev} {a : Acc} (h : d.takes 0xB000 a = true) {v : Nat} (hv : fld v 0 1 = 1)
    (hid : d.rd F.RG_ID_ID = 0 ∨ d.rd F.RG_ID_ID = 0xFFFF) (e : PortEnv) (fu : Fuses) :
    regWrite 0xB000 v a e fu d = (d.writeError 0xB000 a 0 3).acked 0 := by
  have hen : ({ off := 0xB000, v := v, inst := d.named 0xB000 a, acc := a, env := e } : Wr).bit F.RG_CTL_EN = true := by
    simp only [Wr.bit, Wr.get]; rw [show fld v F.RG_CTL_EN.lo F.RG_CTL_EN.w = 1 from hv]; rfl
  have hd := dropCause_rgCtl (d := d) rfl hen hid
  rw [regWrite_dropped_one h v e fu fieldsAt_rgCtl rfl (by decide) (sprRefuses_outside _ _ (.inr (by dsimp only; omega))) rfl
    (by rw [hd]; decide), hd]
  rfl

theorem exec_rgCtlWrite (v : Word) (a : Acc) (s : State) :
    exec (.rgCtlWrite v a) s = .next (s.withDev (regWrite 0xB000 v.toNat a {} s.fuse s.dev)) := rfl

/-- Settles O58: INST is the two bytes at one place of each header (`leAt_append_zero`); the writes are one accepted and one
dropped write of the port. -/
theorem ringIdentity : Obligations.RingIdentity := by
  unfold Obligations.RingIdentity
  refine ⟨fun s v a e h hen => ?_, fun s n hen => leAt_manifestHead n hen, fun s e b hen => leAt_exportHead e b hen,
    fun s n v hen => leAt_logRecord n v hen, fun s v a h hv hid => ?_, fun s v a e h hv hid => ?_⟩
  · rw [exec_registerWrite (by decide), regWrite_rgId h hen]
  · rw [exec_rgCtlWrite, regWrite_rgCtl_noId h hv hid]
  · rw [exec_registerWrite (by decide), regWrite_rgCtl_noId h hv hid]

/-! ### The register port (R401, R480–R489) -/

theorem fieldsAt_scData : ∀ n : Fin 16, fieldsAt (0xA200 + 4 * n.val) = some [F.SC_DATA_DATA.ix n] := by decide +kernel

theorem fieldsAt_updRcvd : fieldsAt 0xA114 = some [F.UPD_RCVD_BYTES] := by decide +kernel

theorem fieldsAt_tstLbctl :
    fieldsAt 0xC100 = some [F.TST_LBCTL_DEPTH, F.TST_LBCTL_RUN, F.TST_LBCTL_CPROF, F.TST_LBCTL_SEED] := by decide +kernel

section ScData

variable {o : Nat} (hlo : 0xA200 ≤ o) (hhi : o ≤ 0xA23C)

include hlo hhi

/-- No select multiplies the words of the sealed command (R487). -/
theorem selOf_scData : selOf o = .one := by
  rw [selOf, if_neg (by omega), if_neg (by omega), if_neg (by omega), if_neg (by omega), if_neg (by omega), if_neg (by omega),
    if_neg (by omega)]

theorem named_scData (d : Dev) (a : Acc) : d.named o a = 0 := by rw [Dev.named, selOf_scData hlo hhi]; rfl

end ScData

theorem dropCause_scData {w : Wr} (hlo : 0xA200 ≤ w.off) (hhi : w.off ≤ 0xA23C) (n : Nat) (d : Dev) :
    dropCause w [F.SC_DATA_DATA.ix n] d = 0 := by
  refine dropCause_eq_zero ?_ rfl ?_
  · simp only [rangeErr, Fld.ix, F.SC_DATA_DATA]
    simp
    omega
  · simp only [unitErr]
    simp
    omega

theorem regWrite_scData {d : Dev} {a : Acc} (n : Fin 16) (h : d.takes (0xA200 + 4 * n.val) a = true) (v : Nat) (e : PortEnv)
    (fu : Fuses) : regWrite (0xA200 + 4 * n.val) v a e fu d = (d.wr (F.SC_DATA_DATA.ix n) v).acked 0 := by
  have hn := n.isLt
  have hig (w : Wr) (ho : w.off = 0xA200 + 4 * n.val) : ignored w d = none := by
    rw [ignored, if_neg (by omega), if_neg (by omega), if_neg (by omega), if_neg (by omega)]
  have hact (w : Wr) (ho : w.off = 0xA200 + 4 * n.val) (x : Dev) : regAction w fu d x = x := by
    rw [regAction, if_neg (by omega), if_neg (by omega), if_neg (by omega), if_neg (by omega), if_neg (by omega),
      if_neg (by omega), if_pos (by omega), updAction, if_neg (by omega), if_neg (by omega), if_neg (by omega)]
  rw [regWrite_takes h v e fu (fieldsAt_scData n) rfl (by omega) (sprRefuses_outside _ _ (.inr (by dsimp only; omega)))
    (hig _ rfl) (dropCause_scData (by dsimp only; omega) (by dsimp only; omega) n d) (by omega) (by omega) rfl, hact _ rfl,
    Dev.each_cons, Dev.each_nil, takeField_plain _ (.inl rfl)
    (by simp only [isRgCfg, Fld.ix, F.SC_DATA_DATA, Bool.or_eq_false_iff, beq_eq_false_iff_ne]; omega),
    named_scData (by omega) (by omega), Wr.get_ix _ rfl]
  exact congrArg (Dev.acked · 0) (wr_mod d (F.SC_DATA_DATA.ix n) v 0)

/-- A DEPTH above 5 and a SEED of 0 are out of range. -/
theorem dropCause_tstLbctl {w : Wr} (d : Dev) (hv : 5 < fld w.v 0 3 ∨ fld w.v 16 16 = 0) :
    dropCause w [F.TST_LBCTL_DEPTH, F.TST_LBCTL_RUN, F.TST_LBCTL_CPROF, F.TST_LBCTL_SEED] d = 2 := by
  have hr : rangeErr w [F.TST_LBCTL_DEPTH, F.TST_LBCTL_RUN, F.TST_LBCTL_CPROF, F.TST_LBCTL_SEED] d = true := by
    rcases hv with hv | hv <;>
      simp [rangeErr, Wr.get, hv, F.TST_LBCTL_DEPTH, F.TST_LBCTL_RUN, F.TST_LBCTL_CPROF, F.TST_LBCTL_SEED]
  simp [dropCause, hr]

theorem regWrite_tstLbctl_outside {d : Dev} {a : Acc} (h : d.takes 0xC100 a = true) {v : Nat}
    (hv : 5 < fld v 0 3 ∨ fld v 16 16 = 0) (e : PortEnv) (fu : Fuses) :
    regWrite 0xC100 v a e fu d = (d.writeError 0xC100 a (d.named 0xC100 a) 2).acked 0 := by
  have hd := dropCause_tstLbctl (w := { off := 0xC100, v := v, inst := d.named 0xC100 a, acc := a, env := e }) d hv
  rw [regWrite_dropped_one h v e fu fieldsAt_tstLbctl rfl (by decide) (sprRefuses_outside _ _ (.inr (by dsimp only; omega))) rfl
    (by rw [hd]; decide), hd]
  rfl

/-- A write the port refuses before the boot has ended, of a register that firmware may write (R401). -/
theorem regWrite_refused {o : Nat} {d : Dev} (hr : portRoute o d = .refused) {fs : List Fld} (hf : fieldsAt o = some fs)
    (hro : fs.all (fun f => f.ty == .ro) = false) (v : Nat) (a : Acc) (e : PortEnv) (fu : Fuses) :
    regWrite o v a e fu d = (d.writeError o a 0 4).acked 0 := by
  simp [regWrite, portWrite, portAccess, accessNow, writeNow, hr, hf, hro, writeErr_eq_writeError, portDone_zero]

/-- A write of a read-only register does nothing (R482). -/
theorem regWrite_readOnly {o : Nat} {d : Dev} (h : d.portReady = true) (ho : o ≠ 0xA240) {fs : List Fld} (hf : fieldsAt o = some fs)
    (hro : fs.all (fun f => f.ty == .ro) = true) (v : Nat) (a : Acc) (e : PortEnv) (fu : Fuses) :
    regWrite o v a e fu d = d.acked 0 := by
  rw [regWrite_ready h _ _ _ _ _ ho]
  simp [servedWrite, hf, hro]

/-- A non-secure write in a window closed to it, of a register that no select multiplies (R484). -/
theorem regWrite_masked {o : Nat} {d : Dev} {a : Acc} (h : d.portReady = true) (ho : o ≠ 0xA240) {fs : List Fld}
    (hf : fieldsAt o = some fs) (hro : fs.all (fun f => f.ty == .ro) = false) (hsel : selOf o = .one) (hm : masked o a d = true)
    (v : Nat) (e : PortEnv) (fu : Fuses) : regWrite o v a e fu d = (d.writeError o a 0 5).acked 0 := by
  rw [regWrite_ready h _ _ _ _ _ ho]
  simp only [servedWrite, hf, hro, hsel, hm, selBcast, errIndex, Bool.true_or, Bool.false_eq_true, if_false, if_true,
    writeErr_eq_writeError]

/-- A served read of one of the command's words: the word, with no effect of the read. -/
theorem portRead_scData {d : Dev} {a : Acc} (n : Fin 16) (h : d.takes (0xA200 + 4 * n.val) a = true)
    (hl : look d.port.latched (a.dom.val * 65536 + (0xA200 + 4 * n.val)) = none) (m : Mem) :
    portRead (0xA200 + 4 * n.val) a m d = d.acked (d.rd (F.SC_DATA_DATA.ix n) % 2 ^ 32) := by
  simp only [Dev.takes, Bool.and_eq_true, Bool.not_eq_true'] at h
  obtain ⟨⟨hready, hmask⟩, -⟩ := h
  have hn := n.isLt
  have hspr : sprHidden (0xA200 + 4 * n.val) a d = false := by
    have h1 : ¬ 0xA200 + 4 * n.val < 0x51C0 := by omega
    have h2 : ¬ 0xA200 + 4 * n.val < 0x5340 := by omega
    simp [sprHidden, h1, h2]
  have hlatch : latches (0xA200 + 4 * n.val) = false := by
    simp only [latches, Bool.or_eq_false_iff, beq_eq_false_iff_ne, Bool.and_eq_false_iff, decide_eq_false_iff_not]
    omega
  have hword (c : Nat) : regWord (0xA200 + 4 * n.val) [F.SC_DATA_DATA.ix n] 0 c m d = (d.rd (F.SC_DATA_DATA.ix n), d) := by
    simp only [regWord]
    rw [if_neg (by omega), if_neg (by omega), if_neg (by omega), if_neg (by omega), if_neg (by omega), if_neg (by omega),
      if_neg (by omega), if_neg (by omega), if_neg (by omega), if_neg (by omega), if_neg (by omega), if_neg (by omega),
      if_neg (by omega), if_neg (by omega), if_neg (by omega), if_neg (by omega)]
    simp [Dev.word, Fld.ix, F.SC_DATA_DATA]
  simp only [portRead, portAccess, accessNow, readNow, Dev.portReady_route hready, servedRead, fieldsAt_scData n, hmask, hspr, hl,
    selOf_scData (Nat.le_add_right 0xA200 _) (show 0xA200 + 4 * n.val ≤ 0xA23C by omega), selIndex, hword, hlatch, Bool.false_or,
    Bool.false_eq_true, if_false, portDone_eq]

/-- A non-secure read in a window closed to it reads 0 and does nothing (R484). -/
theorem portRead_masked {o : Nat} {d : Dev} {a : Acc} (h : d.portReady = true) (hm : masked o a d = true) (m : Mem) :
    portRead o a m d = d.acked 0 := by
  simp only [portRead, portAccess, accessNow, readNow, Dev.portReady_route h, servedRead]
  cases hf : fieldsAt o with
  | none => rfl
  | some fs => simp [hm, portDone_zero]

/-- In reset the port is silent, at SC_GO as elsewhere (R480). -/
theorem portWrite_inReset {d : Dev} (h : d.inReset = true) (o v : Nat) (a : Acc) (e : PortEnv) (fu : Fuses) :
    portWrite o v a e fu d = (fu, portSilent d) := by
  have hr : portRoute o d = .dead := by simp [portRoute, h]
  simp [portWrite, portAccess, accessNow, writeNow, hr]

theorem exec_registerWrite_inReset {s : State} (h : s.dev.inReset = true) (o : Nat) (v : Word) (a : Acc) (e : PortEnv) :
    exec (.registerWrite o v a e) s = .next (s.withDev (portSilent s.dev)) := by
  show Host.Outcome.next (s.updF (portWrite o v.toNat a e)) = _
  rw [State.updF, portWrite_inReset h]
  rfl

/-- Settles O52: each clause is one case of the port, given above once for the registers it holds of. -/
theorem registerAccess : Obligations.RegisterAccess := by
  unfold Obligations.RegisterAccess
  refine ⟨fun s n v a e h => ?_, fun s v a e h hv => ?_, fun s o v a e fs h hf hro h8 h10 hgo hlink hs hi hd => ?_,
    fun s n v a e hr => ?_, fun s v a e h => ?_, fun s o v a e h hf ho => ?_, fun s n v a e h hm => ?_, fun s n a m h hl => ?_,
    fun s n a m h hm => ?_, fun s o v a e h => ?_⟩
  · rw [exec_registerWrite (by omega), regWrite_scData n h]
  · rw [exec_registerWrite (by decide), regWrite_tstLbctl_outside h hv]
  · rw [exec_registerWrite hgo, regWrite_dropped_one h _ e _ hf hro ⟨h8, hgo, hlink, h10⟩ hs hi hd]
  · rw [exec_registerWrite (by omega), regWrite_refused hr (fieldsAt_scData n) rfl]
  · rw [exec_registerWrite (by decide), regWrite_readOnly h (by decide) fieldsAt_updRcvd rfl]
  · rw [exec_registerWrite ho, regWrite_unlisted hf (.inl (Dev.portReady_route h o))]
  · rw [exec_registerWrite (by omega), regWrite_masked h (by omega) (fieldsAt_scData n) rfl
      (selOf_scData (by omega) (by omega)) hm]
  · rw [exec_registerRead, portRead_scData n h hl]
  · exact ⟨_, rfl, by rw [State.upd_eq, State.withDev_dev, portRead_masked h hm]; exact ⟨rfl, rfl, rfl, rfl⟩⟩
  · exact ⟨_, exec_registerWrite_inReset h o v a e, rfl, rfl, rfl⟩

end Sys2Proof.Machine
end

section
/-!
PROOFS. The register side of the interrupt controller (R315, R318, R322, R324, R325): pends, the global enable, idle targets.
-/

namespace Sys2Proof.Machine

-- The kernel evaluations below run one after another.
set_option Elab.async false

theorem bit_setBit (m i j : Nat) : bit (setBit m i) j = (bit m j || decide (i = j)) := by
  simp only [bit, setBit, Nat.testBit_or, Nat.one_shiftLeft, Nat.testBit_two_pow]

/-! ### Ones written to INT_PENDi (R315) -/

/-- A pend write changes only which sources are pending. -/
theorem pendWrite_only (i v : Nat) (d : Dev) : ∃ p, pendWrite i v d = { d with int := { d.int with pend := p } } := by
  unfold pendWrite
  refine Dev.each_rel (fun a b => ∃ p, b = { a with int := { a.int with pend := p } }) (fun a => ⟨a.int.pend, rfl⟩) ?_ _ _ ?_ d
  · rintro a b c ⟨x, rfl⟩ ⟨y, rfl⟩; exact ⟨y, rfl⟩
  · intro b _ a
    dsimp only
    split
    · exact ⟨_, rfl⟩
    · exact ⟨a.int.pend, rfl⟩

/-- The sources a list of bits names gain P when they are edge sources; every other keeps it. -/
theorem bit_pend_each (i j : Nat) (bs : List Nat) (d : Dev) :
    bit (Dev.each bs (fun b d => if isEdge (32 * i + b) then
      { d with int := { d.int with pend := setBit d.int.pend (32 * i + b) } } else d) d).int.pend j =
      (bit d.int.pend j || bs.any fun b => decide (32 * i + b = j) && isEdge j) := by
  induction bs generalizing d with
  | nil => simp
  | cons b bs ih =>
    rw [Dev.each_cons, ih, List.any_cons, ← Bool.or_assoc]
    congr 1
    by_cases hj : 32 * i + b = j
    · subst hj
      cases he : isEdge (32 * i + b) <;> simp [bit_setBit]
    · split <;> simp [bit_setBit, hj]

theorem bit_pend_pendWrite (i v j : Nat) (d : Dev) :
    bit (pendWrite i v d).int.pend j =
      (bit d.int.pend j || (bitsOf 32 v).any fun b => decide (32 * i + b = j) && isEdge j) := bit_pend_each i j _ d

/-- A source of the register written: its own bit decides. -/
theorem bit_pend_pendWrite_same (i v : Nat) {b : Nat} (hb : b < 32) (d : Dev) :
    bit (pendWrite i v d).int.pend (32 * i + b) = (bit d.int.pend (32 * i + b) || (v.testBit b && isEdge (32 * i + b))) := by
  rw [bit_pend_pendWrite]
  congr 1
  rw [Bool.eq_iff_iff]
  simp only [List.any_eq_true, mem_bitsOf, Bool.and_eq_true, decide_eq_true_eq, Nat.add_left_cancel_iff]
  constructor
  · rintro ⟨x, ⟨-, hx⟩, rfl, he⟩; exact ⟨hx, he⟩
  · rintro ⟨hv, he⟩; exact ⟨b, ⟨hb, hv⟩, rfl, he⟩

/-- A source of another register keeps P. -/
theorem bit_pend_pendWrite_other (v : Nat) {i j : Nat} (h : j / 32 ≠ i) (d : Dev) :
    bit (pendWrite i v d).int.pend j = bit d.int.pend j := by
  rw [bit_pend_pendWrite]
  have hnone : ((bitsOf 32 v).any fun b => decide (32 * i + b = j) && isEdge j) = false := by
    simp only [List.any_eq_false, mem_bitsOf, Bool.and_eq_true, decide_eq_true_eq, not_and]
    rintro b ⟨hb, -⟩ rfl
    omega
  rw [hnone, Bool.or_false]

theorem fieldsAt_intPend : ∀ n : Fin 8, fieldsAt (0x4100 + 4 * n.val) = some [F.INT_PEND_P.ix n] := by decide +kernel

theorem regWrite_intPend {d : Dev} {a : Acc} (n : Fin 8) (h : d.takes (0x4100 + 4 * n.val) a = true) (v : Nat) (e : PortEnv)
    (fu : Fuses) : regWrite (0x4100 + 4 * n.val) v a e fu d = (pendWrite n v d).acked 0 := by
  have hn := n.isLt
  have hig (w : Wr) (ho : w.off = 0x4100 + 4 * n.val) : ignored w d = none := by
    rw [ignored, if_neg (by omega), if_neg (by omega), if_neg (by omega), if_neg (by omega)]
  have hdrop (w : Wr) (ho : w.off = 0x4100 + 4 * n.val) : dropCause w [F.INT_PEND_P.ix n] d = 0 := by
    refine dropCause_eq_zero ?_ rfl ?_
    · simp only [rangeErr, Fld.ix, F.INT_PEND_P]
      simp
      omega
    · simp only [unitErr]
      simp
      omega
  have hact (w : Wr) (ho : w.off = 0x4100 + 4 * n.val) : regAction w fu d d = pendWrite n w.v d := by
    have helem : w.elem 0x4100 4 = n.val := by rw [Wr.elem]; omega
    rw [regAction, if_neg (by omega), if_neg (by omega), if_neg (by omega), if_pos (by omega), intAction, if_neg (by omega),
      if_pos (by omega), helem]
  rw [regWrite_takes h v e fu (fieldsAt_intPend n) rfl (by omega) (sprRefuses_outside _ _ (.inl (by dsimp only; omega)))
    (hig _ rfl) (hdrop _ rfl) (by omega) (by omega) rfl, Dev.each_cons, Dev.each_nil, takeField_inert _ (.inr (.inr rfl)), hact _ rfl]

/-! ### INT_GCTL (R318, R322) -/

/-- Withdrawals change the presentations and the counts of withdrawals, one register for each target. -/
theorem gctlOff_only (ack : Nat) (d : Dev) :
    ∃ p r, gctlOff ack d = { d with regs := r, int := { d.int with pres := p } } ∧
      d.onlyAt [(0x4000, 0x4000), (0x4218, 0x43F8)] (gctlOff ack d) := by
  unfold gctlOff
  refine Dev.each_rel (fun a b => ∃ p r, b = { a with regs := r, int := { a.int with pres := p } } ∧
    a.onlyAt [(0x4000, 0x4000), (0x4218, 0x43F8)] b) (fun a => ⟨a.int.pres, a.regs, rfl, Dev.onlyAt_refl _ a⟩) ?_ _ _ ?_ d
  · rintro a b c ⟨p, r, rfl, hab⟩ ⟨q, s, rfl, hbc⟩
    exact ⟨q, s, rfl, Dev.onlyAt_trans hab hbc⟩
  · intro t ht a
    rw [List.mem_range] at ht
    dsimp only
    split
    · refine ⟨del a.int.pres t, _, rfl, Dev.onlyAt_wr (Dev.onlyAt_regs _ rfl) _ _ _ ⟨(0x4218, 0x43F8), by simp, ?_⟩⟩
      rw [keyOff_key (by simp [Fld.ix, F.INT_SPUR_WDRAW]) (by decide)]
      simp only [Fld.ix, F.INT_SPUR_WDRAW]
      omega
    · exact ⟨a.int.pres, a.regs, rfl, Dev.onlyAt_refl _ a⟩

theorem look_pres_withdraw (t j : Nat) (d : Dev) :
    look (withdraw t d).int.pres j = if t = j then none else look d.int.pres j := by
  show look (del d.int.pres t) j = _
  split
  next h => subst h; exact look_del_self _ _
  next h => exact look_del_ne _ h

/-- The targets of a list lose their presentation unless VEC_ACK holds it. -/
theorem look_pres_each (ack j : Nat) (ts : List Nat) (d : Dev) :
    look (Dev.each ts (fun t d => if (look d.int.pres t).isSome && !bit ack t then withdraw t d else d) d).int.pres j =
      if j ∈ ts ∧ bit ack j = false then none else look d.int.pres j := by
  induction ts generalizing d with
  | nil => simp
  | cons t ts ih =>
    rw [Dev.each_cons, ih]
    by_cases htj : t = j
    · subst htj
      cases hack : bit ack t <;> cases hp : look d.int.pres t <;> simp [look_pres_withdraw, hp]
    · have hstep : look (if (look d.int.pres t).isSome && !bit ack t then withdraw t d else d).int.pres j = look d.int.pres j := by
        split
        · rw [look_pres_withdraw, if_neg htj]
        · rfl
      rw [hstep]
      simp [Ne.symm htj]

theorem look_pres_gctlOff (ack : Nat) {j : Nat} (hj : j < 16) (d : Dev) :
    look (gctlOff ack d).int.pres j = if ack.testBit j then look d.int.pres j else none := by
  rw [gctlOff, look_pres_each]
  cases hack : ack.testBit j <;> simp [hj, bit, hack]

theorem fieldsAt_intGctl : fieldsAt 0x4000 = some [F.INT_GCTL_EN] := by decide +kernel

theorem dropCause_intGctl {w : Wr} (ho : w.off = 0x4000) (d : Dev) : dropCause w [F.INT_GCTL_EN] d = 0 := by
  refine dropCause_eq_zero ?_ rfl ?_
  · simp [rangeErr, ho, F.INT_GCTL_EN]
  · simp [unitErr, ho]

theorem regWrite_intGctl {d : Dev} {a : Acc} (h : d.takes 0x4000 a = true) (v : Nat) (e : PortEnv) (fu : Fuses) :
    regWrite 0x4000 v a e fu d = (if fld v 0 1 != 0 then d.wr F.INT_GCTL_EN (fld v 0 1)
      else gctlOff e.ack (d.wr F.INT_GCTL_EN (fld v 0 1))).acked 0 := by
  rw [regWrite_takes h v e fu fieldsAt_intGctl rfl (by decide) (sprRefuses_outside _ _ (.inl (by dsimp only; omega))) rfl
    (dropCause_intGctl rfl d) (by decide) (by decide) rfl, Dev.each_cons, Dev.each_nil, takeField_plain _ (.inl rfl) rfl]
  rfl

theorem regWrite_intGctl_off {d : Dev} {a : Acc} (h : d.takes 0x4000 a = true) {v : Nat} (hv : fld v 0 1 = 0) (k : Nat) (fu : Fuses) :
    regWrite 0x4000 v a { ack := k } fu d = (gctlOff k (d.wr F.INT_GCTL_EN 0)).acked 0 := by
  rw [regWrite_intGctl h, hv, if_neg (by decide)]

theorem rd_gctlEn_gctlOff (ack : Nat) (d : Dev) : (gctlOff ack d).rd F.INT_GCTL_EN = d.rd F.INT_GCTL_EN := by
  unfold gctlOff
  refine Dev.each_inv (fun e => e.rd F.INT_GCTL_EN = d.rd F.INT_GCTL_EN) _ _ (fun t _ e he => ?_) rfl
  split
  · rw [withdraw, rd_inc_ne _ _ (by simp [Fld.key, Fld.ix, F.INT_SPUR_WDRAW, F.INT_GCTL_EN]; omega)]
    exact he
  · exact he

/-! ### TGT_IDLE (R324, R325) -/

/-- A wake latch changes nothing but the latches. -/
theorem wakeLatch_only (t : Nat) (d : Dev) : ∃ w, wakeLatch t d = { d with int := { d.int with wake := w } } := by
  unfold wakeLatch
  split
  · exact ⟨_, rfl⟩
  · exact ⟨d.int.wake, rfl⟩

/-! ### The obligation -/

theorem exec_intPendWrite (n : Fin 8) (v : Word) (a : Acc) (s : State) :
    exec (.intPendWrite n v a) s = .next (s.withDev (regWrite (0x4100 + 4 * n.val) v.toNat a {} s.fuse s.dev)) := rfl

theorem exec_intGctlWrite (v : Word) (a : Acc) (k : Nat) (s : State) :
    exec (.intGctlWrite v a k) s = .next (s.withDev (regWrite 0x4000 v.toNat a { ack := k } s.fuse s.dev)) := rfl

theorem exec_tgtIdleChange (k : Fin 16) (up : Bool) (s : State) :
    exec (.tgtIdleChange k up) s = .next (s.withDev (tgtIdle k up s.dev)) := rfl

/-- Settles O30: INT_PEND and INT_GCTL are accepted writes whose action is `pendWrite` and `gctlOff`; a target that goes idle may
set its wake latch and nothing else. -/
theorem interruptControl : Obligations.InterruptControl := by
  unfold Obligations.InterruptControl
  refine ⟨fun s n v a h => ?_, fun s v a k h hv => ?_, fun s v a k h hv => ?_, fun s k => rfl, fun s k => ?_⟩
  · obtain ⟨p, hp⟩ := pendWrite_only n v.toNat s.dev
    have hexec := exec_intPendWrite n v a s
    rw [regWrite_intPend n h] at hexec
    refine ⟨_, hexec, fun b => bit_pend_pendWrite_same n _ b.isLt s.dev,
      fun i hi => bit_pend_pendWrite_other _ hi s.dev, ?_, ?_, ?_⟩ <;> rw [hp] <;> rfl
  · rw [exec_intGctlWrite, regWrite_intGctl h, hv]
    rfl
  · obtain ⟨p, r, hoff, hat⟩ := gctlOff_only k (s.dev.wr F.INT_GCTL_EN 0)
    have hexec := exec_intGctlWrite v a k s
    rw [regWrite_intGctl_off h hv] at hexec
    refine ⟨_, hexec, ?_⟩
    simp only [State.withDev_dev, Dev.acked_int, Dev.acked_regs]
    refine ⟨?_, fun j => look_pres_gctlOff k j.isLt _, ?_, ?_, ?_, ?_⟩
    · rw [Dev.rd_regs _ _ (Dev.acked_regs _ 0), rd_gctlEn_gctlOff, Dev.rd_wr, Nat.zero_mod]
    · rw [hoff, Dev.wr_int]
    · rw [hoff, Dev.wr_int]
    · rw [hoff]; rfl
    · refine Dev.onlyAt_trans (Dev.onlyAt_wr (Dev.onlyAt_refl _ s.dev) F.INT_GCTL_EN 0 0 ⟨(0x4000, 0x4000), by simp, ?_⟩)
        (Dev.onlyAt_trans hat (Dev.onlyAt_regs _ (Dev.acked_regs _ 0)))
      rw [keyOff_key (by decide) (by decide)]
      exact ⟨Nat.le_refl _, Nat.le_refl _⟩
  · obtain ⟨w, hw⟩ := wakeLatch_only k { s.dev with int := { s.dev.int with idle := setBit s.dev.int.idle k } }
    refine ⟨_, exec_tgtIdleChange k true s, ?_⟩
    rw [State.withDev_dev, tgtIdle, if_pos rfl, hw]
    exact ⟨rfl, rfl, rfl, rfl, rfl⟩

end Sys2Proof.Machine
end

section
/-!
PROOFS. The fuses (R371, R416, R432, R476): no step takes back what a fuse holds. Every command but those of `mayBurn` has no way
to the fuses; those have two, `burn` and `scFuses`, and each of the two only adds.
-/

namespace Sys2Proof.Machine

-- The kernel evaluations below run one after another.
set_option Elab.async false

/-- From fuses `a` to fuses `b` nothing is taken back, and indices and repairs that were in bounds still are. -/
def Fuses.advance (a b : Fuses) : Prop := a.keeps b ∧ (a.ok → b.ok)

theorem Fuses.keeps_refl (a : Fuses) : a.keeps a := ⟨id, Nat.le_refl _, Nat.le_refl _, List.prefix_refl _⟩

theorem Fuses.keeps_trans {a b c : Fuses} (h : a.keeps b) (g : b.keeps c) : a.keeps c := by
  obtain ⟨hlock, hhidx, hsidx, hrep⟩ := h
  obtain ⟨glock, ghidx, gsidx, grep⟩ := g
  exact ⟨glock ∘ hlock, Nat.le_trans hhidx ghidx, Nat.le_trans hsidx gsidx, hrep.trans grep⟩

theorem Fuses.advance_refl (a : Fuses) : a.advance a := ⟨a.keeps_refl, id⟩

theorem Fuses.advance_trans {a b c : Fuses} (h : a.advance b) (g : b.advance c) : a.advance c :=
  ⟨Fuses.keeps_trans h.1 g.1, g.2 ∘ h.2⟩

/-- Fuses that differ in none of the four advance. -/
theorem Fuses.advance_of_eq {a b : Fuses} (hlock : b.lock = a.lock) (hhidx : b.hidx = a.hidx) (hsidx : b.sidx = a.sidx)
    (hrep : b.repairs = a.repairs) : a.advance b := by
  unfold Fuses.advance Fuses.keeps Fuses.ok
  rw [hlock, hhidx, hsidx, hrep]
  exact a.advance_refl

/-- A repair entry more, while one of the 256 is left. -/
theorem Fuses.advance_repair (a : Fuses) (r : Nat × Nat × Nat) (h : a.repairs.length < 256) :
    a.advance { a with repairs := a.repairs ++ [r] } := by
  refine ⟨⟨id, Nat.le_refl _, Nat.le_refl _, List.prefix_append _ _⟩, fun ⟨hh, hs, _⟩ => ⟨hh, hs, ?_⟩⟩
  simp only [List.length_append, List.length_singleton]
  omega

/-! ### FUSEPGM (R476) -/

theorem burn_advance (fu : Fuses) (x : Fuse) : fu.advance (burn fu x) := by
  unfold burn
  split
  · exact fu.advance_refl
  · split
    · exact Fuses.advance_of_eq rfl rfl rfl rfl
    · exact Fuses.advance_of_eq rfl rfl rfl rfl
    · exact Fuses.advance_of_eq rfl rfl rfl rfl
    · exact Fuses.advance_of_eq rfl rfl rfl rfl
    · split
      · next hroom => exact fu.advance_repair _ hroom
      · exact fu.advance_refl
    · exact ⟨⟨fun _ => rfl, Nat.le_refl _, Nat.le_refl _, List.prefix_refl _⟩, id⟩

theorem burnAll_advance (items : List Fuse) (fu : Fuses) : fu.advance (burnAll items fu) := by
  induction items generalizing fu with
  | nil => exact fu.advance_refl
  | cons x items ih => exact Fuses.advance_trans (burn_advance fu x) (ih _)

/-! ### Sealed commands (R371, R432) -/

/-- A command that passes its checks has arguments in bounds and a state that allows it. -/
theorem checks_of_scResult {fu : Fuses} {ck : Bool} {b : List Byte} {d : Dev} (h : scResult fu ck b d = 1) :
    scArgsOk b = true ∧ scStateOk fu b d = true := by
  unfold scResult at h
  repeat' split at h
  all_goals simp_all

theorem scFuses_advance {fu : Fuses} {b : List Byte} {d : Dev} (hargs : scArgsOk b = true) (hstate : scStateOk fu b d = true) :
    fu.advance (scFuses b fu) := by
  simp only [scArgsOk, scStateOk, Bool.and_eq_true] at hargs hstate
  obtain ⟨-, hargs⟩ := hargs
  obtain ⟨-, hstate⟩ := hstate
  unfold scFuses
  split
  next hcmd =>
    simp only [hcmd, decide_eq_true_eq] at hstate
    exact fu.advance_repair _ hstate
  next hcmd =>
    simp only [hcmd, Bool.and_eq_true, decide_eq_true_eq] at hargs hstate
    split
    next hkind =>
      rw [if_pos hkind, Bool.and_eq_true, decide_eq_true_eq] at hstate
      exact ⟨⟨id, Nat.le_of_lt hstate.1, Nat.le_refl _, List.prefix_refl _⟩, fun ⟨_, hs, hr⟩ => ⟨hargs.2, hs, hr⟩⟩
    next hkind =>
      simp only [if_neg hkind, Bool.and_eq_true, decide_eq_true_eq] at hstate
      obtain ⟨⟨⟨hrise, -⟩, -⟩, -⟩ := hstate
      exact ⟨⟨id, Nat.le_refl _, Nat.le_of_lt hrise, List.prefix_refl _⟩, fun ⟨hh, _, hr⟩ => ⟨hh, hargs.2, hr⟩⟩
  next => exact fu.advance_refl

theorem scGo_advance (ck : Bool) (fu : Fuses) (d : Dev) : fu.advance (scGo ck fu d).1 := by
  unfold scGo
  split
  · exact fu.advance_refl
  · dsimp only
    split
    · next hres =>
      obtain ⟨hargs, hstate⟩ := checks_of_scResult hres
      exact scFuses_advance hargs hstate
    · exact fu.advance_refl

/-! ### The register port (R480, R489) -/

theorem accessNow_advance (x : Access) (fu : Fuses) (d : Dev) : fu.advance (accessNow x fu d).1 := by
  unfold accessNow writeNow
  split
  · split
    · exact fu.advance_refl
    · exact fu.advance_refl
    · split <;> exact fu.advance_refl
    · dsimp only
      split
      · exact scGo_advance _ fu _
      · exact fu.advance_refl
  · exact fu.advance_refl

theorem portWrite_advance (o v : Nat) (a : Acc) (e : PortEnv) (fu : Fuses) (d : Dev) : fu.advance (portWrite o v a e fu d).1 := by
  unfold portWrite portAccess
  split
  · exact fu.advance_refl
  · exact accessNow_advance _ fu d

theorem portDrain_advance (xs : List Access) (fu : Fuses) (d : Dev) : fu.advance (portDrain xs fu d).1 := by
  induction xs generalizing fu d with
  | nil => exact fu.advance_refl
  | cons x xs ih => exact Fuses.advance_trans (accessNow_advance x fu d) (ih _ _)

theorem sealedGo_advance (n : Nat) (a : Acc) (ck : Bool) (fu : Fuses) (d : Dev) : fu.advance (sealedGo n a ck fu d).1 := by
  unfold sealedGo
  split
  · exact portWrite_advance _ _ _ _ fu d
  · exact fu.advance_refl

/-! ### Commands -/

/-- A command that may not blow a fuse has an effect on the block alone. -/
theorem exec_eq_upd {c : Instr} (h : mayBurn c = false) (s : State) : ∃ f, exec c s = .next (s.upd f) := by
  cases c <;> cases h <;> exact ⟨_, rfl⟩

theorem execFusepgm_advance (items : List Fuse) (fu : Fuses) (d : Dev) :
    fu.advance (if d.tst.testMode then burnAll items fu else fu) := by
  split
  · exact burnAll_advance items fu
  · exact fu.advance_refl

/-- The end of a wake completes the accesses held, writes of SC_GO among them. -/
theorem execWakeCompleted_advance (us : Nat) (loss : List RetLoss) (fu : Fuses) (d : Dev) :
    fu.advance (if (wakeComplete us loss d).cclkOn then
      portDrain (wakeComplete us loss d).port.waiting fu
        { wakeComplete us loss d with port := { (wakeComplete us loss d).port with waiting := [] } }
      else (fu, wakeComplete us loss d)).1 := by
  split
  · exact portDrain_advance _ fu _
  · exact fu.advance_refl

/-- Each command that may blow a fuse lets the fuses advance: FUSEPGM burns, and the others write SC_GO or may. -/
theorem exec_eq_updF {c : Instr} (h : mayBurn c = true) (s : State) :
    ∃ f, exec c s = .next (s.updF f) ∧ ∀ (fu : Fuses) (d : Dev), fu.advance (f fu d).1 := by
  cases c with
  | fusepgm items => exact ⟨_, rfl, fun fu d => execFusepgm_advance items fu d⟩
  | registerWrite o v a e => exact ⟨_, rfl, portWrite_advance o _ a e⟩
  | wakeCompleted us loss => exact ⟨_, rfl, fun fu d => execWakeCompleted_advance us loss fu d⟩
  | scImageActivate a ck | scImageConfirm a ck | scRecoveryEntry a ck | scSanitise a ck | scFuseProgram a ck | scKeyRotation a ck
  | scTenantLedgerReset a ck | scThermalOverride a ck | scDieUnfence a ck | scRingRejoin a ck | scDebugUnlock a ck =>
    exact ⟨_, rfl, sealedGo_advance _ a ck⟩
  | _ => cases h

theorem exec_fuse_advance {c : Instr} {s t : State} (h : exec c s = .next t) : s.fuse.advance t.fuse := by
  cases hb : mayBurn c with
  | false =>
    obtain ⟨f, hf⟩ := exec_eq_upd hb s
    obtain rfl := Host.Outcome.next.inj (hf.symm.trans h)
    exact s.fuse.advance_refl
  | true =>
    obtain ⟨f, hf, hadv⟩ := exec_eq_updF hb s
    obtain rfl := Host.Outcome.next.inj (hf.symm.trans h)
    exact hadv s.fuse s.dev

/-- Settles O55: a step is one cycle of AONCLK, which has no way to the fuses, or a command (`exec_fuse_advance`). -/
theorem fusesAreNeverTakenBack : Obligations.FusesAreNeverTakenBack := by
  unfold Obligations.FusesAreNeverTakenBack
  intro s t h
  unfold step at h
  split at h
  · obtain rfl := Host.Outcome.next.inj h
    exact s.fuse.advance_refl
  · next c r _ => exact exec_fuse_advance (s := { s with pending := r }) h

end Sys2Proof.Machine
end

section
/-!
PROOFS. Statements that fail for one reason: a clause names every offset its command writes, but not that INT_SRC.GRP of the
source the command raises holds one of the 32 groups (R323). The group's MOD_STAT then lies elsewhere, and an event counted there
is outside the clause's offsets. `withFarGroup` builds such a register file; each refutation is a state and one evaluation.
-/

namespace Sys2Proof.Machine

-- The kernel evaluations below run one after another.
set_option Elab.async false

/-! ### A moderation group that does not exist (R323) -/

/-- The number of a group whose MOD_STAT would lie beyond the last offset of the register map. -/
def farGroup : Nat := 0x10000

/-- A register file in which INT_SRC of source `n` is moderated by `farGroup`, a number its five bits cannot hold, and that group
is in HOLDOFF. -/
def farRegs (n : Nat) (r : FMap) : FMap :=
  ins (ins (ins r ((F.INT_SRC_GRP.ix n).key 0) farGroup) ((F.INT_SRC_MOD.ix n).key 0) 1) ((F.MOD_STAT_HOLDOFF.ix farGroup).key 0) 1

def withFarGroup (n : Nat) (d : Dev) : Dev := { d with regs := farRegs n d.regs }

theorem keyOff_farEvents : keyOff ((F.MOD_STAT_EVENTS.ix farGroup).key 0) = 0x84804 := by decide +kernel

/-- A frame of offsets of the register map keeps the count of the far group's events. -/
theorem farEvents_of_onlyAt {rs : List (Nat × Nat)} {d e : Dev} (h : d.onlyAt rs e) (hrs : ∀ r ∈ rs, r.2 < 0x10000) :
    e.rd (F.MOD_STAT_EVENTS.ix farGroup) = d.rd (F.MOD_STAT_EVENTS.ix farGroup) := by
  simp only [Dev.rd]
  rw [h _ fun r hr => ?_]
  have := hrs r hr
  rw [keyOff_farEvents]
  omega

theorem not_onlyAt_of_farEvents {rs : List (Nat × Nat)} {d e : Dev} (hrs : ∀ r ∈ rs, r.2 < 0x10000)
    (hd : d.rd (F.MOD_STAT_EVENTS.ix farGroup) = 0) (he : e.rd (F.MOD_STAT_EVENTS.ix farGroup) = 1) : ¬ d.onlyAt rs e := by
  intro h
  have hKept := farEvents_of_onlyAt h hrs
  rw [hd, he] at hKept
  exact absurd hKept (by decide)

/-! ### A spore for an interrupt input (R329, R333) -/

/-- The router is enabled and one spore of channel 0 reaches interrupt input 0. -/
def farSpore : State :=
  { dev := withFarGroup 0xF0 { ({} : Dev).wr F.SPR_CTL_EN 1 with spr := { stage := [{ chan := 0, dst := 0x10, ns := false }] } } }

theorem exec_sporeDeliver_of_live {s : State} (h : s.dev.live = true) :
    exec .sporeDeliver s = .next (s.withDev (sporeDeliver s.dev)) := by
  simp only [exec, execSporeDeliver, State.upd_eq, whenLive_live _ h]

/-- Refutes O31: in `farSpore` the delivery raises source 0x0F0, and the event is counted outside the offsets the clause of a
delivery names. -/
theorem not_sporeRouter : ¬ Obligations.SporeRouter := by
  rintro ⟨hDeliver, -⟩
  obtain ⟨t, ht, -, -, -, -, -, hAt⟩ := hDeliver farSpore { chan := 0, dst := 0x10, ns := false } 0 (by decide +kernel)
    (by decide +kernel) rfl rfl (by decide) (by decide +kernel)
  rw [exec_sporeDeliver_of_live (by decide +kernel)] at ht
  rw [← Host.Outcome.next.inj ht, State.withDev_dev] at hAt
  exact not_onlyAt_of_farEvents (by decide) (by decide +kernel) (by decide +kernel) hAt

/-- Refutes O59: the clause of the count names the same offsets, and `farSpore` meets its hypotheses. -/
theorem not_sporeSecurity : ¬ Obligations.SporeSecurity := by
  rintro ⟨hCount, -⟩
  obtain ⟨t, ht, -, -, -, -, hAt⟩ := hCount farSpore (by decide +kernel) (by decide +kernel)
  rw [exec_sporeDeliver_of_live (by decide +kernel)] at ht
  rw [← Host.Outcome.next.inj ht, State.withDev_dev] at hAt
  exact not_onlyAt_of_farEvents (by decide) (by decide +kernel) (by decide +kernel) hAt

/-! ### The end of a fill (R372) -/

/-- A fill of region 8 runs. -/
def farFill : State :=
  { dev := withFarGroup 0x84 { ({} : Dev).wr F.MP_STAT_FILLBUSY 1 with mp := { filling := 8 } } }

theorem exec_mpFillEnd_of_live {s : State} (h : s.dev.live = true) :
    exec .mpFillEnd s = .next (s.withDev (fillEnded s.dev)) := by
  simp only [exec, execMpFillEnd, State.upd_eq, whenLive_live _ h]

/-- Refutes O34: in `farFill` the end of the fill raises source 0x084, and the event is counted outside the offsets its clause
names. -/
theorem not_memoryProtection : ¬ Obligations.MemoryProtection := by
  rintro ⟨-, -, -, -, -, -, -, hEnd, -⟩
  obtain ⟨t, ht, -, -, -, -, -, -, hAt⟩ := hEnd farFill (by decide +kernel) (by decide +kernel) (by decide +kernel) (by decide)
  rw [exec_mpFillEnd_of_live (by decide +kernel)] at ht
  rw [← Host.Outcome.next.inj ht, State.withDev_dev] at hAt
  exact not_onlyAt_of_farEvents (by decide) (by decide +kernel) (by decide +kernel) hAt

/-! ### The timeout of a thermal trip (R383) -/

/-- A trip whose record waits for an erase. -/
def farTrip : State := { dev := withFarGroup 0xA8 { th := { trip := true, record := some [] } } }

theorem exec_thermalTripTimeout (s : State) : exec .thermalTripTimeout s = .next (s.withDev (tripTimeout s.dev)) := rfl

/-- Refutes O38: in `farTrip` the record is given up and source 0x0A8 raised, and the event is counted outside the offsets the
clause of that timeout names. -/
theorem not_thermalLog : ¬ Obligations.ThermalLog := by
  rintro ⟨-, -, -, hTimeout, -⟩
  obtain ⟨t, ht, -, -, -, -, hAt⟩ := hTimeout farTrip [] rfl rfl rfl (by decide +kernel)
  rw [exec_thermalTripTimeout] at ht
  rw [← Host.Outcome.next.inj ht, State.withDev_dev] at hAt
  exact not_onlyAt_of_farEvents (by decide) (by decide +kernel) (by decide +kernel) hAt

/-! ### The failed erase of a session (R418) -/

/-- The erase of an update target runs. -/
def farErase : State := { dev := withFarGroup 0xD2 { upd := { nor := 1 } } }

theorem exec_updEraseEnd_of_live {s : State} (ok : Bool) (h : s.dev.live = true) :
    exec (.updEraseEnd ok) s = .next (s.withDev (updEraseEnd ok s.dev)) := by
  simp only [exec, execUpdEraseEnd, State.upd_eq, whenLive_live _ h]

/-- Refutes O42: in `farErase` the failed erase ends the session and raises source 0x0D2, and the event is counted outside the
offsets its clause names. -/
theorem not_updateSession : ¬ Obligations.UpdateSession := by
  rintro ⟨-, -, -, hFailed, -⟩
  obtain ⟨t, ht, -, -, -, -, hAt⟩ := hFailed farErase (by decide +kernel) rfl rfl
  rw [exec_updEraseEnd_of_live false (by decide +kernel)] at ht
  rw [← Host.Outcome.next.inj ht, State.withDev_dev] at hAt
  exact not_onlyAt_of_farEvents (by decide) (by decide +kernel) (by decide +kernel) hAt

/-! ### The end of a sealed command (R431) -/

/-- A sealed command is busy. -/
def farSealed : State := { dev := withFarGroup 0xD3 (({} : Dev).wr F.SC_STAT_BUSY 1) }

theorem exec_sealedCommandEnd_of_live {s : State} (h : s.dev.live = true) :
    exec .sealedCommandEnd s = .next (s.withDev (scEnd s.dev)) := by
  simp only [exec, execSealedCommandEnd, State.upd_eq, whenLive_live _ h]

/-- Refutes O45: in `farSealed` the end of the command raises source 0x0D3, and the event is counted outside the offsets its
clause names. -/
theorem not_sealedRefusals : ¬ Obligations.SealedRefusals := by
  rintro ⟨-, -, -, -, hEnd, -⟩
  obtain ⟨t, ht, -, -, -, hAt⟩ := hEnd farSealed (by decide +kernel) (by decide +kernel)
  rw [exec_sealedCommandEnd_of_live (by decide +kernel)] at ht
  rw [← Host.Outcome.next.inj ht, State.withDev_dev] at hAt
  exact not_onlyAt_of_farEvents (by decide) (by decide +kernel) (by decide +kernel) hAt

/-! ### A lost neighbour of the ring (R445) -/

/-- An active member of the ring, alone with an upstream neighbour of ID 1. -/
def farNeighbour : State :=
  { dev := withFarGroup 0xE0 { (({} : Dev).wr F.RG_STAT_STATE 1).wr F.RG_UP_ID 1 with ring := { active := true } } }

theorem exec_heartbeatLoss_of_live {s : State} (h : s.dev.live = true) :
    exec .heartbeatLoss s = .next (s.withDev (heartbeatLoss s.dev)) := by
  simp only [exec, execHeartbeatLoss, State.upd_eq, whenLive_live _ h]

/-- Refutes O48: in `farNeighbour` the declaration raises source 0x0E0, and the event is counted outside the offsets its clause
names. -/
theorem not_ringMembership : ¬ Obligations.RingMembership := by
  rintro ⟨hLoss, -⟩
  obtain ⟨t, ht, -, -, -, -, -, -, hAt⟩ := hLoss farNeighbour (by decide +kernel) rfl (by decide +kernel) (by decide +kernel)
    (by decide +kernel) (by decide +kernel) (by decide +kernel) (by decide +kernel)
  rw [exec_heartbeatLoss_of_live (by decide +kernel)] at ht
  rw [← Host.Outcome.next.inj ht, State.withDev_dev] at hAt
  exact not_onlyAt_of_farEvents (by decide) (by decide +kernel) (by decide +kernel) hAt

end Sys2Proof.Machine
end

section
/-!
PROOFS. Statements of the fabric and of DMA that fail: a select that names no cluster, a grant that still sweeps the decoders,
and a channel whose buffer is not ready.
-/

namespace Sys2Proof.Machine

-- The kernel evaluations below run one after another.
set_option Elab.async false

/-! ### UNQUAR of a cluster beyond the last (R295, R487) -/

/-- A select so high that the keys of its register fields lie beyond those of every register of the map. -/
def farInstance : Nat := 4096 * 32 * 0x10000

/-- The port is ready, and CLSEL of domain 0 holds `farInstance`, which its bits cannot hold; FP_QUAR of that cluster counts
one tag. -/
def farQuar : State :=
  let ready := (({} : Dev).wr F.BOOT_STAT_PHASE 7).wr F.FP_QUAR_RDQ 1 farInstance
  { dev := { ready with regs := ins ready.regs (F.CLSEL_INDEX.key 0) farInstance } }

/-- A frame of offsets keeps a register field whose key lies beyond them. -/
theorem not_onlyAt_of_look {rs : List (Nat × Nat)} {d e : Dev} {k : Nat}
    (hk : ∀ r ∈ rs, ¬ (r.1 ≤ keyOff k ∧ keyOff k ≤ r.2)) (hne : look e.regs k ≠ look d.regs k) : ¬ d.onlyAt rs e :=
  fun h => hne (h k hk)

theorem exec_fpUnquar (a : Acc) (s : State) :
    exec (.fpUnquar a) s = .next (s.withDev (regWrite 0x2418 1 a {} s.fuse s.dev)) := rfl

/-- Refutes O26: in `farQuar` UNQUAR clears the count of the cluster that CLSEL names, whose key is outside the offsets
its clause names. -/
theorem not_fabricResponses : ¬ Obligations.FabricResponses := by
  rintro ⟨-, -, -, -, -, -, -, hUnquar⟩
  obtain ⟨t, ht, -, -, -, -, -, -, hAt⟩ := hUnquar farQuar {} (by decide +kernel)
  rw [exec_fpUnquar] at ht
  rw [← Host.Outcome.next.inj ht, State.withDev_dev] at hAt
  exact not_onlyAt_of_look (k := F.FP_QUAR_RDQ.key farInstance) (by decide +kernel) (by decide +kernel) hAt

/-! ### A grant of a tag in use (R147, R299) -/

/-- Tag 0 of the writes of port 1 is quarantined, and decoder 0 of cluster 1 holds a decoded codeword that waits for no write. -/
def quarantinedGrant : State :=
  { dev := { fab := [(1, { wr := { quar := [0] } })]
             cls := [(1, { hdec := [(0, [{ zeroedCw with done := true }])] })] } }

theorem exec_fabricRequestGrant_of_live {s : State} (p : Fin 4) (w : Bool) (tag : Fin 256) (h : s.dev.live = true) :
    exec (.fabricRequestGrant p w tag) s = .next (s.withDev (requestGrant p w tag s.dev)) := by
  simp only [exec, execFabricRequestGrant, State.upd_eq, whenLive_live _ h]

/-- Refutes O27: in `quarantinedGrant` nothing is granted, but the codeword leaves its decoder in that event (R147), so the next
state is not the state before it. -/
theorem not_fabricArbitration : ¬ Obligations.FabricArbitration := by
  rintro ⟨-, hInUse⟩
  have hSame := hInUse quarantinedGrant 1 true 0 (by decide +kernel) (.inl (by decide)) (.inr (by decide +kernel))
  rw [exec_fabricRequestGrant_of_live _ _ _ (by decide +kernel)] at hSame
  have hHeld : look ((requestGrant 1 true 0 quarantinedGrant.dev).clu 1).hdec 0 = look (quarantinedGrant.dev.clu 1).hdec 0 :=
    congrArg (fun t : State => look (t.dev.clu 1).hdec 0) (Host.Outcome.next.inj hSame)
  exact absurd hHeld (by decide +kernel)

/-! ### START of a DMA channel without its buffer (R311, R372) -/

/-- The port is ready and DMA enabled, channel 0 is idle with a descriptor of one byte, and region 9, the channel buffer, is not
ready. -/
def unreadyBuffer : State :=
  { dev := ((((({} : Dev).wr F.BOOT_STAT_PHASE 7).wr F.DMA_GCTL_EN 1).wr F.DMA_ACNT_ACNT 1).wr F.DMA_BCCNT_BCNT 1).wr
      F.DMA_BCCNT_CCNT 1 }

theorem exec_dmaStart (c : Fin 16) (a : Acc) (s : State) :
    exec (.dmaStart c a) s = .next (s.withDev (regWrite (0x6144 + 0x80 * c.val) 1 a {} s.fuse s.dev)) := rfl

/-- Refutes O28: in `unreadyBuffer` a START is counted as dropped, where the clause of START has the channel in RUN: it does not
ask for region 9 to be ready. -/
theorem not_dmaControl : ¬ Obligations.DmaControl := by
  rintro ⟨hStart, -⟩
  obtain ⟨t, ht, hState, -⟩ := hStart unreadyBuffer 0 {} (by decide +kernel) (by decide +kernel) (by decide +kernel) (by decide +kernel)
  rw [exec_dmaStart] at ht
  rw [← Host.Outcome.next.inj ht, State.withDev_dev] at hState
  exact absurd hState (by decide +kernel)

end Sys2Proof.Machine
end

section
/-!
PROOFS. Statements of the ledger, the sensors and the power states that fail: a waiting commit that names a field no commit can
hold, and a moderation group whose MOD_STAT would lie on another register.
-/

namespace Sys2Proof.Machine

-- The kernel evaluations below run one after another.
set_option Elab.async false

/-! ### A commit that waits at a swap (R348, R412) -/

/-- LG_TIME is 0, the instant of a scheduled swap, and a commit of the ledger waits with a value for LG_CTL.SNAP, which takes
none (R19). -/
def snapCommitted : State := { dev := { captured := [(F.LG_CTL_SNAP.key 0, 1)] } }

theorem exec_ledgerSwap_of_outOfReset {s : State} (h : s.dev.inReset = false) :
    exec .ledgerSwap s = .next (s.withDev (ledgerSwap s.dev)) := by
  simp only [exec, execLedgerSwap, State.upd_eq, h, Bool.false_eq_true, if_false]

/-- Refutes O33: the swap is the safe point of the ledger's commits. In `snapCommitted` it brings LG_CTL.SNAP to 1, where the
clause of a scheduled swap has it as it was. -/
theorem not_tenantLedger : ¬ Obligations.TenantLedger := by
  rintro ⟨hScheduled, -⟩
  obtain ⟨t, ht, -, -, hSnap⟩ := hScheduled snapCommitted (by decide +kernel) (by decide +kernel) (by decide +kernel)
    (by decide +kernel) (by decide +kernel)
  rw [exec_ledgerSwap_of_outOfReset (by decide +kernel)] at ht
  rw [← Host.Outcome.next.inj ht, State.withDev_dev] at hSnap
  exact absurd hSnap (by decide +kernel)

/-! ### A commit that waits at a thermal evaluation (R379, R412) -/

/-- A commit of the thermal group waits with a value for PM_STAT.STATE, which takes none: Nap. -/
def napCommitted : State := { dev := { captured := [(F.PM_STAT_STATE.key 0, 3)] } }

/-- A reading of the sensor of cluster 0. -/
def coldReading : Reading := { sensor := 32, cnt := 1, temp := 0 }

theorem exec_sensorReading_of_live {s : State} (r : Reading) (h : s.dev.live = true) :
    exec (.sensorReading [r]) s =
      .next (s.withDev (sensorWindow [(r.sensor.val, r.cnt, r.temp)] (beforeEvaluation s.dev))) := by
  simp only [exec, execSensorReading, State.upd_eq, whenLive_live _ h, List.map_cons, List.map_nil]

/-- Refutes O37: in `napCommitted` CCLK has stopped once the commits that wait for the evaluation are in force, and the window
takes no reading, where the clause of a window has it take one all the same. -/
theorem not_sensors : ¬ Obligations.Sensors := by
  rintro ⟨hWindow, -⟩
  have hTaken := hWindow napCommitted coldReading _ _ (by decide +kernel) (by decide) rfl rfl (by decide +kernel)
  rw [exec_sensorReading_of_live _ (by decide +kernel)] at hTaken
  have hSame := congrArg (fun t : State => t.dev.th.sens.length) (Host.Outcome.next.inj hTaken)
  simp only [State.withDev_dev] at hSame
  exact absurd hSame (by decide +kernel)

/-! ### A moderation group that lies on another register (R323) -/

/-- Source `n` is moderated by group `g`, a number its five bits need not hold, and one event ends the group's HOLDOFF. -/
def withStrayGroup (n g : Nat) (d : Dev) : Dev :=
  { d with
    regs := ins (ins d.regs ((F.INT_SRC_GRP.ix n).key 0) g) ((F.INT_SRC_MOD.ix n).key 0) 1
    int := { d.int with modCnt := [(g, 1)] } }

/-- MOD_STAT.HOLDOFF of group 0x902 would lie where PM_CNT.NAPS does. -/
theorem naps_eq_holdoff (d : Dev) : d.rd F.PM_CNT_NAPS = d.rd (F.MOD_STAT_HOLDOFF.ix 0x902) := rfl

/-- The second wake from Nap is in progress; its source, 0x0A5, is moderated by group 0x902. -/
def napEnding : State :=
  { dev := withStrayGroup 0xA5 0x902 ((({} : Dev).wr F.PM_STAT_STATE 4).wr F.PM_CNT_NAPS 1) }

theorem exec_wakeCompleted (us : Nat) (loss : List RetLoss) (s : State) :
    exec (.wakeCompleted us loss) s = .next (s.updF fun fu d =>
      let d := wakeComplete us loss d
      if d.cclkOn then portDrain d.port.waiting fu { d with port := { d.port with waiting := [] } } else (fu, d)) := rfl

/-- Refutes O39: the wake counts the Nap and then raises its source. In `napEnding` that event ends the HOLDOFF on PM_CNT.NAPS
(`naps_eq_holdoff`), so that the count is 0, where the clause of a wake from Nap has 2. -/
theorem not_powerStates : ¬ Obligations.PowerStates := by
  rintro ⟨-, -, -, -, -, -, -, -, -, -, hWake, -⟩
  obtain ⟨t, ht, -, -, -, hNaps, -⟩ := hWake napEnding 0 (by decide +kernel) rfl rfl rfl rfl rfl rfl rfl
  rw [exec_wakeCompleted] at ht
  rw [← Host.Outcome.next.inj ht] at hNaps
  exact absurd hNaps (by decide +kernel)

end Sys2Proof.Machine
end

section
/-!
PROOFS. The sealed commands: the clause of a tenant ledger reset fails as the statements of the moderation group that does not
exist do.
-/

namespace Sys2Proof.Machine

-- The kernel evaluations below run one after another.
set_option Elab.async false

/-- A ledger reset of tenant 5 that passes its checks (R433); source 0x0C4 is moderated by `farGroup`. -/
def farReset : State :=
  let s := { Tests.wSealed 7 [5, 0] [] with dev.nor.found := true }
  { s with dev := withFarGroup 0xC4 s.dev }

theorem exec_scTenantLedgerReset (a : Acc) (ck : Bool) (s : State) :
    exec (.scTenantLedgerReset a ck) s = .next (s.updF (sealedGo 7 a ck)) := rfl

/-- Refutes O44: in `farReset` the reset raises source 0x0C4, and the event is counted outside the offsets the clause of a ledger
reset names. -/
theorem not_sealedCommands : ¬ Obligations.SealedCommands := by
  rintro ⟨-, -, -, -, -, -, -, -, hReset, -⟩
  obtain ⟨t, ht, -, -, -, -, -, -, -, -, -, hAt⟩ := hReset farReset {} true (by decide +kernel) (by decide +kernel)
    (by decide +kernel) (by decide +kernel) (by decide +kernel) (by decide +kernel) (by decide +kernel) (by decide +kernel)
  rw [exec_scTenantLedgerReset] at ht
  rw [← Host.Outcome.next.inj ht] at hAt
  exact not_onlyAt_of_farEvents (by decide) (by decide +kernel) (by decide +kernel) hAt

end Sys2Proof.Machine
end

section
/-!
PROOFS. The Dvorlas ring: the frames that a member consumes (R441, R449), and a neighbour's heartbeat at a member whose ID is the
broadcast address.
-/

namespace Sys2Proof.Machine

-- The kernel evaluations below run one after another.
set_option Elab.async false

/-! ### A frame addressed to this member (R441) -/

/-- The ring serves the frame, and it is another member's, addressed to this member at its epoch. -/
structure AddressedHere (d : Dev) (f : Frame) : Prop where
  up : ringUp d = true
  room : d.ring.fwd.length < 8
  looped : d.on F.TST_RINGLB_EN = false
  src : f.src ≠ d.rd F.RG_ID_ID
  hops : f.hops < d.rd F.RG_CFG_MAXHOP
  joined : d.rd F.RG_STAT_STATE ≠ 2
  powered : d.pfSeen = false
  epoch : f.epoch = ringEpoch d
  dst : f.dst = d.rd F.RG_ID_ID

theorem otherFrame_of_addressedHere {d : Dev} {f : Frame} (h : AddressedHere d f) (m : Mem) (ws : List MemWr) :
    otherFrame f m ws d = consume f m ws d := by
  simp [otherFrame, Nat.not_le.mpr h.hops, h.joined, h.epoch, h.dst, h.powered]

/-- A frame addressed to this member, with a good check, is consumed. -/
theorem ringRx_of_addressedHere {d : Dev} {f : Frame} (h : AddressedHere d f) (rtt : Nat) (m : Mem) (ws : List MemWr) :
    ringRx f f.crc rtt m ws d = consume f m ws d := by
  simp [ringRx, rlRxReady, h.up, h.room, h.looped, h.src, otherFrame_of_addressedHere h]

theorem exec_fragRx_of_live {s : State} (f : Frame) (x : FragIn) (h : s.dev.live = true) :
    exec (.fragRx f x) s = .next (s.withDev (ringRx { f with ty := 5 } x.fcrc 0 x.m x.ws s.dev)) := by
  simp only [exec, execFragRx, State.upd_eq, whenLive_live _ h]

theorem exec_fragackRx_of_live {s : State} (f : Frame) (fcrc : Nat) (h : s.dev.live = true) :
    exec (.fragackRx f fcrc) s = .next (s.withDev (ringRx { f with ty := 6 } fcrc 0 .clean [] s.dev)) := by
  simp only [exec, execFragackRx, State.upd_eq, whenLive_live _ h]

theorem exec_fragTimeout_of_live {s : State} (n : Fin 64) (h : s.dev.live = true) :
    exec (.fragTimeout n) s = .next (s.withDev (fragTimeout n s.dev)) := by
  simp only [exec, execFragTimeout, State.upd_eq, whenLive_live _ h]

/-! ### Fragments (R449) -/

/-- The RECEIVER that a fragment names is filling and has its tag, profile and count. -/
structure Receives (d : Dev) (f : Frame) (n : Nat) : Prop where
  acc : n = fld f.arg 21 6
  filling : accState d n = 1
  kept : d.on F.ACC_STAT_ABORTING n = false
  role : isReceiver d n = true
  tag : d.rd F.ACC_RTAG_TAG n = fld f.arg 0 16
  cprof : d.rd F.ACC_CFG_CPROF n = fld f.arg 27 3
  cwn : accCwn d n = fld f.arg 30 4

/-- The fragment a RECEIVER waits for, but the last, is XORed into its contents. -/
theorem takeFrag_next {d : Dev} {f : Frame} {n : Nat} (h : Receives d f n) (hfs : d.on F.FS_STAT_ACTIVE = false)
    (hlast : fld f.arg 16 5 < 31)
    (hfrag : (d.accu n).frag = if fld f.arg 16 5 = 0 then none else some (f.src, fld f.arg 16 5)) :
    takeFrag f .clean [] d =
      let e := xorContents (2048 * fld f.arg 16 5) (fitTo 2048 0 f.payload) n d
      e.setAcc n { e.accu n with frag := some (f.src, fld f.arg 16 5 + 1) } := by
  obtain ⟨rfl, hFilling, hKept, hRole, hTag, hCprof, hCwn⟩ := h
  have hNotLast : fld f.arg 16 5 ≠ 31 := by omega
  by_cases hk : fld f.arg 16 5 = 0
  · rw [if_pos hk] at hfrag
    simp [takeFrag, hfs, hFilling, hKept, hRole, hTag, hCprof, hCwn, hfrag, hk, memFinds, readMem, memWrites, Mem.isUe]
  · rw [if_neg hk] at hfrag
    simp [takeFrag, hfs, hFilling, hKept, hRole, hTag, hCprof, hCwn, hfrag, hNotLast, memFinds, readMem, memWrites, Mem.isUe]

/-- A fragment that names no RECEIVER is answered with code 1. -/
theorem takeFrag_of_not_receiver {d : Dev} {f : Frame} (m : Mem) (ws : List MemWr) (hfs : d.on F.FS_STAT_ACTIVE = false)
    (h : isReceiver d (fld f.arg 21 6) = false) : takeFrag f m ws d = fragAck f 1 d := by
  simp [takeFrag, hfs, h]

theorem ringPush_of_member {d : Dev} (ty dst arg flags : Nat) (payload : List Byte) (hup : ringUp d = true)
    (hpf : d.pfSeen = false) (hst : d.rd F.RG_STAT_STATE ≠ 2) :
    ringPush ty dst arg flags payload d =
      { d with ring := { d.ring with own := d.ring.own ++ [{ dst := dst, src := d.rd F.RG_ID_ID, ty := ty, flags := flags
                                                             epoch := ringEpoch d, arg := arg, payload := payload }] } } := by
  simp [ringPush, hup, hpf, hst, ringEpoch]

/-! ### Answers (R449) -/

theorem takeFragAck_ok {d : Dev} {f : Frame} {n : Nat} (h : fragSender d f = some n) (hcode : fld f.arg 16 8 = 0) :
    takeFragAck f d = accDone n (d.setAcc n { d.accu n with waitAck := false }) := by simp [takeFragAck, h, hcode]

theorem takeFragAck_refused {d : Dev} {f : Frame} {n : Nat} (h : fragSender d f = some n) (hcode : fld f.arg 16 8 ≠ 0) :
    takeFragAck f d = accRingFail n d := by simp [takeFragAck, h, hcode]

theorem rd_produce (p : Nat) (d : Dev) (f : Fld) (i : Nat) : (produce p d).rd f i = d.rd f i := by
  simp only [Dev.rd, produce_regs]

theorem produce_acc (p : Nat) (d : Dev) : (produce p d).acc = d.acc := by
  obtain ⟨st, h⟩ := produce_only p d
  rw [h]

theorem produce_cells (p : Nat) (d : Dev) : (produce p d).cells = d.cells := by
  obtain ⟨st, h⟩ := produce_only p d
  rw [h]

/-- What DONE of accumulator `n`, one of the first 32, does before its spore (R214). -/
def accDoneLow (n : Nat) (d : Dev) : Dev :=
  let e := (d.wr F.ACC_STAT_STATE 3 n).inc F.ACC_CNT_EMIT
  e.wr F.ACC_DONE_LO_DONE (setBit (e.rd F.ACC_DONE_LO_DONE) n)

theorem accDone_of_lt {n : Nat} (h : n < 32) (d : Dev) : accDone n d = produce 0x73 (accDoneLow n d) := by
  simp [accDone, accDoneLow, h]

theorem rd_state_accDone {n : Nat} (h : n < 32) (d : Dev) : (accDone n d).rd F.ACC_STAT_STATE n = 3 := by
  have hCount : F.ACC_CNT_EMIT.key 0 ≠ F.ACC_STAT_STATE.key n := by simp only [Fld.key, F.ACC_CNT_EMIT, F.ACC_STAT_STATE]; omega
  have hDone : F.ACC_DONE_LO_DONE.key 0 ≠ F.ACC_STAT_STATE.key n := by simp only [Fld.key, F.ACC_DONE_LO_DONE, F.ACC_STAT_STATE]; omega
  rw [accDone_of_lt h, rd_produce, accDoneLow, Dev.rd_wr_ne _ _ hDone, rd_inc_ne _ _ hCount, Dev.rd_wr]
  rfl

theorem bit_done_accDone {n : Nat} (h : n < 32) (d : Dev) : bit ((accDone n d).rd F.ACC_DONE_LO_DONE) n = true := by
  rw [accDone_of_lt h, rd_produce, accDoneLow, Dev.rd_wr, show F.ACC_DONE_LO_DONE.w = 32 from rfl, bit, Nat.testBit_mod_two_pow]
  simpa [h, bit] using bit_setBit_self _ n

/-- Settles O47: an addressed frame is consumed, and what it does then is the case of `takeFrag` or `takeFragAck` that the clause
names. -/
theorem ringFragments : Obligations.RingFragments := by
  refine ⟨?_, ?_, ?_, ?_, ?_⟩
  · intro s f fcrc n k hLive hUp hRoom hLoop hCrc hSrc hHops hState hPf hEpoch hDst hFs hn hk hLast hFill hKept hRole hTag hCprof
      hCwn hFrag
    have hHere : AddressedHere s.dev { f with ty := 5 } := ⟨hUp, hRoom, hLoop, hSrc, hHops, hState, hPf, hEpoch, hDst⟩
    have hNext := takeFrag_next (f := { f with ty := 5 }) ⟨hn, hFill, hKept, hRole, hTag, hCprof, hCwn⟩ hFs (hk ▸ hLast) (hk ▸ hFrag)
    rw [exec_fragRx_of_live _ _ hLive, hCrc, ringRx_of_addressedHere hHere, hk]
    exact congrArg (fun d => Host.Outcome.next (s.withDev d)) hNext
  · intro s f fcrc m ws hLive hUp hRoom hLoop hCrc hSrc hHops hState hPf hEpoch hDst hOne hFs hRole
    have hHere : AddressedHere s.dev { f with ty := 5 } := ⟨hUp, hRoom, hLoop, hSrc, hHops, hState, hPf, hEpoch, hDst⟩
    have hAnswer := (takeFrag_of_not_receiver (f := { f with ty := 5 }) m ws hFs hRole).trans
      (ringPush_of_member 6 f.src (f.arg % 65536 + 65536 * 1) 0 [] hUp hPf hState)
    rw [exec_fragRx_of_live _ _ hLive, hCrc, ringRx_of_addressedHere hHere]
    refine ⟨_, congrArg (fun d => Host.Outcome.next (s.withDev d)) hAnswer, rfl, rfl, rfl, rfl⟩
  · intro s f fcrc n hLive hUp hRoom hLoop hCrc hSrc hHops hState hPf hEpoch hDst hSender hCode hn
    have hHere : AddressedHere s.dev { f with ty := 6 } := ⟨hUp, hRoom, hLoop, hSrc, hHops, hState, hPf, hEpoch, hDst⟩
    have hDone := takeFragAck_ok (f := { f with ty := 6 }) hSender hCode
    rw [exec_fragackRx_of_live _ _ hLive, hCrc, ringRx_of_addressedHere hHere]
    refine ⟨_, congrArg (fun d => Host.Outcome.next (s.withDev d)) hDone, rd_state_accDone hn _, ?_, bit_done_accDone hn _, ?_⟩
    · rw [State.withDev_dev, Dev.accu, accDone_of_lt hn, produce_acc]
      simp [accDoneLow, Dev.setAcc, Dev.inc]
    · rw [State.withDev_dev, accDone_of_lt hn, produce_cells]
      rfl
  · intro s f fcrc n hLive hUp hRoom hLoop hCrc hSrc hHops hState hPf hEpoch hDst hSender hCode
    have hHere : AddressedHere s.dev { f with ty := 6 } := ⟨hUp, hRoom, hLoop, hSrc, hHops, hState, hPf, hEpoch, hDst⟩
    rw [exec_fragackRx_of_live _ _ hLive, hCrc, ringRx_of_addressedHere hHere]
    exact congrArg (fun d => Host.Outcome.next (s.withDev d)) (takeFragAck_refused (f := { f with ty := 6 }) hSender hCode)
  · intro s n hLive hRole hState hWait
    rw [exec_fragTimeout_of_live _ hLive, fragTimeout, hRole, hState, hWait]
    rfl

/-! ### A neighbour's heartbeat (R440, R441) -/

/-- An active member whose ID is 0xFFFF, the broadcast address, which RG_CTL.EN never comes on with (R440). -/
def broadcastMember : State :=
  { dev := { ((({} : Dev).wr F.RG_ID_ID 0xFFFF).wr F.RG_CFG_MAXHOP 16) with ring := { active := true } } }

/-- A heartbeat of the member with ID 1, the upstream neighbour. -/
def neighbourBeat : Frame := { dst := 0xFFFF, src := 1, ty := 1, flags := 0, epoch := 0, arg := 0, payload := [] }

theorem exec_heartbeatRx_of_live {s : State} (f : Frame) (fcrc rtt : Nat) (h : s.dev.live = true) :
    exec (.heartbeatRx f fcrc rtt) s = .next (s.withDev (ringRx { f with ty := 1 } fcrc rtt .clean [] s.dev)) := by
  simp only [exec, execHeartbeatRx, State.upd_eq, whenLive_live _ h]

/-- Refutes O46: `broadcastMember` takes `neighbourBeat` as addressed to it alone, and it goes no further, where the clause of a
neighbour's heartbeat has it go on. -/
theorem not_ringFrames : ¬ Obligations.RingFrames := by
  rintro ⟨-, -, -, -, -, hBeat, -⟩
  obtain ⟨t, ht, -, hFwd, -⟩ := hBeat broadcastMember neighbourBeat _ 0 (by decide +kernel) (by decide +kernel) (by decide)
    (by decide +kernel) rfl (by decide +kernel) (by decide +kernel) (by decide +kernel) (by decide +kernel) (by decide +kernel)
    rfl rfl rfl
  rw [exec_heartbeatRx_of_live _ _ _ (by decide +kernel)] at ht
  rw [← Host.Outcome.next.inj ht, State.withDev_dev] at hFwd
  exact absurd hFwd (by decide +kernel)

end Sys2Proof.Machine
end

section
/-!
PROOFS. Two statements that fail for a channel or a die that does not exist: the flush of a ticket whose die no channel has, and a
write to a channel that CHSEL cannot name.
-/

namespace Sys2Proof.Machine

-- The kernel evaluations below run one after another.
set_option Elab.async false

/-- A ticket queued for die `farInstance`, which no channel has; DIE_STAT.TOCONS of that die is 1. -/
def farDieTicket : Cell := { tkt := [], dix := farInstance }

/-- The port is ready in the fail-safe state, and `farDieTicket` is the one queued ticket. -/
def farDieFlush : State :=
  let d := ((({} : Dev).wr F.BOOT_STAT_PHASE 7).wr F.FS_STAT_ACTIVE 1).wr F.DIE_STAT_TOCONS 1 farInstance
  { dev := { d with cells := [(7, farDieTicket)], dq := [(cellKey farDieTicket, [7])] } }

theorem exec_fsFlush (a : Acc) (s : State) :
    exec (.fsFlush a) s = .next (s.withDev (regWrite 0x24 2 a {} s.fuse s.dev)) := rfl

/-- Refutes O49: in `farDieFlush` the end of the ticket clears TOCONS of its die, whose key is outside the offsets the
clause of a flush names. -/
theorem not_failSafeExit : ¬ Obligations.FailSafeExit := by
  rintro ⟨-, -, -, -, -, hFlush⟩
  obtain ⟨t, ht, -, -, -, -, -, hAt⟩ := hFlush farDieFlush {} 7 farDieTicket (by decide +kernel) (by decide +kernel)
    (by decide +kernel) rfl rfl rfl
  rw [exec_fsFlush] at ht
  rw [← Host.Outcome.next.inj ht, State.withDev_dev] at hAt
  exact not_onlyAt_of_look (k := F.DIE_STAT_TOCONS.key farInstance) (by decide +kernel) (by decide +kernel) hAt

/-! ### A hung responder of a channel beyond the last (R470, R487) -/

/-- The port is ready, and CHSEL of domain 0 holds `farInstance`, which its bits cannot hold. -/
def farChannel : State :=
  let ready := ({} : Dev).wr F.BOOT_STAT_PHASE 7
  { dev := { ready with regs := ins ready.regs (F.CHSEL_INDEX.key 0) farInstance } }

theorem exec_echoHang (v : Word) (a : Acc) (s : State) :
    exec (.echoHang v a) s =
      .next (s.withDev (regWrite 0xC114 (v.toNat ||| 2 ^ F.TST_ECHOINJ_HANG.lo) a {} s.fuse s.dev)) := rfl

/-- Refutes O50: in `farChannel` the write sets HANG of the channel that CHSEL names, whose key is outside the offsets the clause
of a hung responder names. -/
theorem not_loopback : ¬ Obligations.Loopback := by
  rintro ⟨-, -, -, -, -, hHang, -⟩
  obtain ⟨t, ht, -, -, -, -, hAt⟩ := hHang farChannel 0 {} (by decide +kernel)
  rw [exec_echoHang] at ht
  rw [← Host.Outcome.next.inj ht, State.withDev_dev] at hAt
  exact not_onlyAt_of_look (k := F.TST_ECHOINJ_HANG.key farInstance) (by decide +kernel) (by decide +kernel) hAt

end Sys2Proof.Machine
end

section
/-!
PROOFS. The test wrapper (R474–R476), and what the fail-safe entry leaves of the first registers of the map, FS_STAT among them
(R461).
-/

namespace Sys2Proof.Machine

-- The kernel evaluations below run one after another.
set_option Elab.async false

/-! ### The first registers of the map -/

/-- A filter by the key keeps what a kept key reads. -/
theorem look_filter_of_pos {α : Type} {t : Tbl α} {p : Nat → Bool} {k : Nat} (h : p k = true) :
    look (t.filter fun q => p q.1) k = look t k := by
  induction t with
  | nil => rfl
  | cons q r ih =>
    obtain ⟨j, x⟩ := q
    by_cases hj : j = k
    · subst hj
      simp [h, look]
    · by_cases hp : p j = true <;> simp [hp, look, hj, ih]

/-- The fields of the registers below offset 0x24 in a register file, whatever copy of the register they name. -/
def lowRegs (m : FMap) : Nat → Option Nat := fun k => if k < 0x24 * 131072 then look m k else none

theorem rd_eq_of_lowRegs {d e : Dev} (h : lowRegs e.regs = lowRegs d.regs) {f : Fld} {i : Nat} (hf : f.key i < 0x24 * 131072) :
    e.rd f i = d.rd f i := by
  have hLook := congrFun h (f.key i)
  simp only [lowRegs, hf, if_true] at hLook
  rw [Dev.rd, hLook, Dev.rd]

section LowRegs
variable (d : Dev) {f : Fld} (v i n : Nat)

/-- A write of a register from 0x24 on leaves them. -/
@[simp] theorem lowRegs_wr (h : 0x24 ≤ f.off) : lowRegs (d.wr f v i).regs = lowRegs d.regs := by
  funext k
  unfold lowRegs
  split
  · refine look_wr_ne d v fun hk => ?_
    simp only [Fld.key] at hk
    omega
  · rfl

/-- An element of an array of registers lies no lower than the array. -/
theorem off_le_off_ix (f : Fld) (k : Nat) : f.off ≤ (f.ix k).off := Nat.le_add_right _ _

@[simp] theorem lowRegs_wr_ix (k : Nat) (h : 0x24 ≤ f.off) : lowRegs (d.wr (f.ix k) v i).regs = lowRegs d.regs :=
  lowRegs_wr d v i (Nat.le_trans h (off_le_off_ix f k))

@[simp] theorem lowRegs_put (b : Bool) (h : 0x24 ≤ f.off) : lowRegs (d.put f b i).regs = lowRegs d.regs := lowRegs_wr d _ i h
@[simp] theorem lowRegs_inc (h : 0x24 ≤ f.off) : lowRegs (d.inc f i n).regs = lowRegs d.regs := lowRegs_wr d _ i h
@[simp] theorem lowRegs_inc_ix (k : Nat) (h : 0x24 ≤ f.off) : lowRegs (d.inc (f.ix k) i n).regs = lowRegs d.regs :=
  lowRegs_wr_ix d _ i k h
@[simp] theorem lowRegs_incW (h : 0x24 ≤ f.off) : lowRegs (d.incW f i n).regs = lowRegs d.regs := lowRegs_wr d _ i h
@[simp] theorem lowRegs_incW_ix (k : Nat) (h : 0x24 ≤ f.off) : lowRegs (d.incW (f.ix k) i n).regs = lowRegs d.regs :=
  lowRegs_wr_ix d _ i k h
@[simp] theorem lowRegs_decr (h : 0x24 ≤ f.off) : lowRegs (d.decr f i n).regs = lowRegs d.regs := lowRegs_wr d _ i h
@[simp] theorem lowRegs_wr64 {g : Fld} (h : 0x24 ≤ f.off) (hg : 0x24 ≤ g.off) :
    lowRegs (d.wr64 f g v i).regs = lowRegs d.regs :=
  (lowRegs_wr _ _ i hg).trans (lowRegs_wr d _ i h)

@[simp] theorem lowRegs_clearField (h : 0x24 ≤ f.off) : lowRegs (d.clearField f).regs = lowRegs d.regs := by
  funext k
  unfold lowRegs
  split
  next hk =>
    have hKept : (k / 4096 != f.off * 32 + f.lo) = true := by
      rw [bne_iff_ne]
      omega
    exact look_filter_of_pos (p := fun j => j / 4096 != f.off * 32 + f.lo) hKept
  · rfl

theorem lowRegs_each {α : Type} {g : α → Dev → Dev} {xs : List α} (h : ∀ x ∈ xs, ∀ e, lowRegs (g x e).regs = lowRegs e.regs) :
    lowRegs (Dev.each xs g d).regs = lowRegs d.regs :=
  Dev.each_rel (fun a b => lowRegs b.regs = lowRegs a.regs) (fun _ => rfl) (fun _ _ _ hab hbc => hbc.trans hab) g xs h d

end LowRegs

/-! ### Records, charges and events -/

section Kept
variable (d : Dev)

@[simp] theorem lowRegs_modEvent (s : Nat) : lowRegs (modEvent s d).regs = lowRegs d.regs := by
  unfold modEvent
  split
  · rfl
  · dsimp only
    split
    · split <;> simp (disch := decide)
    · rfl

@[simp] theorem lowRegs_raise (s : Nat) : lowRegs (raise s d).regs = lowRegs d.regs := by
  unfold raise
  split
  · rfl
  · split
    · simp (disch := decide) only [latchEdge, lowRegs_modEvent]
      split <;> simp (disch := decide)
    · rfl

@[simp] theorem lowRegs_setLog (l : List LogEnt) : lowRegs (setLog l d).regs = lowRegs d.regs := by
  simp (disch := decide) [setLog]

@[simp] theorem lowRegs_memCE (r w k s : Nat) : lowRegs (memCE r w k s d).regs = lowRegs d.regs := by
  unfold memCE
  dsimp only
  generalize hCount : (if k = 2 then d.inc (F.MP_RCNT_REP.ix r) else d.inc (F.MP_RCNT_CE.ix r)) = e
  have hLow : lowRegs e.regs = lowRegs d.regs := by
    subst hCount
    split <;> simp (disch := decide)
  split
  · split
    · simp [hLow]
    · split <;> simp (disch := decide) [hLow]
  · simp [hLow]

@[simp] theorem lowRegs_memUE (r w k s : Nat) : lowRegs (memUE r w k s d).regs = lowRegs d.regs := by
  unfold memUE
  dsimp only
  split <;> simp (disch := decide)

@[simp] theorem heal_regs (r w : Nat) : (heal r w d).regs = d.regs := rfl
@[simp] theorem putWord_regs (r w v : Nat) : (putWord r w v d).regs = d.regs := rfl
@[simp] theorem onBank_regs (t : Nat) (f : Bank → Bank) : (onBank t f d).regs = d.regs := rfl

@[simp] theorem lowRegs_tenantLoss (t w : Nat) : lowRegs (tenantLoss t w d).regs = lowRegs d.regs := by
  unfold tenantLoss
  split
  · simp (disch := decide) [lowRegs_wr]
  · dsimp only
    split <;> rfl

@[simp] theorem lowRegs_tenantWordLost (w : Nat) : lowRegs (tenantWordLost w d).regs = lowRegs d.regs := by
  simp [tenantWordLost]

@[simp] theorem lowRegs_chargeWord (t i : Nat) : lowRegs (chargeWord t i d).regs = lowRegs d.regs := by
  unfold chargeWord
  dsimp only
  split <;> simp

@[simp] theorem lowRegs_chargeBank (t : Nat) (ws : List Nat) (f : Bank → Bank) : lowRegs (chargeBank t ws f d).regs = lowRegs d.regs :=
  lowRegs_each _ fun i _ e => lowRegs_chargeWord e t i

@[simp] theorem lowRegs_checkCap (t : Nat) : lowRegs (checkCap t d).regs = lowRegs d.regs := by
  unfold checkCap
  dsimp only
  split <;> simp (disch := decide)

@[simp] theorem lowRegs_chargeBus (t ns : Nat) : lowRegs (chargeBus t ns d).regs = lowRegs d.regs := by
  simp (disch := decide) [chargeBus]

@[simp] theorem lowRegs_spendBus (c t ns : Nat) : lowRegs (spendBus c t ns d).regs = lowRegs d.regs := by
  unfold spendBus
  split
  · rfl
  · simp (disch := decide) [setDeficit]

@[simp] theorem lowRegs_chargeSysBus (ns : Nat) : lowRegs (chargeSysBus ns d).regs = lowRegs d.regs := by
  simp (disch := decide) [chargeSysBus]

@[simp] theorem lowRegs_spendRun (c : Nat) (cells : List Nat) (ns : Nat) : lowRegs (spendRun c cells ns d).regs = lowRegs d.regs := by
  unfold spendRun
  split
  · simp
  · exact lowRegs_each _ fun p _ e => lowRegs_spendBus e c _ p.2

@[simp] theorem setCtx_regs (c id : Nat) (x : Ctx) : (d.setCtx c id x).regs = d.regs := rfl

@[simp] theorem lowRegs_chargeRun (c id : Nat) : lowRegs (chargeRun c id d).regs = lowRegs d.regs := by
  unfold chargeRun
  split
  · rfl
  · simp

@[simp] theorem lowRegs_telemetry (ty x p : Nat) : lowRegs (telemetry ty x p d).regs = lowRegs d.regs := by
  refine lowRegs_each _ fun q _ e => ?_
  split
  · dsimp only
    split
    · simp (disch := decide)
    · split <;> split <;> simp (disch := decide)
  · rfl

end Kept

/-! ### Lift requests, cells and contexts -/

section Kept
variable (d : Dev)

@[simp] theorem lowRegs_setLift (x : LiftSt) : lowRegs (d.setLift x).regs = lowRegs d.regs := by
  simp (disch := decide) [Dev.setLift, liftRegs]

@[simp] theorem lowRegs_slmWait (c : Nat) : lowRegs (slmWait c d).regs = lowRegs d.regs := by
  simp (disch := decide) [slmWait]

@[simp] theorem lowRegs_liftReserve : lowRegs (liftReserve d).regs = lowRegs d.regs := by
  unfold liftReserve
  split
  · rfl
  · split <;> simp (disch := decide)

@[simp] theorem lowRegs_liftDrop (c : Nat) (w : Bool) : lowRegs (liftDrop c w d).regs = lowRegs d.regs := by
  simp [liftDrop]

@[simp] theorem lowRegs_liftClear : lowRegs (liftClear d).regs = lowRegs d.regs :=
  (lowRegs_each _ fun c _ e => lowRegs_slmWait e c).trans (lowRegs_setLift d _)

@[simp] theorem onCell_regs (c : Nat) (f : Cell → Cell) : (Dev.onCell c f d).regs = d.regs := by
  unfold Dev.onCell
  split <;> rfl

@[simp] theorem releaseStaging_regs (c : Nat) : (releaseStaging c d).regs = d.regs := onCell_regs d c _

@[simp] theorem idlePads_regs (c : Nat) : (idlePads c d).regs = d.regs := by
  unfold idlePads
  split
  · rfl
  · split <;> rfl

@[simp] theorem lowRegs_seqParked (c : Nat) : lowRegs (seqParked c d).regs = lowRegs d.regs := by
  simp (disch := decide) [seqParked]

@[simp] theorem lowRegs_hdpStat (cl : Nat) : lowRegs (hdpStat cl d).regs = lowRegs d.regs := by
  simp (disch := decide) [hdpStat]

@[simp] theorem lowRegs_dropPartial (c id : Nat) (of : Cw → Bool) : lowRegs (dropPartial c id of d).regs = lowRegs d.regs := by
  unfold dropPartial
  dsimp only
  split <;> simp [mapCws]

@[simp] theorem lowRegs_dropCtx (c id : Nat) : lowRegs (dropCtx c id d).regs = lowRegs d.regs := by
  simp [dropCtx]

@[simp] theorem lowRegs_busFree (c id : Nat) : lowRegs (busFree c id d).regs = lowRegs d.regs := by
  unfold busFree
  split
  · dsimp only
    split <;> simp (disch := decide)
  · rfl

@[simp] theorem lowRegs_sdpStat : lowRegs (sdpStat d).regs = lowRegs d.regs := by
  simp (disch := decide) [sdpStat]

@[simp] theorem lowRegs_freeSoft (n : Nat) : lowRegs (freeSoft n d).regs = lowRegs d.regs := by
  simp [freeSoft]

@[simp] theorem lowRegs_dropSoft (c id : Nat) : lowRegs (dropSoft c id d).regs = lowRegs d.regs :=
  (lowRegs_sdpStat _).trans (lowRegs_each d fun q _ e => lowRegs_freeSoft e q.1)

@[simp] theorem lowRegs_dropAsk (c id : Nat) : lowRegs (dropAsk c id d).regs = lowRegs d.regs := by
  unfold dropAsk
  split
  · split <;> simp
  · rfl

@[simp] theorem readEnded_regs (c : Nat) (x : Ctx) : (readEnded c x d).regs = d.regs := by
  unfold readEnded
  dsimp only
  split <;> rfl

@[simp] theorem lowRegs_twTest : lowRegs (twTest d).regs = lowRegs d.regs := by
  unfold twTest twReached
  split
  · rfl
  · split
    · exact lowRegs_wr d _ 0 (by decide)
    · rfl

@[simp] theorem lowRegs_gliding (c : Nat) : lowRegs (gliding c d).regs = lowRegs d.regs := by
  simp (disch := decide) [gliding]

/-- The trims lie above the first registers. -/
theorem le_off_of_mem_trims {t : Fld × Fld × Bool} (h : t ∈ trims) : 0x24 ≤ t.1.off :=
  (by decide : ∀ t ∈ trims, 0x24 ≤ t.1.off) t h

theorem lowRegs_trimStep (c : Nat) {t : Fld × Fld × Bool} (h : t ∈ trims) : lowRegs (trimStep c t d).regs = lowRegs d.regs := by
  unfold trimStep
  dsimp only
  split
  · exact lowRegs_wr d _ c (le_off_of_mem_trims h)
  · split
    · exact lowRegs_wr d _ c (le_off_of_mem_trims h)
    · rfl

@[simp] theorem lowRegs_glideMove (c : Nat) : lowRegs (glideMove c d).regs = lowRegs d.regs := by
  unfold glideMove
  split
  · simp
  · have hTrims : lowRegs (if d.on F.CAL_CFG_GLIDE c then Dev.each trims (trimStep c) d
        else Dev.each trims (fun t d => d.wr t.1 (d.rd t.2.1 c) c) d).regs = lowRegs d.regs := by
      split
      · exact lowRegs_each d fun t ht e => lowRegs_trimStep e c ht
      · exact lowRegs_each d fun t ht e => lowRegs_wr e _ c (le_off_of_mem_trims ht)
    simp (disch := decide) [hTrims]

@[simp] theorem lowRegs_glidePoint (c : Nat) : lowRegs (glidePoint c d).regs = lowRegs d.regs := by
  unfold glidePoint
  split
  · rfl
  · split <;> simp

@[simp] theorem lowRegs_freeIO (c id : Nat) : lowRegs (freeIO c id d).regs = lowRegs d.regs := lowRegs_setLift d _

@[simp] theorem lowRegs_freeArray (c id : Nat) : lowRegs (freeArray c id d).regs = lowRegs d.regs := lowRegs_setLift d _

@[simp] theorem lowRegs_closeCtx (c id : Nat) (keep : Bool) : lowRegs (closeCtx c id keep d).regs = lowRegs d.regs := by
  unfold closeCtx
  dsimp only
  simp only [lowRegs_twTest, lowRegs_glidePoint, lowRegs_dropCtx, lowRegs_busFree]
  split
  · split <;> split <;> simp
  · split <;> simp

end Kept

/-! ### The ends of tickets -/

section Kept
variable (d : Dev)

@[simp] theorem lowRegs_accSettle (n : Nat) : lowRegs (accSettle n d).regs = lowRegs d.regs := by
  unfold accSettle
  split
  · simp (disch := decide) [accToIdle]
  · rfl

@[simp] theorem lowRegs_memberDrop (x : Cell) : lowRegs (memberDrop x d).regs = lowRegs d.regs := by
  unfold memberDrop
  split
  · rfl
  · split
    · rfl
    · dsimp only
      split <;> simp (disch := decide) [setDrop, setClaim]

@[simp] theorem lowRegs_releaseStream (c : Nat) : lowRegs (releaseStream c d).regs = lowRegs d.regs := by
  unfold releaseStream
  dsimp only
  split
  · rfl
  · simp (disch := decide)

@[simp] theorem lowRegs_copyCounts (c : Nat) (o : Outcome) : lowRegs (copyCounts c o d).regs = lowRegs d.regs := by
  unfold copyCounts
  dsimp only
  split
  · rfl
  · split
    · simp (disch := decide)
    · split
      · simp (disch := decide)
      · split <;> simp (disch := decide)

@[simp] theorem lowRegs_ticketEnds (c : Nat) (o : Outcome) : lowRegs (ticketEnds c o d).regs = lowRegs d.regs := by
  unfold ticketEnds
  dsimp only
  split <;> split <;> simp (disch := decide)

@[simp] theorem lowRegs_finishStarted (c : Nat) (o : Outcome) : lowRegs (finishStarted c o d).regs = lowRegs d.regs := by
  unfold finishStarted
  split
  · rfl
  · dsimp only
    split <;> simp

@[simp] theorem lowRegs_calEarly (k : Nat) (o : Outcome) : lowRegs (calEarly k o d).regs = lowRegs d.regs := by
  unfold calEarly
  dsimp only
  split
  · exact lowRegs_telemetry _ _ _ _
  · rfl

@[simp] theorem lowRegs_endCtx (c id : Nat) (keep : Bool) (o : Nat → Outcome) :
    lowRegs (endCtx c id keep o d).regs = lowRegs d.regs := by
  unfold endCtx
  split
  · rfl
  · refine (lowRegs_each _ fun k _ e => ?_).trans (lowRegs_closeCtx d c id keep)
    dsimp only
    split <;> simp

@[simp] theorem lowRegs_failSafeCtx (c id : Nat) : lowRegs (failSafeCtx c id d).regs = lowRegs d.regs := by
  unfold failSafeCtx
  split
  · rfl
  · exact (lowRegs_each _ fun k _ e => by rw [onCell_regs]).trans (lowRegs_endCtx d _ _ _ _)

@[simp] theorem lowRegs_freeCell (c : Nat) : lowRegs (freeCell c d).regs = lowRegs d.regs := by
  unfold freeCell
  split
  · rfl
  · simp (disch := decide) [freePush, admStall, pendDrop]

@[simp] theorem lowRegs_dropWaiting : lowRegs (dropWaiting d).regs = lowRegs d.regs := by
  unfold dropWaiting
  have hCells : ∀ p ∈ d.cq, ∀ e : Dev, ∀ x : CqSt, ∀ cells : List Nat,
      lowRegs (Dev.each cells freeCell (e.setCq p.1 x)).regs = lowRegs e.regs :=
    fun p _ e x cells => lowRegs_each _ fun c _ f => lowRegs_freeCell f c
  dsimp only
  split
  · exact (lowRegs_wr _ _ 0 (by decide)).trans (lowRegs_each d fun p hp e => hCells p hp e _ _)
  · exact lowRegs_each d fun p hp e => hCells p hp e _ _

/-! ### What an entry stops -/

@[simp] theorem lowRegs_holdRelease (s c : Nat) : lowRegs (holdRelease s c d).regs = lowRegs d.regs := by
  simp (disch := decide) [holdRelease]

@[simp] theorem lowRegs_holdClear : lowRegs (holdClear d).regs = lowRegs d.regs :=
  lowRegs_each d fun c _ e => lowRegs_each e fun s _ f => lowRegs_holdRelease f s c

@[simp] theorem lowRegs_accClear : lowRegs (accClear d).regs = lowRegs d.regs := by
  refine lowRegs_each d fun f hf e => lowRegs_clearField e ?_
  revert f
  decide

@[simp] theorem lowRegs_dieRestore (s : DieSave) : lowRegs (dieRestore s d).regs = lowRegs d.regs := by
  have hGeom : ∀ p ∈ geom0Fields.zip s.geom0 ++ geom1Fields.zip s.geom1, 0x24 ≤ p.1.off := by
    intro p hp
    have hMem : p.1 ∈ geom0Fields ++ geom1Fields := by
      rcases List.mem_append.mp hp with h | h
      · exact List.mem_append_left _ (List.of_mem_zip h).1
      · exact List.mem_append_right _ (List.of_mem_zip h).1
    exact (by decide : ∀ f ∈ geom0Fields ++ geom1Fields, 0x24 ≤ f.off) _ hMem
  unfold dieRestore
  simp only [Dev.setDie_regs]
  refine (lowRegs_each _ fun p hp e => lowRegs_wr e _ _ (hGeom p hp)).trans ?_
  split <;> simp (disch := decide)

@[simp] theorem lowRegs_enumAbort (c : Nat) : lowRegs (enumAbort c d).regs = lowRegs d.regs := by
  unfold enumAbort
  dsimp only
  split
  · rfl
  next e _ =>
    have hSaved : ∀ f : Dev, lowRegs (Dev.each e.saved dieRestore f).regs = lowRegs f.regs :=
      fun f => lowRegs_each f fun s _ g => lowRegs_dieRestore g s
    simp (disch := decide) only [lowRegs_wr]
    split
    · simp only [Dev.setCh_regs]
      split <;> simp (disch := decide) [hSaved]
    · simp [hSaved]

@[simp] theorem rateAgain_regs (c : Nat) : (rateAgain c d).regs = d.regs := by
  unfold rateAgain
  dsimp only
  split <;> rfl

@[simp] theorem lowRegs_calAbandon (c : Nat) : lowRegs (calAbandon c d).regs = lowRegs d.regs := by
  have hRun : lowRegs (if d.rd F.CAL_STAT_STATE c = 3 then produce 0x75 (d.wr F.CAL_STAT_STATE 2 c) else d).regs = lowRegs d.regs := by
    split <;> simp (disch := decide)
  unfold calAbandon
  dsimp only
  split
  · split <;> simp [hRun]
  · simp [hRun]

@[simp] theorem lowRegs_sanAbort : lowRegs (sanAbort d).regs = lowRegs d.regs := by
  unfold sanAbort
  split <;> simp (disch := decide)

@[simp] theorem lowRegs_copyUntake (c : Nat) : lowRegs (copyUntake c d).regs = lowRegs d.regs := by
  unfold copyUntake
  dsimp only
  split
  · rfl
  · simp (disch := decide)

@[simp] theorem lowRegs_stopUnits : lowRegs (stopUnits d).regs = lowRegs d.regs := by
  unfold stopUnits
  refine (lowRegs_sanAbort _).trans ((lowRegs_each _ fun c _ e => ?_).trans ?_)
  · split
    · rfl
    · exact lowRegs_copyUntake e c
  · refine (lowRegs_accClear _).trans ((lowRegs_holdClear _).trans ((lowRegs_each _ fun c _ e => ?_).trans ?_))
    · simp
    · simp

@[simp] theorem lowRegs_fenceMark (x c : Nat) : lowRegs (fenceMark x c d).regs = lowRegs d.regs := by
  simp (disch := decide) [fenceMark]

@[simp] theorem lowRegs_staleShow (c : Nat) : lowRegs (staleShow c d).regs = lowRegs d.regs := by
  simp (disch := decide) [staleShow]

@[simp] theorem lowRegs_loopbacksEnd : lowRegs (loopbacksEnd d).regs = lowRegs d.regs := by
  refine (lowRegs_each _ fun c _ e => lowRegs_staleShow e c).trans ?_
  unfold loopbacksOff
  dsimp only
  split <;> simp (disch := decide) [ringQuiet]

@[simp] theorem lowRegs_sessionAbort : lowRegs (sessionAbort d).regs = lowRegs d.regs := by
  unfold sessionAbort
  dsimp only
  split
  · split <;> simp (disch := decide) [sessionError]
  · rfl

@[simp] theorem lowRegs_safeLink (i : Nat) : lowRegs (safeLink i d).regs = lowRegs d.regs := by
  simp (disch := decide)

/-- The rest of an entry (R456) leaves the first registers, so FS_STAT stands as the entry has marked it. -/
theorem lowRegs_failSafeBody : lowRegs (failSafeBody d).regs = lowRegs d.regs := by
  unfold failSafeBody
  extract_lets _ stopped closed man between parked fenced ended
  have hStopped : lowRegs stopped.regs = lowRegs d.regs := lowRegs_stopUnits _
  have hClosed : lowRegs closed.regs = lowRegs stopped.regs := lowRegs_each _ fun p _ e => lowRegs_failSafeCtx e p.1 p.2
  have hBetween : lowRegs between.regs = lowRegs closed.regs := lowRegs_each _ fun k _ e => by simp
  have hParked : lowRegs parked.regs = lowRegs between.regs := lowRegs_each _ fun c _ e => by simp (disch := decide)
  have hFenced : lowRegs fenced.regs = lowRegs parked.regs := lowRegs_each _ fun p _ e => by split <;> simp
  have hEnded : lowRegs ended.regs = lowRegs fenced.regs := (lowRegs_loopbacksEnd _).trans (lowRegs_sessionAbort _)
  rw [produce_regs, lowRegs_safeLink, hEnded, hFenced, hParked, hBetween, hClosed, hStopped]

end Kept

/-! ### DEPOSIT of an illegal ring state (R461) -/

/-- At debug level 3 a deposit of 3 in RG_STAT.STATE is an illegal state of machine 12. -/
theorem wsDeposit_illegal_ring {d : Dev} (hLive : d.live = true) (hLevel : d.rd F.DBG_STAT_LEVEL = 3) :
    wsDeposit 0xB010 0 0 3 d =
      enterFailSafe 1 12 0 (safeLink 7 (setTst (fun t => { t with instr := .deposit }) (d.wr F.RG_STAT_STATE 3))) := by
  have hField : ((fieldsAt 0xB010).bind fun fs => fs.find? fun f => f.lo == 0) = some F.RG_STAT_STATE := by decide
  have hIllegal : illegalAt 0xB010 0 0 (3 % 2 ^ F.RG_STAT_STATE.w) = some (12, 0) := by decide
  simp only [wsDeposit, hLive, hLevel, hField, hIllegal, beq_self_eq_true, Bool.and_self, if_true, illegalUnit]

theorem enterable_of_live {d : Dev} (hLive : d.live = true) (hInactive : d.on F.FS_STAT_ACTIVE = false) : Enterable d := by
  simp only [Dev.live, Bool.and_eq_true, Bool.not_eq_true'] at hLive
  obtain ⟨⟨hReset, hClock⟩, -⟩ := hLive
  exact ⟨hReset, hClock, hInactive⟩

theorem Enterable.setTst {d : Dev} (h : Enterable d) (f : TstSt → TstSt) : Enterable (setTst f d) :=
  h.of_eq rfl rfl rfl rfl

/-- An entry, but for cause 5, leaves FS_STAT as it has marked it. -/
theorem Enterable.rd_enterFailSafe {d : Dev} (h : Enterable d) {c : Nat} (hc : c ≠ 5) (u i : Nat) {f : Fld}
    (hf : f.key 0 < 0x24 * 131072) : (enterFailSafe c u i d).rd f = (entryMarked c u i d).rd f := by
  rw [h.enterFailSafe_eq, if_neg hc, rd_eq_of_lowRegs (lowRegs_failSafeBody _) hf, rd_failSafeMark]

/-! ### MBIST (R475) -/

/-- The ledger's registers are gone from the register file, and no other is touched. -/
theorem onlyAt_mbist {d e : Dev} (h : e.regs = d.regs.filter fun p => !(0x7100 ≤ keyOff p.1 && keyOff p.1 ≤ 0x71B4)) :
    d.onlyAt [(0x7100, 0x71B4)] e := by
  intro k hk
  rw [h]
  refine look_filter_of_pos (p := fun j => !(0x7100 ≤ keyOff j && keyOff j ≤ 0x71B4)) ?_
  have hOut := hk _ (List.mem_singleton_self _)
  simp only [Bool.not_eq_true', Bool.and_eq_false_iff, decide_eq_false_iff_not]
  omega

theorem keepRegions_none_bad (x : MpSt) : (keepRegions (fun _ => false) x).bad = [] := by
  simp [keepRegions]

/-! ### FUSEPGM (R476) -/

theorem burn_locked {fu : Fuses} (h : fu.lock = true) (x : Fuse) : burn fu x = fu := by simp [burn, h]

theorem burnAll_locked {fu : Fuses} (h : fu.lock = true) (xs : List Fuse) : burnAll xs fu = fu := by
  induction xs with
  | nil => rfl
  | cons x xs ih => rw [burnAll, burn_locked h, ih]

theorem burn_repair {fu : Fuses} (hLock : fu.lock = false) (hRoom : fu.repairs.length < 256) (m r p : Nat) :
    burn fu (.repair m r p) = { fu with repairs := fu.repairs ++ [(m, r, p)] } := by simp [burn, hLock, hRoom]

theorem burnAll_lock {fu : Fuses} (h : fu.lock = false) (x : Fuse) : burnAll [.lock, x] fu = { fu with lock := true } := by
  have hLocked : burn fu .lock = { fu with lock := true } := by simp [burn, h]
  rw [burnAll, hLocked, burnAll_locked rfl]

theorem exec_fusepgm_of_testMode {s : State} (h : s.dev.tst.testMode = true) (xs : List Fuse) :
    exec (.fusepgm xs) s =
      .next { s with fuse := burnAll xs s.fuse, dev := { s.dev with tst := { s.dev.tst with instr := .fusepgm } } } := by
  simp only [exec, execFusepgm, State.updF, wsFusepgm, h, if_true, setTst]

/-- With the lock blown FUSEPGM touches the wrapper's own state alone, in test mode or not. -/
theorem exec_fusepgm_of_lock {s : State} (h : s.fuse.lock = true) (xs : List Fuse) :
    ∃ x : TstSt, exec (.fusepgm xs) s = .next { s with dev := { s.dev with tst := x } } := by
  by_cases hTest : s.dev.tst.testMode = true
  · exact ⟨_, (exec_fusepgm_of_testMode hTest xs).trans (by rw [burnAll_locked h])⟩
  · refine ⟨s.dev.tst, ?_⟩
    simp only [exec, execFusepgm, State.updF, wsFusepgm, hTest, Bool.false_eq_true, if_false]

/-! ### The statement -/

theorem exec_wsBypass (bits : List Bool) (s : State) : exec (.wsBypass bits) s = .next (s.withDev (wsBypass bits s.dev)) := rfl

theorem exec_wsExtest (bits cap : List Bool) (s : State) :
    exec (.wsExtest bits cap) s = .next (s.withDev (wsBoundary .extest bits cap s.dev)) := rfl

theorem exec_wsIntest (bits cap : List Bool) (s : State) :
    exec (.wsIntest bits cap) s = .next (s.withDev (wsBoundary .intest bits cap s.dev)) := rfl

theorem exec_scan (bits : List Bool) (s : State) : exec (.scan bits) s = .next (s.withDev (wsScan bits s.dev)) := rfl

theorem exec_mbist (res : List (Bool × List Nat)) (s : State) : exec (.mbist res) s = .next (s.withDev (wsMbist res s.dev)) := rfl

theorem exec_fuserd (s : State) : exec .fuserd s = .next (s.withDev (wsFuserd s.dev)) := rfl

theorem exec_observe (o lo i : Nat) (s : State) : exec (.observe o lo i) s = .next (s.withDev (wsObserve o lo i s.dev)) := rfl

theorem exec_deposit (o lo i v : Nat) (s : State) : exec (.deposit o lo i v) s = .next (s.withDev (wsDeposit o lo i v s.dev)) := rfl

/-- What is shifted out of BYPASS: the bit it held, then all but the last of those shifted in. -/
theorem take_cons_length {b : Bool} {bits : List Bool} (h : bits ≠ []) : (b :: bits).take bits.length = b :: bits.dropLast := by
  obtain ⟨n, hn⟩ : ∃ n, bits.length = n + 1 := Nat.exists_eq_succ_of_ne_zero (by simpa using h)
  rw [List.dropLast_eq_take, hn]
  rfl

/-- Settles O51: the wrapper's instructions change the wrapper's own state; FUSEPGM blows the items in turn; and the entry that an
illegal state makes leaves FS_STAT as it has marked it (`lowRegs_failSafeBody`). -/
theorem testWrapper : Obligations.TestWrapper := by
  refine ⟨?_, ?_, ?_, ?_, ?_, ?_, ?_, ?_, ?_, ?_, ?_, ?_⟩
  · intro s bits h
    rw [exec_wsBypass, wsBypass, setTst, take_cons_length h]
    congr 2
    cases bits with
    | nil => exact absurd rfl h
    | cons b r => simp [List.getLast?_cons_cons]
  · intro s bits cap h
    rw [exec_wsExtest, wsBoundary, if_pos h]
    rfl
  · intro s bits cap h
    rw [exec_wsIntest, wsBoundary, if_pos h]
    rfl
  · intro s bits h
    rw [exec_scan, wsScan, if_pos h]
    exact ⟨_, rfl, rfl, by simp [setTst], rfl, rfl, rfl⟩
  · intro s res h
    rw [exec_mbist, wsMbist, if_pos h]
    exact ⟨_, rfl, rfl, rfl, keepRegions_none_bad _, rfl, onlyAt_mbist rfl⟩
  · intro s
    exact ⟨_, exec_fuserd s, rfl, rfl, rfl⟩
  · intro s m r p hTest hLock hRoom
    refine ⟨_, exec_fusepgm_of_testMode hTest _, ?_, rfl, rfl, rfl, Dev.onlyAt_regs _ rfl⟩
    rw [burnAll, burn_repair hLock hRoom]
    rfl
  · intro s x hTest hLock
    exact ⟨_, exec_fusepgm_of_testMode hTest _, burnAll_lock hLock x, rfl, rfl, Dev.onlyAt_regs _ rfl⟩
  · intro s xs hLock
    obtain ⟨y, hExec⟩ := exec_fusepgm_of_lock hLock xs
    exact ⟨_, hExec, rfl, rfl, rfl, Dev.onlyAt_regs _ rfl⟩
  · intro s o lo i f hLive hLevel hField
    rw [exec_observe, wsObserve, hLive, decide_eq_true hLevel, Bool.and_self, if_pos rfl, hField]
    rfl
  · intro s o lo i v f hLive hLevel hField hLegal
    simp only [exec_deposit, wsDeposit, hLive, hLevel, hField, hLegal, beq_self_eq_true, Bool.and_self, if_true]
    rfl
  · intro s hLive hLevel hInactive
    have hEnter : Enterable (safeLink 7 (setTst (fun t => { t with instr := .deposit }) (s.dev.wr F.RG_STAT_STATE 3))) :=
      (((enterable_of_live hLive hInactive).wr 3 (by decide) (by decide)).setTst _).safeLink 7
    rw [exec_deposit, wsDeposit_illegal_ring hLive hLevel]
    refine ⟨_, rfl, ?_, ?_, ?_, ?_, ?_⟩ <;>
      rw [State.withDev_dev, hEnter.rd_enterFailSafe (by decide) 12 0 (by decide)]
    · exact rd_entryMarked_active _ _ _ _
    · exact rd_entryMarked_cause _ _ _ _ (by decide)
    · exact rd_entryMarked_unit _ _ _ _ (by decide)
    · exact rd_entryMarked_index _ _ _ _ (by decide)
    · exact rd_entryMarked_resetOnly _ _ _ _

end Sys2Proof.Machine
end

section
/-!
PROOFS. The router's registers: writes of a routing channel and of a LUT cell, taken and refused (R331, R332, R335–R337).
-/

namespace Sys2Proof.Machine

-- The kernel evaluations below run one after another.
set_option Elab.async false

/-! ### The registers -/

/-- The fields of SPR_CH of a channel. -/
def sprChFields (c : Nat) : List Fld :=
  [F.SPR_CH_SRC.ix c, F.SPR_CH_DST.ix c, F.SPR_CH_EN.ix c, F.SPR_CH_OWNER.ix c, F.SPR_CH_NS.ix c, F.SPR_CH_LOOP.ix c,
    F.SPR_CH_TRIP.ix c]

/-- The fields of SPR_LUT of a cell. -/
def sprLutFields (k : Nat) : List Fld :=
  [F.SPR_LUT_TRUTH.ix k, F.SPR_LUT_FF.ix k, F.SPR_LUT_FILT.ix k, F.SPR_LUT_NS.ix k, F.SPR_LUT_OWNER.ix k, F.SPR_LUT_STICKY.ix k]

theorem fieldsAt_sprCh : ∀ c : Fin 48, fieldsAt (0x5100 + 4 * c.val) = some (sprChFields c) := by decide +kernel

theorem fieldsAt_sprLut : ∀ k : Fin 16, fieldsAt (0x5300 + 4 * k.val) = some (sprLutFields k) := by decide +kernel

section Router

variable {o : Nat} (hlo : 0x5000 ≤ o) (hhi : o < 0x6000)

include hlo hhi

/-- No select multiplies the router's registers (R487). -/
theorem named_router (d : Dev) (a : Acc) : d.named o a = 0 := by
  have hOne : selOf o = .one := by
    rw [selOf, if_neg (by omega), if_neg (by omega), if_neg (by omega), if_neg (by omega), if_neg (by omega), if_neg (by omega),
      if_neg (by omega)]
  rw [Dev.named, hOne]
  rfl

theorem ignored_router {w : Wr} (ho : w.off = o) (d : Dev) : ignored w d = none := by
  rw [ignored, if_neg (by omega), if_neg (by omega), if_neg (by omega), if_neg (by omega)]

/-- The router refuses no value but one outside its field's range. -/
theorem dropCause_router {w : Wr} (ho : w.off = o) {fs : List Fld} (d : Dev) (hty : ∀ f ∈ fs, f.ty ≠ .rwi)
    (hrange : ∀ f ∈ fs, f.vmin = 0 ∧ (f.vmax = none ∨ ∃ m, f.vmax = some m ∧ w.get f ≤ m)) : dropCause w fs d = 0 := by
  refine dropCause_eq_zero ?_ (idleErr_of_unowned fun f hf h => absurd h (hty f hf)) ?_
  · simp only [rangeErr, Bool.or_eq_false_iff]
    refine ⟨⟨⟨⟨⟨⟨⟨List.any_eq_false.mpr fun f hf => ?_, ?_⟩, ?_⟩, ?_⟩, ?_⟩, ?_⟩, ?_⟩, ?_⟩
    · obtain ⟨hMin, hMax | ⟨m, hMax, hle⟩⟩ := hrange f hf
      · simp [hMin, hMax]
      · simpa [hMin, hMax] using hle
    all_goals
      simp
      omega
  · simp only [unitErr]
    simp
    omega

theorem regAction_router {w : Wr} (ho : w.off = o) (fu : Fuses) (old d : Dev) : regAction w fu old d = intAction w d := by
  rw [regAction, if_neg (by omega), if_neg (by omega), if_neg (by omega), if_pos (by omega)]

/-- A write of a router's register that the port serves and the router does not refuse: its fields, then its action. -/
theorem regWrite_router {d : Dev} {a : Acc} (h : d.takes o a = true) (v : Nat) (fu : Fuses) {fs : List Fld}
    (hf : fieldsAt o = some fs) (hro : fs.all (fun f => f.ty == .ro) = false)
    (hs : sprRefuses { wr := true, off := o, data := v, acc := a, env := {} } d = false)
    (hty : ∀ f ∈ fs, f.ty ≠ .rwi ∧ f.ty ≠ .rwc)
    (hrange : ∀ f ∈ fs, f.vmin = 0 ∧ (f.vmax = none ∨ ∃ m, f.vmax = some m ∧ fld v f.lo f.w ≤ m)) :
    regWrite o v a {} fu d =
      (intAction { off := o, v := v, acc := a } (Dev.each fs (takeField { off := o, v := v, acc := a }) d)).acked 0 := by
  have hRwc : fs.any (fun f => f.ty == .rwc) = false := by
    rw [List.any_eq_false]
    intro f hm
    simpa using (hty f hm).2
  rw [regWrite_takes h v {} fu hf hro (by omega) hs (ignored_router hlo hhi rfl d)
    (dropCause_router hlo hhi rfl d (fun f hm => (hty f hm).1) hrange) (by omega) (by omega) hRwc,
    regAction_router hlo hhi rfl, named_router hlo hhi]

end Router

/-! ### Refused writes (R332) -/

/-- A write of a channel that the router refuses is counted and does nothing else. -/
theorem regWrite_router_refused {o : Nat} {d : Dev} {a : Acc} (h : d.takes o a = true) (ho : 0x5100 ≤ o ∧ o < 0x5340) (v : Nat)
    (fu : Fuses) {fs : List Fld} (hf : fieldsAt o = some fs) (hro : fs.all (fun f => f.ty == .ro) = false)
    (hs : sprRefuses { wr := true, off := o, data := v, acc := a, env := {} } d = true) :
    regWrite o v a {} fu d = (sprAccErr { wr := true, off := o, data := v, acc := a, env := {} } d).acked 0 := by
  simp only [Dev.takes, Bool.and_eq_true, Bool.not_eq_true'] at h
  obtain ⟨⟨hready, hmask⟩, -⟩ := h
  have hNotBank : (o == 8) = false := by
    rw [beq_eq_false_iff_ne]
    omega
  rw [regWrite_ready hready _ _ _ _ _ (by omega)]
  simp only [servedWrite, hf, hro, hmask, hs, hNotBank, Bool.false_and, Bool.false_or, Bool.false_eq_true, if_false, if_true]

theorem sprRefuses_of_root {x : Access} (d : Dev) (hdom : x.acc.dom = 0) (hns : x.acc.ns = false) : sprRefuses x d = false := by
  simp [sprRefuses, hdom, hns]

theorem ne_root_of_dom {a : Acc} (h : a.dom ≠ 0) : (a.dom.val == 0) = false := by
  rw [beq_eq_false_iff_ne]
  exact fun hz => h (Fin.ext hz)

theorem sprRefuses_channel {d : Dev} {x : Access} {c : Nat} (hc : c < 48) (ho : x.off = 0x5100 + 4 * c) (hdom : x.acc.dom ≠ 0)
    (hown : d.rd (F.SPR_CH_OWNER.ix c) ≠ x.acc.dom.val) : sprRefuses x d = true := by
  have hElem : (x.off - 0x5100) / 4 = c := by omega
  have hOwn : (d.rd (F.SPR_CH_OWNER.ix c) == x.acc.dom.val) = false := by simpa using hown
  simp only [sprRefuses, ne_root_of_dom hdom, Bool.false_and, Bool.false_eq_true, if_false]
  rw [if_neg (by omega), if_pos (by omega), hElem, hOwn]
  rfl

theorem sprRefuses_cell {d : Dev} {x : Access} {k : Nat} (hk : k < 16) (ho : x.off = 0x5300 + 4 * k) (hdom : x.acc.dom ≠ 0)
    (hown : d.rd (F.SPR_LUT_OWNER.ix k) ≠ x.acc.dom.val) : sprRefuses x d = true := by
  have hElem : (x.off - 0x5300) / 4 = k := by omega
  have hOwn : (d.rd (F.SPR_LUT_OWNER.ix k) == x.acc.dom.val) = false := by simpa using hown
  simp only [sprRefuses, ne_root_of_dom hdom, Bool.false_and, Bool.false_eq_true, if_false]
  rw [if_neg (by omega), if_neg (by omega), if_pos (by omega), hElem, hOwn]
  rfl

/-- The record of a refused write: the place of its register, and the domain. -/
def sprRefusal (reg dom : Nat) (d : Dev) : Dev :=
  (((d.wr F.SPR_ACCERR_CNT (satAdd 16 (d.rd F.SPR_ACCERR_CNT) 1)).wr F.SPR_ACCERR_LASTREG reg).wr F.SPR_ACCERR_LASTDOM dom).wr
    F.SPR_FLAG_ACCERR 1

theorem sprAccErr_channel {x : Access} {c : Nat} (hc : c < 48) (ho : x.off = 0x5100 + 4 * c) (d : Dev) :
    sprAccErr x d = sprRefusal c x.acc.dom.val d := by
  have hElem : (x.off - 0x5100) / 4 = c := by omega
  simp only [sprAccErr, if_pos (show 0x5100 ≤ x.off ∧ x.off < 0x51C0 by omega), hElem]
  rfl

theorem sprAccErr_cell {x : Access} {k : Nat} (hk : k < 16) (ho : x.off = 0x5300 + 4 * k) (d : Dev) :
    sprAccErr x d = sprRefusal (48 + k) x.acc.dom.val d := by
  have hElem : (x.off - 0x5300) / 4 = k := by omega
  simp only [sprAccErr, if_neg (show ¬ (0x5100 ≤ x.off ∧ x.off < 0x51C0) by omega),
    if_pos (show 0x5300 ≤ x.off ∧ x.off < 0x5340 by omega), hElem]
  rfl

/-! ### What a write of the router may change -/

/-- From `d` to `e` only register fields at the offsets `rs` and the router's own state change. -/
structure RouterOnly (rs : List (Nat × Nat)) (d e : Dev) : Prop where
  frame : { e with regs := d.regs, spr := d.spr } = d
  at_ : d.onlyAt rs e

theorem RouterOnly.refl (rs : List (Nat × Nat)) (d : Dev) : RouterOnly rs d d := ⟨rfl, Dev.onlyAt_refl rs d⟩

theorem RouterOnly.trans {rs : List (Nat × Nat)} {d e f : Dev} (h : RouterOnly rs d e) (g : RouterOnly rs e f) :
    RouterOnly rs d f where
  frame := by
    have hStep : ({ ({ f with regs := e.regs, spr := e.spr } : Dev) with regs := d.regs, spr := d.spr } : Dev) =
        { e with regs := d.regs, spr := d.spr } := by rw [g.frame]
    exact hStep.trans h.frame
  at_ := Dev.onlyAt_trans h.at_ g.at_

theorem RouterOnly.wr {rs : List (Nat × Nat)} {d e : Dev} (h : RouterOnly rs d e) {f : Fld} (v : Nat) (hlo : f.lo < 32)
    (hoff : ∃ r ∈ rs, r.1 ≤ f.off ∧ f.off ≤ r.2) : RouterOnly rs d (e.wr f v) :=
  h.trans ⟨rfl, Dev.onlyAt_wr (Dev.onlyAt_refl rs e) f v 0 (by rwa [keyOff_key hlo (by decide)])⟩

theorem RouterOnly.spr {rs : List (Nat × Nat)} {d e : Dev} (h : RouterOnly rs d e) (x : SprSt) : RouterOnly rs d { e with spr := x } :=
  h.trans ⟨rfl, Dev.onlyAt_regs rs rfl⟩

theorem RouterOnly.eq_acked {rs : List (Nat × Nat)} {d e : Dev} (h : RouterOnly rs d e) (v : Nat) :
    e.acked v = { d with regs := e.regs, port := (e.acked v).port, spr := e.spr } := by
  have hFrame := congrArg (fun x : Dev => { x with regs := e.regs, spr := e.spr, port := (e.acked v).port }) h.frame
  exact hFrame

theorem RouterOnly.withDev_acked {rs : List (Nat × Nat)} {s : State} {e : Dev} (h : RouterOnly rs s.dev e) :
    s.withDev (e.acked 0) = s.withDev { s.dev with regs := (s.withDev (e.acked 0)).dev.regs,
                                                   port := (s.withDev (e.acked 0)).dev.port,
                                                   spr := (s.withDev (e.acked 0)).dev.spr } :=
  congrArg s.withDev (h.eq_acked 0)

/-! ### The loop graph (R336) -/

theorem off_sprCh {f : Fld} (hoff : f.off = 0x5100) (hstride : f.stride = 4) (hper : f.per = 1) (c : Nat) :
    (f.ix c).off = 0x5100 + 4 * c := by simp [Fld.ix, hoff, hstride, hper]

theorem off_sprLut {f : Fld} (hoff : f.off = 0x5300) (hstride : f.stride = 4) (hper : f.per = 1) (k : Nat) :
    (f.ix k).off = 0x5300 + 4 * k := by simp [Fld.ix, hoff, hstride, hper]

/-- Two fields at different bits of their registers have different keys. -/
theorem key_ne_of_lo {f g : Fld} {i j : Nat} (hf : f.lo < 32) (hg : g.lo < 32) (hi : i < 4096) (hj : j < 4096) (h : f.lo ≠ g.lo) :
    f.key i ≠ g.key j := by
  simp only [Fld.key]
  omega

/-- The scan writes LOOP of every channel and nothing else. -/
theorem routerOnly_loopScan (d : Dev) : RouterOnly [(0x5100, 0x51BC)] d (loopScan d) := by
  refine Dev.each_rel _ (RouterOnly.refl _) (fun _ _ _ => RouterOnly.trans) _ _ (fun c hc e => ?_) d
  have hc := List.mem_range.mp hc
  refine (RouterOnly.refl _ e).wr _ (by simp [Fld.ix, F.SPR_CH_LOOP]) ⟨_, List.mem_singleton_self _, ?_⟩
  rw [off_sprCh rfl rfl rfl]
  dsimp only
  omega

theorem rd_loopScan {f : Fld} (hlo : f.lo < 32) (h : f.lo ≠ 21) (d : Dev) : (loopScan d).rd f = d.rd f := by
  refine Dev.each_rel (fun a b => b.rd f = a.rd f) (fun _ => rfl) (fun _ _ _ h g => g.trans h) _ _ (fun c _ e => ?_) d
  exact rd_put_ne e _ (key_ne_of_lo (by simp [Fld.ix, F.SPR_CH_LOOP]) hlo (by decide) (by decide)
    (by simpa [Fld.ix, F.SPR_CH_LOOP] using Ne.symm h))

/-! ### A channel is written (R331, R337) -/

/-- SPR_CH of a channel with the fields of a word, TRIP keeping the bits the word does not clear. -/
def sprChTaken (c v : Nat) (d : Dev) : Dev :=
  let e := ((((d.wr (F.SPR_CH_SRC.ix c) (fld v 0 7)).wr (F.SPR_CH_DST.ix c) (fld v 8 7)).wr (F.SPR_CH_EN.ix c) (fld v 15 1)).wr
    (F.SPR_CH_OWNER.ix c) (fld v 16 4)).wr (F.SPR_CH_NS.ix c) (fld v 20 1)
  e.wr (F.SPR_CH_TRIP.ix c) (maskOff 1 (e.rd (F.SPR_CH_TRIP.ix c)) (fld v 22 1))

theorem takeField_w1c {w : Wr} {f : Fld} (d : Dev) (hty : f.ty = .w1c) :
    takeField w f d = d.wr f (maskOff f.w (d.rd f w.inst) (w.get f)) w.inst := by simp [takeField, hty]

theorem sprChFields_types : ∀ c : Fin 48, ∀ f ∈ sprChFields c, f.ty ≠ .rwi ∧ f.ty ≠ .rwc := by decide +kernel

/-- DST is the one field of a channel with a limit. -/
theorem sprChFields_range : ∀ c : Fin 48, ∀ f ∈ sprChFields c,
    f.vmin = 0 ∧ (f.vmax = none ∨ f.lo = 8 ∧ f.w = 7 ∧ f.vmax = some 95) := by decide +kernel

theorem sprChFields_taken {c : Nat} (hc : c < 48) {w : Wr} (hw : w.inst = 0) (d : Dev) :
    Dev.each (sprChFields c) (takeField w) d = sprChTaken c w.v d := by
  have hPlain (f : Fld) (hoff : f.off = 0x5100) (hstride : f.stride = 4) (hper : f.per = 1) : isRgCfg (f.ix c).off = false := by
    rw [off_sprCh hoff hstride hper]
    simp [isRgCfg]
    omega
  simp only [sprChFields, Dev.each_cons, Dev.each_nil, takeField_plain _ (.inl rfl) (hPlain F.SPR_CH_SRC rfl rfl rfl),
    takeField_plain _ (.inl rfl) (hPlain F.SPR_CH_DST rfl rfl rfl), takeField_plain _ (.inl rfl) (hPlain F.SPR_CH_EN rfl rfl rfl),
    takeField_plain _ (.inl rfl) (hPlain F.SPR_CH_OWNER rfl rfl rfl), takeField_plain _ (.inl rfl) (hPlain F.SPR_CH_NS rfl rfl rfl),
    takeField_inert _ (f := F.SPR_CH_LOOP.ix c) (.inl rfl), takeField_w1c _ (f := F.SPR_CH_TRIP.ix c) rfl, hw, Wr.get_ix (f := F.SPR_CH_SRC) c rfl, Wr.get_ix (f := F.SPR_CH_DST) c rfl,
    Wr.get_ix (f := F.SPR_CH_EN) c rfl, Wr.get_ix (f := F.SPR_CH_OWNER) c rfl, Wr.get_ix (f := F.SPR_CH_NS) c rfl,
    Wr.get_ix (f := F.SPR_CH_TRIP) c rfl]
  rfl

theorem intAction_sprCh {c : Nat} (hc : c < 48) {w : Wr} (ho : w.off = 0x5100 + 4 * c) (d : Dev) :
    intAction w d = chWritten c (w.bit F.SPR_CH_EN) d := by
  have hElem : w.elem 0x5100 4 = c := by
    simp only [Wr.elem]
    omega
  simp only [intAction]
  rw [if_neg (by omega), if_neg (by omega), if_neg (by omega), if_neg (by omega), if_neg (by omega), if_pos (by omega), hElem]

/-- A write of channel `c` that the router takes. -/
theorem regWrite_sprCh {d : Dev} {a : Acc} {c : Fin 48} (h : d.takes (0x5100 + 4 * c.val) a = true) (hdom : a.dom = 0)
    (hns : a.ns = false) {v : Nat} (hdst : fld v 8 7 ≤ 95) (fu : Fuses) :
    regWrite (0x5100 + 4 * c.val) v a {} fu d =
      (chWritten c (fld v 15 1 != 0) (sprChTaken c v d)).acked 0 := by
  have hc := c.isLt
  rw [regWrite_router (by omega) (by omega) h v fu (fieldsAt_sprCh c) rfl (sprRefuses_of_root d hdom hns) (sprChFields_types c)
    fun f hf => ?_, intAction_sprCh hc rfl, sprChFields_taken hc rfl]
  · rfl
  · obtain ⟨hMin, hMax | ⟨hLo, hW, hMax⟩⟩ := sprChFields_range c f hf
    · exact ⟨hMin, .inl hMax⟩
    · exact ⟨hMin, .inr ⟨95, hMax, by rwa [hLo, hW]⟩⟩

theorem fld_mod (v lo w : Nat) : fld v lo w % 2 ^ w = fld v lo w := Nat.mod_mod _ _

section Channel

variable {c : Nat} (hc : c < 48) (v : Nat) (d : Dev)

include hc in
theorem routerOnly_sprChTaken : RouterOnly [(0x5100, 0x51BC)] d (sprChTaken c v d) := by
  have hOff (f : Fld) (hoff : f.off = 0x5100) (hstride : f.stride = 4) (hper : f.per = 1) :
      ∃ r ∈ [(0x5100, 0x51BC)], r.1 ≤ (f.ix c).off ∧ (f.ix c).off ≤ r.2 := by
    refine ⟨_, List.mem_singleton_self _, ?_⟩
    rw [off_sprCh hoff hstride hper]
    dsimp only
    omega
  have hLo (f : Fld) (hbstep : f.bstep = 0) (hlo : f.lo < 32) : (f.ix c).lo < 32 := by simpa [Fld.ix, hbstep] using hlo
  exact ((((((RouterOnly.refl _ d).wr _ (hLo F.SPR_CH_SRC rfl (by decide)) (hOff F.SPR_CH_SRC rfl rfl rfl)).wr _
    (hLo F.SPR_CH_DST rfl (by decide)) (hOff F.SPR_CH_DST rfl rfl rfl)).wr _ (hLo F.SPR_CH_EN rfl (by decide))
    (hOff F.SPR_CH_EN rfl rfl rfl)).wr _ (hLo F.SPR_CH_OWNER rfl (by decide)) (hOff F.SPR_CH_OWNER rfl rfl rfl)).wr _
    (hLo F.SPR_CH_NS rfl (by decide)) (hOff F.SPR_CH_NS rfl rfl rfl)).wr _ (hLo F.SPR_CH_TRIP rfl (by decide))
    (hOff F.SPR_CH_TRIP rfl rfl rfl)

include hc in
theorem routerOnly_chWritten (on : Bool) : RouterOnly [(0x5100, 0x51BC)] d (chWritten c on (sprChTaken c v d)) := by
  have hTaken := routerOnly_sprChTaken hc v d
  unfold chWritten
  split
  · exact (hTaken.spr _).trans (routerOnly_loopScan _)
  · exact hTaken.trans (routerOnly_loopScan _)

theorem rd_chWritten {f : Fld} (hlo : f.lo < 32) (h : f.lo ≠ 21) (on : Bool) : (chWritten c on d).rd f = d.rd f := by
  unfold chWritten
  split
  · exact rd_loopScan hlo h _
  · exact rd_loopScan hlo h _

end Channel

/-- A write of an element of one array leaves the fields of another that lie at other bits. -/
theorem rd_wr_ix_ne (d : Dev) {f g : Fld} (v i j : Nat)
    (h : f.bstep = 0 ∧ g.bstep = 0 ∧ f.lo < 32 ∧ g.lo < 32 ∧ f.lo ≠ g.lo) : (d.wr (f.ix i) v).rd (g.ix j) = d.rd (g.ix j) := by
  obtain ⟨hf, hg, hfLo, hgLo, hne⟩ := h
  exact Dev.rd_wr_ne _ _ (key_ne_of_lo (by simpa [Fld.ix, hf] using hfLo) (by simpa [Fld.ix, hg] using hgLo) (by decide)
    (by decide) (by simpa [Fld.ix, hf, hg] using hne))

theorem rd_wr_ix (d : Dev) (f : Fld) (v i : Nat) : (d.wr (f.ix i) v).rd (f.ix i) = v % 2 ^ f.w := Dev.rd_wr _ _ _ _

theorem rd_of_onlyAt {rs : List (Nat × Nat)} {d e : Dev} (h : d.onlyAt rs e) {f : Fld} {i : Nat}
    (hf : ∀ r ∈ rs, ¬ (r.1 ≤ keyOff (f.key i) ∧ keyOff (f.key i) ≤ r.2)) : e.rd f i = d.rd f i := by
  simp only [Dev.rd, h _ hf]

theorem rd_sprChTaken (c v : Nat) (d : Dev) :
    (sprChTaken c v d).rd (F.SPR_CH_SRC.ix c) = fld v 0 7 ∧ (sprChTaken c v d).rd (F.SPR_CH_DST.ix c) = fld v 8 7 ∧
      (sprChTaken c v d).rd (F.SPR_CH_EN.ix c) = fld v 15 1 ∧ (sprChTaken c v d).rd (F.SPR_CH_OWNER.ix c) = fld v 16 4 ∧
      (sprChTaken c v d).rd (F.SPR_CH_NS.ix c) = fld v 20 1 := by
  refine ⟨?_, ?_, ?_, ?_, ?_⟩ <;> simp (disch := decide) only [sprChTaken, rd_wr_ix_ne, rd_wr_ix]
  · exact fld_mod v 0 7
  · exact fld_mod v 8 7
  · exact fld_mod v 15 1
  · exact fld_mod v 16 4
  · exact fld_mod v 20 1

/-! ### A LUT cell is written (R335) -/

/-- SPR_LUT of a cell with the fields of a word. -/
def sprLutTaken (k v : Nat) (d : Dev) : Dev :=
  ((((d.wr (F.SPR_LUT_TRUTH.ix k) (fld v 0 8)).wr (F.SPR_LUT_FF.ix k) (fld v 8 1)).wr (F.SPR_LUT_FILT.ix k) (fld v 9 4)).wr
    (F.SPR_LUT_NS.ix k) (fld v 13 1)).wr (F.SPR_LUT_OWNER.ix k) (fld v 14 4)

theorem sprLutFields_types : ∀ k : Fin 16, ∀ f ∈ sprLutFields k, f.ty ≠ .rwi ∧ f.ty ≠ .rwc := by decide +kernel

theorem sprLutFields_range : ∀ k : Fin 16, ∀ f ∈ sprLutFields k, f.vmin = 0 ∧ f.vmax = none := by decide +kernel

theorem sprLutFields_taken {k : Nat} (hk : k < 16) {w : Wr} (hw : w.inst = 0) (d : Dev) :
    Dev.each (sprLutFields k) (takeField w) d = sprLutTaken k w.v d := by
  have hPlain (f : Fld) (hoff : f.off = 0x5300) (hstride : f.stride = 4) (hper : f.per = 1) : isRgCfg (f.ix k).off = false := by
    rw [off_sprLut hoff hstride hper]
    simp [isRgCfg]
    omega
  simp only [sprLutFields, Dev.each_cons, Dev.each_nil, takeField_plain _ (.inl rfl) (hPlain F.SPR_LUT_TRUTH rfl rfl rfl),
    takeField_plain _ (.inl rfl) (hPlain F.SPR_LUT_FF rfl rfl rfl), takeField_plain _ (.inl rfl) (hPlain F.SPR_LUT_FILT rfl rfl rfl),
    takeField_plain _ (.inl rfl) (hPlain F.SPR_LUT_NS rfl rfl rfl), takeField_plain _ (.inl rfl) (hPlain F.SPR_LUT_OWNER rfl rfl rfl),
    takeField_inert _ (f := F.SPR_LUT_STICKY.ix k) (.inl rfl), hw, Wr.get_ix (f := F.SPR_LUT_TRUTH) k rfl,
    Wr.get_ix (f := F.SPR_LUT_FF) k rfl, Wr.get_ix (f := F.SPR_LUT_FILT) k rfl, Wr.get_ix (f := F.SPR_LUT_NS) k rfl,
    Wr.get_ix (f := F.SPR_LUT_OWNER) k rfl]
  rfl

theorem intAction_sprLut {k : Nat} (hk : k < 16) {w : Wr} (ho : w.off = 0x5300 + 4 * k) (d : Dev) :
    intAction w d = lutWritten k d := by
  have hElem : w.elem 0x5300 4 = k := by
    simp only [Wr.elem]
    omega
  simp only [intAction]
  rw [if_neg (by omega), if_neg (by omega), if_neg (by omega), if_neg (by omega), if_neg (by omega), if_neg (by omega),
    if_pos (by omega), hElem]

/-- A write of cell `k` that the router takes. -/
theorem regWrite_sprLut {d : Dev} {a : Acc} {k : Fin 16} (h : d.takes (0x5300 + 4 * k.val) a = true) (hdom : a.dom = 0)
    (hns : a.ns = false) (v : Nat) (fu : Fuses) :
    regWrite (0x5300 + 4 * k.val) v a {} fu d = (lutWritten k (sprLutTaken k v d)).acked 0 := by
  have hk := k.isLt
  rw [regWrite_router (by omega) (by omega) h v fu (fieldsAt_sprLut k) rfl (sprRefuses_of_root d hdom hns) (sprLutFields_types k)
    fun f hf => ⟨(sprLutFields_range k f hf).1, .inl (sprLutFields_range k f hf).2⟩, intAction_sprLut hk rfl,
    sprLutFields_taken hk rfl]

theorem routerOnly_lutWritten {k : Nat} (hk : k < 16) (v : Nat) (d : Dev) :
    RouterOnly [(0x5300, 0x533C)] d (lutWritten k (sprLutTaken k v d)) := by
  have hOff (f : Fld) (hoff : f.off = 0x5300) (hstride : f.stride = 4) (hper : f.per = 1) :
      ∃ r ∈ [(0x5300, 0x533C)], r.1 ≤ (f.ix k).off ∧ (f.ix k).off ≤ r.2 := by
    refine ⟨_, List.mem_singleton_self _, ?_⟩
    rw [off_sprLut hoff hstride hper]
    dsimp only
    omega
  have hLo (f : Fld) (hbstep : f.bstep = 0) (hlo : f.lo < 32) : (f.ix k).lo < 32 := by simpa [Fld.ix, hbstep] using hlo
  have hTaken : RouterOnly [(0x5300, 0x533C)] d (sprLutTaken k v d) :=
    (((((RouterOnly.refl _ d).wr _ (hLo F.SPR_LUT_TRUTH rfl (by decide)) (hOff F.SPR_LUT_TRUTH rfl rfl rfl)).wr _
      (hLo F.SPR_LUT_FF rfl (by decide)) (hOff F.SPR_LUT_FF rfl rfl rfl)).wr _ (hLo F.SPR_LUT_FILT rfl (by decide))
      (hOff F.SPR_LUT_FILT rfl rfl rfl)).wr _ (hLo F.SPR_LUT_NS rfl (by decide)) (hOff F.SPR_LUT_NS rfl rfl rfl)).wr _
      (hLo F.SPR_LUT_OWNER rfl (by decide)) (hOff F.SPR_LUT_OWNER rfl rfl rfl)
  exact (hTaken.spr _).wr _ (hLo F.SPR_LUT_STICKY rfl (by decide)) (hOff F.SPR_LUT_STICKY rfl rfl rfl)

theorem rd_lutWritten_ne {f : Fld} (hbstep : f.bstep = 0) (hlo : f.lo < 32) (h : f.lo ≠ 20) (k : Nat) (d : Dev) :
    (lutWritten k d).rd (f.ix k) = d.rd (f.ix k) :=
  rd_wr_ix_ne { d with spr := { d.spr with filt := del d.spr.filt k, spent := clrBit d.spr.spent k } } 0 k k
    ⟨rfl, hbstep, by decide, hlo, Ne.symm h⟩

theorem rd_sprLutTaken (k v : Nat) (d : Dev) :
    (sprLutTaken k v d).rd (F.SPR_LUT_TRUTH.ix k) = fld v 0 8 ∧ (sprLutTaken k v d).rd (F.SPR_LUT_FF.ix k) = fld v 8 1 ∧
      (sprLutTaken k v d).rd (F.SPR_LUT_FILT.ix k) = fld v 9 4 ∧ (sprLutTaken k v d).rd (F.SPR_LUT_NS.ix k) = fld v 13 1 ∧
      (sprLutTaken k v d).rd (F.SPR_LUT_OWNER.ix k) = fld v 14 4 := by
  refine ⟨?_, ?_, ?_, ?_, ?_⟩ <;> simp (disch := decide) only [sprLutTaken, rd_wr_ix_ne, rd_wr_ix]
  · exact fld_mod v 0 8
  · exact fld_mod v 8 1
  · exact fld_mod v 9 4
  · exact fld_mod v 13 1
  · exact fld_mod v 14 4

/-! ### The statement -/

theorem exec_sprChWrite (c : Fin 48) (v : Word) (a : Acc) (s : State) :
    exec (.sprChWrite c v a) s = .next (s.withDev (regWrite (0x5100 + 4 * c.val) v.toNat a {} s.fuse s.dev)) := rfl

theorem exec_sprLutWrite (k : Fin 16) (v : Word) (a : Acc) (s : State) :
    exec (.sprLutWrite k v a) s = .next (s.withDev (regWrite (0x5300 + 4 * k.val) v.toNat a {} s.fuse s.dev)) := rfl

/-- Settles O32: domain 0 writes what `sprChTaken` and `sprLutTaken` say, and another domain's write is refused. -/
theorem routerRegisters : Obligations.RouterRegisters := by
  refine ⟨?_, ?_, ?_, ?_⟩
  · intro s c v a h hdom hns hdst
    have hOnly := routerOnly_chWritten c.isLt v.toNat s.dev (fld v.toNat 15 1 != 0)
    obtain ⟨hSrc, hDst, hEn, hOwner, hNs⟩ := rd_sprChTaken c v.toNat s.dev
    have hKept (f : Fld) (hbstep : f.bstep = 0) (hlo : f.lo < 32) (hne : f.lo ≠ 21) :
        (chWritten c (fld v.toNat 15 1 != 0) (sprChTaken c v.toNat s.dev)).rd (f.ix c) = (sprChTaken c v.toNat s.dev).rd (f.ix c) :=
      rd_chWritten _ (by simpa [Fld.ix, hbstep] using hlo) (by simpa [Fld.ix, hbstep] using hne) _
    refine ⟨_, (exec_sprChWrite c v a s).trans (by rw [regWrite_sprCh h hdom hns hdst]), ?_⟩
    generalize chWritten c (fld v.toNat 15 1 != 0) (sprChTaken c v.toNat s.dev) = e at hOnly hKept
    exact ⟨(hKept F.SPR_CH_SRC rfl (by decide) (by decide)).trans hSrc, (hKept F.SPR_CH_DST rfl (by decide) (by decide)).trans hDst,
      (hKept F.SPR_CH_EN rfl (by decide) (by decide)).trans hEn, (hKept F.SPR_CH_OWNER rfl (by decide) (by decide)).trans hOwner,
      (hKept F.SPR_CH_NS rfl (by decide) (by decide)).trans hNs, rd_of_onlyAt hOnly.at_ (by decide), hOnly.withDev_acked, hOnly.at_⟩
  · intro s c v a h hdom hown
    have hRefused := sprRefuses_channel (x := { wr := true, off := 0x5100 + 4 * c.val, data := v.toNat, acc := a, env := {} })
      c.isLt rfl hdom hown
    rw [exec_sprChWrite, regWrite_router_refused h (by omega) _ _ (fieldsAt_sprCh c) rfl hRefused, sprAccErr_channel c.isLt rfl]
    rfl
  · intro s k v a h hdom hns
    have hOnly := routerOnly_lutWritten k.isLt v.toNat s.dev
    obtain ⟨hTruth, hFf, hFilt, hNs, hOwner⟩ := rd_sprLutTaken k v.toNat s.dev
    have hKept (f : Fld) (hbstep : f.bstep = 0) (hlo : f.lo < 32) (hne : f.lo ≠ 20) :
        (lutWritten k (sprLutTaken k v.toNat s.dev)).rd (f.ix k) = (sprLutTaken k v.toNat s.dev).rd (f.ix k) :=
      rd_lutWritten_ne hbstep hlo hne _ _
    have hSticky : (lutWritten k (sprLutTaken k v.toNat s.dev)).rd (F.SPR_LUT_STICKY.ix k) = 0 := rd_wr_ix _ _ _ _
    have hFiltCount : look (lutWritten k (sprLutTaken k v.toNat s.dev)).spr.filt k = none := look_del_self _ _
    refine ⟨_, (exec_sprLutWrite k v a s).trans (by rw [regWrite_sprLut h hdom hns]), ?_⟩
    generalize lutWritten k (sprLutTaken k v.toNat s.dev) = e at hOnly hKept hSticky hFiltCount
    exact ⟨(hKept F.SPR_LUT_TRUTH rfl (by decide) (by decide)).trans hTruth, (hKept F.SPR_LUT_FF rfl (by decide) (by decide)).trans hFf,
      (hKept F.SPR_LUT_FILT rfl (by decide) (by decide)).trans hFilt, (hKept F.SPR_LUT_NS rfl (by decide) (by decide)).trans hNs,
      (hKept F.SPR_LUT_OWNER rfl (by decide) (by decide)).trans hOwner, hSticky, hFiltCount, hOnly.withDev_acked, hOnly.at_⟩
  · intro s k v a h hdom hown
    have hRefused := sprRefuses_cell (x := { wr := true, off := 0x5300 + 4 * k.val, data := v.toNat, acc := a, env := {} })
      k.isLt rfl hdom hown
    rw [exec_sprLutWrite, regWrite_router_refused h (by omega) _ _ (fieldsAt_sprLut k) rfl hRefused, sprAccErr_cell k.isLt rfl]
    rfl

end Sys2Proof.Machine
end

section
/-!
PROOFS. The end of an update session's verification (R421): a slot signed by a key of scalar 1 passes every check, and a moderation
group whose MOD_STAT would lie on the slot's version takes the version away again.
-/

namespace Sys2Proof.Machine

-- The kernel evaluations below run one after another.
set_option Elab.async false

/-! ### Signatures under the secret scalar 1 -/

/-- Thirty-two bytes of a number, most significant first. -/
def be32 (n : Nat) : List Byte := (leBytes 32 n).reverse

theorem length_be32 (n : Nat) : (be32 n).length = 32 := by
  rw [be32, List.length_reverse, length_leBytes]

theorem leNat_leBytes (n v : Nat) : leNat (leBytes n v) = v % 256 ^ n := by
  induction n generalizing v with
  | zero => simp [leBytes, leNat, Nat.mod_one]
  | succ n ih =>
    have hSplit : v % 256 ^ (n + 1) = v % 256 + 256 * (v / 256 % 256 ^ n) := by rw [Nat.pow_succ', Nat.mod_mul]
    rw [leBytes, leNat, ih, BitVec.toNat_ofNat]
    exact hSplit.symm

theorem beNat_be32 {n : Nat} (h : n < 256 ^ 32) : beNat (be32 n) = n := by
  rw [beNat, be32, List.reverse_reverse, leNat_leBytes, Nat.mod_eq_of_lt h]

/-- The public key of the secret scalar 1: the generator of P-256. -/
def unitKey : List Byte := be32 p256G.1 ++ be32 p256G.2

/-- What the check of a signature under the secret scalar 1 and the nonce 1 goes through: the digest of the message, the inverse
of the signature's second half, and the two points that add up to the generator. -/
structure UnitCheck where
  digest : Nat
  inv : Nat
  left : Nat × Nat
  right : Nat × Nat

/-- The second half of the signature. -/
def UnitCheck.second (c : UnitCheck) : Nat := (c.digest + p256G.1) % p256N

def UnitCheck.sig (c : UnitCheck) : List Byte := be32 p256G.1 ++ be32 c.second

/-- The check's numbers are what it computes on the way. -/
structure UnitCheck.Sound (c : UnitCheck) (m : List Byte) : Prop where
  digest : beNat (sha256 m) = c.digest
  pos : 1 ≤ c.second
  inv : invMod p256N c.second = c.inv
  left : ecMul p256G 256 (c.digest * c.inv % p256N) none = some c.left
  right : ecMul p256G 256 (p256G.1 * c.inv % p256N) none = some c.right
  sum : ecAdd (some c.left) (some c.right) = some p256G

theorem UnitCheck.second_lt (c : UnitCheck) : c.second < p256N := Nat.mod_lt _ (by decide)

theorem UnitCheck.sig_first (c : UnitCheck) : beNat (c.sig.take 32) = p256G.1 := by
  rw [UnitCheck.sig, List.take_left' (length_be32 _), beNat_be32 (by decide)]

theorem UnitCheck.sig_second (c : UnitCheck) : beNat ((c.sig.drop 32).take 32) = c.second := by
  have hLt : c.second < 256 ^ 32 := Nat.lt_trans c.second_lt (by decide)
  rw [UnitCheck.sig, List.drop_left' (length_be32 _), List.take_of_length_le (Nat.le_of_eq (length_be32 _)), beNat_be32 hLt]

theorem unitKey_x : beNat (unitKey.take 32) = p256G.1 := by
  rw [unitKey, List.take_left' (length_be32 _), beNat_be32 (by decide)]

theorem unitKey_y : beNat ((unitKey.drop 32).take 32) = p256G.2 := by
  rw [unitKey, List.drop_left' (length_be32 _), List.take_of_length_le (Nat.le_of_eq (length_be32 _)), beNat_be32 (by decide)]

theorem onCurve_p256G : onCurve p256G = true := by decide +kernel

theorem p256G_in_range : (1 ≤ p256G.1 ∧ p256G.1 < p256N) ∧ p256G.1 % p256N = p256G.1 := by decide +kernel

theorem ecdsaOk_of_sound {c : UnitCheck} {m : List Byte} (h : c.Sound m) : ecdsaOk unitKey (sha256 m) c.sig = true := by
  obtain ⟨⟨hOne, hLt⟩, hMod⟩ := p256G_in_range
  have hSum : ecAdd (some c.left) (some c.right) = some (p256G.1, p256G.2) := h.sum
  simp only [ecdsaOk, unitKey_x, unitKey_y, c.sig_first, c.sig_second, h.digest, h.inv]
  rw [show ((p256G.1, p256G.2) : Nat × Nat) = p256G from rfl, h.left, h.right, hSum]
  simp only [onCurve_p256G, hOne, hLt, h.pos, c.second_lt, hMod, decide_true, Bool.and_true, beq_self_eq_true]

/-! ### What a NOR written from an address on reads (R405) -/

theorem look_mapIdx (bs : List Byte) (a j : Nat) : look (bs.mapIdx fun i b => (a + i, b)) (a + j) = bs[j]? := by
  induction bs generalizing a j with
  | nil => rfl
  | cons b r ih =>
    rw [List.mapIdx_cons, look]
    cases j with
    | zero => simp
    | succ j =>
      have hRest := ih (a + 1) j
      simp only [Nat.add_assoc, Nat.add_comm 1] at hRest
      simpa using hRest

theorem norRead_of_mapIdx {d : Dev} {bs : List Byte} {a k n : Nat} (h : d.nor.mem = bs.mapIdx fun i b => (a + i, b))
    (hLen : k + n ≤ bs.length) : norRead d (a + k) n = (bs.drop k).take n := by
  refine List.ext_getElem (by simp [norRead]; omega) fun i hi _ => ?_
  have hIn : k + i < bs.length := by simp [norRead] at hi; omega
  simp [norRead, norByte, h, Nat.add_assoc, look_mapIdx, hIn]

/-! ### A slot that passes every check (R105, R416, R420) -/

/-- A patch image without words, of version 77, up to its signature. -/
def imageText : List Byte :=
  leBytes 4 0x53515031 ++ leBytes 2 0x4832 ++ leBytes 1 0xB1 ++ leBytes 1 0xF ++ leBytes 4 77 ++ leBytes 20 0

/-- The header of a slot of version 77 with one image of 96 bytes behind it, up to its signature. -/
def headText : List Byte :=
  leBytes 4 0x534C5431 ++ leBytes 2 0x4832 ++ leBytes 2 0xB1 ++ leBytes 4 77 ++ leBytes 4 0 ++ leBytes 4 1 ++
    leBytes 4 352 ++ leBytes 24 0 ++ unitKey ++ leBytes 4 256 ++ leBytes 4 96 ++ leBytes 72 0

def imageCheck : UnitCheck where
  digest := 0xc257a6125fad2c6af5efecc0db3107cc1b81e805ea698817147355e667da8b7e
  inv := 0x3cdc71a0ccc9a3c061d66568f8017b4adc876f0e3d273333239389b15f823617
  left := (0xa29ab028b40596c86ee5fb041b80783a29d1edce436fa873f0cff6b52537726,
    0x1c0e4804f423adb72720a3229a564e4c0a68d234f50187150c02af2627bcb224)
  right := (0x7f8d4ad264ae950dd986b490f1f21dceb58c815cc4120be763276bd589961eef,
    0x57e530e3afa74241a00588e37882b4f4e9bab009c1824ebfb0ed617bb0ad9bc6)

def headCheck : UnitCheck where
  digest := 0x4a750feab4fd5b7d77312b51a6942006d1e96de9b5ea7c4bd71eb2ed4e9dc01
  inv := 0x636a550972e8858755bb8caf7e9d588e2e8804f4ff9157d51f816efaa384691
  left := (0xfef6fe40465a0335b8a84ee0dca2aacef552ec8d45b52a412f08f296fb5858c1,
    0x4e95a79fb8c9533f9941e35ea41228066032aed97338d489557aa20e8bcfaef8)
  right := (0x27f8583d09fbf39f658cf1555e38822e09a9e2e926024fdbcc858c75f3f7164a,
    0x82a9c532e525ace7d7a9fdc8e2078a058c2141efa6796d974f2770d3ed013735)

theorem digest_imageText : beNat (sha256 imageText) = imageCheck.digest := by decide +kernel

theorem left_imageCheck : ecMul p256G 256 (imageCheck.digest * imageCheck.inv % p256N) none = some imageCheck.left := by
  decide +kernel

theorem right_imageCheck : ecMul p256G 256 (p256G.1 * imageCheck.inv % p256N) none = some imageCheck.right := by decide +kernel

theorem imageCheck_sound : imageCheck.Sound imageText where
  digest := digest_imageText
  pos := by decide +kernel
  inv := by decide +kernel
  left := left_imageCheck
  right := right_imageCheck
  sum := by decide +kernel

theorem digest_headText : beNat (sha256 headText) = headCheck.digest := by decide +kernel

theorem left_headCheck : ecMul p256G 256 (headCheck.digest * headCheck.inv % p256N) none = some headCheck.left := by
  decide +kernel

theorem right_headCheck : ecMul p256G 256 (p256G.1 * headCheck.inv % p256N) none = some headCheck.right := by decide +kernel

theorem headCheck_sound : headCheck.Sound headText where
  digest := digest_headText
  pos := by decide +kernel
  inv := by decide +kernel
  left := left_headCheck
  right := right_headCheck
  sum := by decide +kernel

def imageBytes : List Byte := imageText ++ imageCheck.sig

def headBytes : List Byte := headText ++ headCheck.sig

/-- A session has received that slot for slot 1, and verifies it; its source, 0x0D1, is moderated by group 0xB24. -/
def slotVerifying : State :=
  { dev := withStrayGroup 0xD1 0xB24
      { ((((({} : Dev).wr F.UPD_STAT_STATE 3).wr F.UPD_CTL_TARGET 1).wr F.UPD_LEN_LEN 352).wr F.UPD_RCVD_BYTES 352) with
        nor.mem := (headBytes ++ imageBytes).mapIdx fun i b => (slotAddr 1 + i, b) }
    fuse := { digests := [(0, sha256 unitKey)] } }

theorem mem_slotVerifying :
    slotVerifying.dev.nor.mem = (headBytes ++ imageBytes).mapIdx fun i b => (slotAddr 1 + i, b) := by
  simp only [slotVerifying, withStrayGroup]

theorem length_headBytes : headBytes.length = 256 := by decide +kernel

theorem length_imageBytes : imageBytes.length = 96 := by decide +kernel

theorem slotHead_slotVerifying : slotHead slotVerifying.dev 1 = headBytes := by
  have hRead := norRead_of_mapIdx (k := 0) (n := 256) mem_slotVerifying
    (by rw [List.length_append, length_headBytes]; omega)
  rw [slotHead, ← Nat.add_zero (slotAddr 1), hRead, List.drop_zero, List.take_left' length_headBytes]

theorem image_slotVerifying : norRead slotVerifying.dev (slotAddr 1 + 256) 96 = imageBytes := by
  rw [norRead_of_mapIdx mem_slotVerifying (Nat.le_of_eq (by rw [List.length_append, length_headBytes, length_imageBytes])),
    List.drop_left' length_headBytes, List.take_of_length_le (Nat.le_of_eq length_imageBytes)]

theorem headKey_headBytes : headKey headBytes = unitKey := by decide +kernel

theorem keyIndex_unitKey : keyIndex slotVerifying.fuse unitKey = some 0 := by
  simp [keyIndex, slotVerifying, look]

theorem ecdsaOk_headBytes : ecdsaOk unitKey (sha256 (headBytes.take 192)) ((headBytes.drop 192).take 64) = true := by
  have hText : headBytes.take 192 = headText := by decide +kernel
  have hSig : (headBytes.drop 192).take 64 = headCheck.sig := by decide +kernel
  rw [hText, hSig]
  exact ecdsaOk_of_sound headCheck_sound

theorem slotErr_headBytes : slotErr slotVerifying.fuse 0 (some 352) headBytes = 0 := by
  have hKnown : ¬ ((keyIndex slotVerifying.fuse (headKey headBytes)).isNone = true ∨
      (!ecdsaOk (headKey headBytes) (sha256 (headBytes.take 192)) ((headBytes.drop 192).take 64)) = true) := by
    simp [headKey_headBytes, keyIndex_unitKey, ecdsaOk_headBytes]
  exact (if_neg (by decide +kernel)).trans <| (if_neg (by decide +kernel)).trans <| (if_neg (by decide +kernel)).trans <|
    (if_neg (by decide +kernel)).trans (if_neg hKnown)

theorem imgCheck_imageBytes : imgCheck none 96 0 (some unitKey) imageBytes = none := by
  obtain ⟨hMagic, hPart, hRev, hNmw, hNnw, hNmatch, hNidx, hSigAt⟩ : leAt imageBytes 0 4 = 0x53515031 ∧
      leAt imageBytes 4 2 = 0x4832 ∧ leAt imageBytes 6 1 = 0xB1 ∧ imgNmw imageBytes = 0 ∧ imgNnw imageBytes = 0 ∧
      imgNmatch imageBytes = 0 ∧ imgNidx imageBytes = 0 ∧ imgSigAt imageBytes = 32 := by decide +kernel
  have hText : imageBytes.take 32 = imageText := by decide +kernel
  have hSig : (imageBytes.drop 32).take 64 = imageCheck.sig := by decide +kernel
  simp [imgCheck, imgLen, firstBad, hMagic, hPart, hRev, hNmw, hNnw, hNmatch, hNidx, hSigAt, hText, hSig,
    ecdsaOk_of_sound imageCheck_sound]

theorem target_slotVerifying : slotVerifying.dev.rd F.UPD_CTL_TARGET = 1 := by decide +kernel

theorem length_slotVerifying : updLen slotVerifying.dev = 352 := by decide +kernel

theorem minver_slotVerifying : slotVerifying.dev.upd.bp.minver = 0 := by decide +kernel

theorem dirUsed_headBytes : dirUsed headBytes = [(256, 96)] := by decide +kernel

/-- The checks of a slot with one image pass when the header's and the image's do. -/
theorem targetErr_of_oneImage {fu : Fuses} {d : Dev} {t o n : Nat} {h : List Byte} (ht : t ≤ 1) (hTarget : updTarget d = t)
    (hHead : slotHead d t = h) (hErr : slotErr fu d.upd.bp.minver (some (updLen d)) h = 0) (hDir : dirUsed h = [(o, n)])
    (hImg : imgCheck none n d.upd.bp.minver (some (headKey h)) (norRead d (slotAddr t + o) n) = none) :
    targetErr fu d = (0, 0, 0) := by
  simp [targetErr, imagesErr, hTarget, ht, hHead, hErr, hDir, hImg]

theorem targetErr_slotVerifying : targetErr slotVerifying.fuse slotVerifying.dev = (0, 0, 0) := by
  refine targetErr_of_oneImage (Nat.le_refl 1) target_slotVerifying slotHead_slotVerifying ?_ dirUsed_headBytes ?_
  · rw [minver_slotVerifying, length_slotVerifying]
    exact slotErr_headBytes
  · rw [minver_slotVerifying, headKey_headBytes, image_slotVerifying]
    exact imgCheck_imageBytes

/-! ### A moderation group that lies on the slot's version (R323, R421) -/

/-- MOD_STAT.HOLDOFF of group 0xB24 would lie where UPD_VERB does. -/
theorem versionB_eq_holdoff (d : Dev) : d.rd F.UPD_VERB_VERSION = d.rd (F.MOD_STAT_HOLDOFF.ix 0xB24) := rfl

theorem exec_updVerifyEnd_of_live {s : State} (h : s.dev.live = true) :
    exec .updVerifyEnd s = .next (s.withDev (updVerifyEnd s.fuse s.dev)) := by
  simp only [exec, execUpdVerifyEnd, State.upd_eq, whenLive_live _ h]

/-- The end of a verification of slot 1 that passes. -/
theorem updVerifyEnd_of_slotB_passes {fu : Fuses} {d : Dev} (hState : d.rd F.UPD_STAT_STATE = 3) (hNor : d.upd.nor = 0)
    (hRcvd : d.rd F.UPD_RCVD_BYTES = d.rd F.UPD_LEN_LEN) (hTarget : d.rd F.UPD_CTL_TARGET = 1)
    (hPass : targetErr fu d = (0, 0, 0)) :
    updVerifyEnd fu d = raise 0xD1 ((((d.wr F.UPD_VERB_VERSION (leAt (slotHead d 1) 8 4)).wr F.UPD_STAT_VOKB 1).wr
      F.UPD_STAT_STATE 4).wr F.UPD_STAT_ERR 0) := by
  simp [updVerifyEnd, updLen, updTarget, verFld, vok, hState, hNor, hRcvd, hTarget, hPass]

theorem state_slotVerifying : slotVerifying.dev.rd F.UPD_STAT_STATE = 3 := by decide +kernel

theorem nor_slotVerifying : slotVerifying.dev.upd.nor = 0 := by decide +kernel

theorem received_slotVerifying : slotVerifying.dev.rd F.UPD_RCVD_BYTES = slotVerifying.dev.rd F.UPD_LEN_LEN := by
  decide +kernel

theorem version_slotVerifying : leAt (slotHead slotVerifying.dev 1) 8 4 = 77 := by
  rw [slotHead_slotVerifying]
  decide +kernel

theorem versionB_after_verify : (updVerifyEnd slotVerifying.fuse slotVerifying.dev).rd (verFld 1) = 0 := by
  rw [updVerifyEnd_of_slotB_passes state_slotVerifying nor_slotVerifying received_slotVerifying target_slotVerifying
    targetErr_slotVerifying, version_slotVerifying]
  decide +kernel

/-- Refutes O43: a verification that passes shows the slot's version and then raises its source. In `slotVerifying` that event ends
the HOLDOFF on UPD_VERB (`versionB_eq_holdoff`), so that the version reads 0, where the clause of a pass has 77. -/
theorem not_updateVerify : ¬ Obligations.UpdateVerify := by
  rintro ⟨-, hPass, -⟩
  obtain ⟨t, ht, -, -, hSlot, -⟩ := hPass slotVerifying (by decide +kernel) state_slotVerifying nor_slotVerifying
    received_slotVerifying targetErr_slotVerifying
  have hVersion := (hSlot (target_slotVerifying ▸ Nat.le_refl 1)).2
  rw [exec_updVerifyEnd_of_live (by decide +kernel)] at ht
  rw [← Host.Outcome.next.inj ht, State.withDev_dev, target_slotVerifying, versionB_after_verify, version_slotVerifying] at hVersion
  exact absurd hVersion (by decide)

end Sys2Proof.Machine
end

section
/-!
PROOFS. The end of a boot (R410): a boot without a bootable slot raises its source after BOOT_TIME is written, and a moderation group
whose MOD_STAT would lie there takes the boot time away again.
-/

namespace Sys2Proof.Machine

-- The kernel evaluations below run one after another.
set_option Elab.async false

/-- MOD_STAT.HOLDOFF of group 0xB00 would lie where BOOT_TIME.TIME does. -/
theorem bootTime_eq_holdoff (d : Dev) : d.rd F.BOOT_TIME_TIME = d.rd (F.MOD_STAT_HOLDOFF.ix 0xB00) := rfl

/-- The first bytes of a configuration header with no flag set, and the check of the header they begin (R406); every byte between
is erased. -/
def headerStart : List Byte := leBytes 4 0x43464731 ++ leBytes 2 0x4832 ++ leBytes 2 0xB1

def headerCheck : List Byte := leBytes 4 (crc32c (headerStart ++ List.replicate 52 0xFF))

/-- Discovery finds a NOR of 2 Mbit with erase type 1 of 4 KiB; READY comes after 1 µs. -/
def foundNor : BootEnv :=
  { us := 1, sfdp := leBytes 4 0x50444653 ++ leBytes 4 0 ++ [0, 0, 1, 2, 16, 0, 0, 0xFF] ++ leBytes 4 1 ++ leBytes 4 0x1FFFFF }

/-- A block held in a warm reset, with no channel to enumerate, and with a configuration header and no slot in its NOR; the source of
a fallback, 0x0D6, is moderated by group 0xB00. -/
def slotless : State :=
  { dev := withStrayGroup 0xD6 0xB00
      { regs := [(F.CFG_CHEN_EN.key 0, 0)], cold := false, pins.srstN := false
        nor.mem := (headerStart.mapIdx fun i b => (i, b)) ++ headerCheck.mapIdx fun i b => (60 + i, b) } }

theorem exec_resetReleased (e : BootEnv) (s : State) :
    exec (.resetReleased e) s = .next (s.withDev (resetRelease s.fuse e s.dev)) := by
  simp only [exec, execResetReleased, State.upd_eq]

/-- Refutes O40: a boot writes BOOT_TIME and then raises the source of its fallback to the ROM. In `slotless` that event ends the
HOLDOFF on BOOT_TIME (`bootTime_eq_holdoff`), so that the boot time is 0, where the clause of a boot has 1. -/
theorem not_resetsAndBoot : ¬ Obligations.ResetsAndBoot := by
  rintro ⟨-, -, hBoot, -⟩
  obtain ⟨t, ht, -, -, hTime, -⟩ := hBoot slotless foundNor (by decide +kernel) rfl rfl rfl (by decide +kernel)
    (by decide +kernel) rfl (by decide +kernel)
  rw [exec_resetReleased] at ht
  rw [← Host.Outcome.next.inj ht, State.withDev_dev] at hTime
  exact absurd hTime (by decide +kernel)

end Sys2Proof.Machine
end
